-- ==== Sys2Proof/Word.lean ====
section
/-! DEFINITION. The words of the Gulica architecture and their plainest arithmetic (R28, R44, R87). -/
namespace Sys2Proof

/-- A 64-bit register value: one lane of a v register, or a k register (R44). -/
abbrev Word := BitVec 64

/-- One byte of memory (R87). -/
abbrev Byte := BitVec 8

/-- A 32-bit instruction word, tail word or literal (R87). -/
abbrev IWord := BitVec 32

/-- One bit per lane of a warp: active masks, launch masks, predicates (R30, R44, R57). -/
abbrev LaneMask := BitVec 32

/-- The 32 lane values of one v register, lane 0 first (R44). -/
abbrev Lanes := List Word

/-- The number of lanes of a warp (R20). -/
def numLanes : Nat := 32

/-- A v register that reads 0 in every lane. -/
def zeroLanes : Lanes := List.replicate 32 0

end Sys2Proof
end

