-- ==== Sys2Proof/Config.lean ====
section
/-! DEFINITION. What the manual leaves open: free values. Each is a constant with no body, applied to a
plain counter of State (State.freeCtr) or to the step number, so nothing can be proved of what it is. -/
namespace Sys2Proof

/-- Core cycles that pass during step n of the machine (R58 CLOCK, R5). Log 8. -/
opaque Config.cyclesOf : Nat → Nat

/-- Nanoseconds that pass during step n of the machine (R58 TIME, R5). Log 8. -/
opaque Config.nsOf : Nat → Nat

/-- A byte that a read of host or peer memory returns (R219, R337): the outside answers it. Log 9. -/
opaque Config.busByte : Nat → Byte

/-- Which resident entry a full L1 or translation cache replaces: the manual gives no policy beyond the hints
(R214, R218). Log 6, log 7. -/
opaque Config.victim : Nat → Nat

/-- Whether a cached line or translation that a cache once took is still there when it is looked up: the manual gives
no replacement policy beyond the hints, so other traffic may have displaced it (R214, R218). Log 6, log 7. -/
opaque Config.keeps : Nat → Bool

/-- Whether a failed copy had performed its element i before it stopped (R400: an unspecified subset). Log 12. -/
opaque Config.copyDone : Nat → Nat → Bool

/-- Bytes of an evicted warp's context in its spill area, whose layout belongs to the core (R298). Log 14. -/
opaque Config.contextByte : Nat → Nat → Byte

/-- Power and temperature readings of a telemetry block (R347). Log 13. -/
opaque Config.sensor : Nat → BitVec 32

/-- The public half of the module's identity key pair, with its certificate (R342). Log 13. -/
opaque Config.identity : List Byte

/-- The bytes of an SPDM answer, from the identity key pair, the request, the images and records measured at boot, the
states of the flash banks, and a fresh number: the manual gives no encoding of them (R342, R344). Log 13. -/
opaque Config.spdmAnswer : List Byte → List Byte → List (List Byte) → List Nat → Nat → List Byte

/-- What the payload of a valid configuration record says, whose encoding no rule gives (R341): the cores that spares
replace, the lanes that spares replace by link direction, the power limit in mW, and the domain number. Log 33. -/
opaque Config.spareCores : List Byte → List Nat
opaque Config.spareLanes : List Byte → List (Nat × Nat)
opaque Config.powerLimit : List Byte → Nat
opaque Config.domainOf : List Byte → Nat

/-- Whether an image's signature verifies under the root key (R340, R341, R344). Log 15. -/
opaque Config.verifies : List Byte → Bool

/-- Where the Hearth's dispatcher code starts, a physical address in region 00 (R308). Log 10. -/
opaque Config.hearthEntry : Nat → Word

/-- A host port's completion status of a read or an event write: 0 when it succeeded (R425, R429). Log 16. -/
opaque Config.portStatus : Nat → BitVec 24

/-- Which of several free warp slots or spill areas a new warp takes: the manual says only that it takes a free one
(R246, R298). Log 19. -/
opaque Config.pick : Nat → Nat

/-- Bytes of a save area during a pre-emption, whose contents belong to the Damper (R332). Log 14. -/
opaque Config.saveByte : Nat → Byte

/-- The version of the state table that a Stoker image works with (R343): no rule gives its place in the image. Log 25. -/
opaque Config.tableVersion : List Byte → Nat

/-- Whether a stream has a flit ready at the start of a slot of its own (R321): accesses are performed at once in the
model, so how much of a stream waits at a link is open. Log 108. -/
opaque Config.streamReady : Nat → Bool

/-- Whether a walker has learned of a stop under STOP that the Stoker relays, when it takes its next record: no rule says how
long the relay takes (R410). Log 120. -/
opaque Config.relayed : Nat → Bool

/-- Whether a die's Flue tables read back as the Stoker has written them (R320, R428). Log 16. -/
opaque Config.readsBack : Nat → Bool

/-- How many best-effort slots of a frame Stoker and Damper control takes (R321). Log 108. -/
opaque Config.controlFlits : Nat → Nat

end Sys2Proof
end

