-- ==== Sys2Proof/Syntax.lean ====
section
/-! DEFINITION. The instructions: one constructor per row of the opcode table. An instruction word keeps the fields
of its format (R88, R91, R102, R103, R106), so a word that breaks an entry's limits is still an instruction, one
that raises ILLEGAL (R113). The table's other rows are whole steps of the module's other agents; their constructors
name the agent and what the outside brings to the step. -/
namespace Sys2Proof

/-- A lane instruction word without its opcode (R88), and its tail word when E = 1 (R91). -/
structure LaneW where
  /-- GN, guard negate (R88). -/
  gn : Bool
  /-- GP, the guard predicate (R88). -/
  gp : BitVec 3
  /-- TY, the type code (R63, R65). -/
  ty : BitVec 4
  vd : BitVec 5
  va : BitVec 5
  vb : BitVec 5
  /-- The tail word, when E = 1. -/
  tail : Option IWord
  deriving DecidableEq, Repr

/-- A uniform word in UREG without its opcode (R102), and its literal when E = 1 (R104). -/
structure UniW where
  kd : BitVec 6
  ka : BitVec 6
  kb : BitVec 6
  f5 : BitVec 5
  lit : Option IWord
  deriving DecidableEq, Repr

/-- A uniform word in UBR (R103). -/
structure BrW where
  off : BitVec 23
  lit : Option IWord
  deriving DecidableEq, Repr

/-- A uniform word in UBRK (R103). -/
structure BrkW where
  r : BitVec 6
  off : BitVec 17
  lit : Option IWord
  deriving DecidableEq, Repr

/-- The REP word (R106). -/
structure RepW where
  cnt : BitVec 6
  sd : BitVec 2
  sa : BitVec 2
  sb : BitVec 2
  sc : BitVec 2
  low : BitVec 9
  lit : Option IWord
  deriving DecidableEq, Repr

/-- A uniform word in UCSR (R103). -/
structure CsrW where
  r : BitVec 6
  csr : BitVec 12
  low : BitVec 5
  lit : Option IWord
  deriving DecidableEq, Repr

/-- A store in which an uncorrectable error is found (R393). -/
inductive StoragePlace where
  /-- An HBM granule, by physical address. -/
  | memory (pa : Nat)
  /-- A die-cache line that differs from HBM, by physical address. -/
  | dirtyLine (pa : Nat)
  /-- A line that equals its backing store: die cache, L1 or translation cache. -/
  | cleanCopy (core pa : Nat)
  /-- A scratchpad granule. -/
  | scratchpad (core offset : Nat)
  /-- One lane of a physical v register, by stack offset. -/
  | vreg (core slot off lane : Nat)
  | kreg (core slot k : Nat)
  /-- A row of an accumulator tile. -/
  | accRow (core tile row : Nat)
  | riddleCells (core : Nat)
  | weightLatch (core : Nat) (active : Bool)
  | scaleMemory (core : Nat)
  | tableBank (core : Nat) (bank : Bool)
  | tagTable (core : Nat)
  | routeCounters (core : Nat)
  | kindlingQueue (core : Nat)
  | mailbox (die : Nat)
  deriving DecidableEq, Repr

/-- What the host does through BAR4 (R335, R336): a read, a write, or an AtomicOp of 4 or 8 bytes. -/
inductive HostOp where
  | read
  | write (b : List Byte)
  | fetchAdd (x : Word)
  | swap (x : Word)
  | cas (old new : Word)
  deriving DecidableEq, Repr

/-- A flit that fails its check (R434): its lane, whether it was a replay itself, and whether the replay that follows passes,
which ends the failures in a row (R435). -/
structure FailedFlit where
  lane : Nat
  again : Bool
  passes : Bool
  deriving DecidableEq, Repr

/-- Dies that confirm an invalidation (R215): the queue of the INVAL, and the dies. -/
structure Confirmation where
  queue : Nat
  dies : List Nat
  deriving DecidableEq, Repr

/-- The instructions and the agents' steps, in the order of the opcode table; steps that bring nothing come last. -/
inductive Instr where
  /-- ILL (R113). -/
  | ill (w : LaneW)
  /-- IADD (R119). -/
  | iadd (w : LaneW)
  /-- ISUB (R119). -/
  | isub (w : LaneW)
  /-- IMUL (R119). -/
  | imul (w : LaneW)
  /-- IMULH (R119). -/
  | imulh (w : LaneW)
  /-- IMAD (R121). -/
  | imad (w : LaneW)
  /-- IMIN (R119). -/
  | imin (w : LaneW)
  /-- IMAX (R119). -/
  | imax (w : LaneW)
  /-- IABS (R120). -/
  | iabs (w : LaneW)
  /-- INEG (R120). -/
  | ineg (w : LaneW)
  /-- AND (R119). -/
  | and (w : LaneW)
  /-- OR (R119). -/
  | or (w : LaneW)
  /-- XOR (R119). -/
  | xor (w : LaneW)
  /-- ANDN (R119). -/
  | andn (w : LaneW)
  /-- SHL (R119). -/
  | shl (w : LaneW)
  /-- SHR (R119). -/
  | shr (w : LaneW)
  /-- SAR (R119). -/
  | sar (w : LaneW)
  /-- ROL (R119). -/
  | rol (w : LaneW)
  /-- CLZ (R120). -/
  | clz (w : LaneW)
  /-- POPC (R120). -/
  | popc (w : LaneW)
  /-- BREV (R120). -/
  | brev (w : LaneW)
  /-- BFX (R122). -/
  | bfx (w : LaneW)
  /-- BFI (R122). -/
  | bfi (w : LaneW)
  /-- SEL (R123). -/
  | sel (w : LaneW)
  /-- ISETP (R124). -/
  | isetp (w : LaneW)
  /-- MOV (R123). -/
  | mov (w : LaneW)
  /-- MOVLO (R123). -/
  | movlo (w : LaneW)
  /-- MOVHI (R123). -/
  | movhi (w : LaneW)
  /-- IDOT4 (R121). -/
  | idot4 (w : LaneW)
  /-- ISAT (R120). -/
  | isat (w : LaneW)
  /-- FADD (R125). -/
  | fadd (w : LaneW)
  /-- FSUB (R125). -/
  | fsub (w : LaneW)
  /-- FMUL (R125). -/
  | fmul (w : LaneW)
  /-- FFMA (R126). -/
  | ffma (w : LaneW)
  /-- FMIN (R80). -/
  | fmin (w : LaneW)
  /-- FMAX (R80). -/
  | fmax (w : LaneW)
  /-- FSETP (R124). -/
  | fsetp (w : LaneW)
  /-- FCLASS (R124). -/
  | fclass (w : LaneW)
  /-- FRCP (R127). -/
  | frcp (w : LaneW)
  /-- FRSQ (R127). -/
  | frsq (w : LaneW)
  /-- FSQRT (R127). -/
  | fsqrt (w : LaneW)
  /-- FEXP2 (R127). -/
  | fexp2 (w : LaneW)
  /-- FLOG2 (R127). -/
  | flog2 (w : LaneW)
  /-- FTAB (R131). -/
  | ftab (w : LaneW)
  /-- FCVT (R132). -/
  | fcvt (w : LaneW)
  /-- I2F (R132). -/
  | i2f (w : LaneW)
  /-- F2I (R132). -/
  | f2i (w : LaneW)
  /-- FRND (R129). -/
  | frnd (w : LaneW)
  /-- FDOT2 (R126). -/
  | fdot2 (w : LaneW)
  /-- FLDEXP (R125). -/
  | fldexp (w : LaneW)
  /-- LPERM (R135). -/
  | lperm (w : LaneW)
  /-- BENES (R136). -/
  | benes (w : LaneW)
  /-- VOTE (R138). -/
  | vote (w : LaneW)
  /-- LSCAN (R139). -/
  | lscan (w : LaneW)
  /-- LRED (R139). -/
  | lred (w : LaneW)
  /-- SUBX (R137). -/
  | subx (w : LaneW)
  /-- PACK (R141). -/
  | pack (w : LaneW)
  /-- UNPACK (R141). -/
  | unpack (w : LaneW)
  /-- ELECT (R138). -/
  | elect (w : LaneW)
  /-- LSR (R61). -/
  | lsr (w : LaneW)
  /-- LD (R144). -/
  | ld (w : LaneW)
  /-- ST (R144). -/
  | st (w : LaneW)
  /-- LDS (R144). -/
  | lds (w : LaneW)
  /-- STS (R144). -/
  | sts (w : LaneW)
  /-- LDC (R144). -/
  | ldc (w : LaneW)
  /-- STC (R144). -/
  | stc (w : LaneW)
  /-- ATOM (R147). -/
  | atom (w : LaneW)
  /-- CAS (R147). -/
  | cas (w : LaneW)
  /-- FADDO (R148). -/
  | faddo (w : LaneW)
  /-- FADDA (R148). -/
  | fadda (w : LaneW)
  /-- PFETCH (R149). -/
  | pfetch (w : LaneW)
  /-- TLOOK (R150). -/
  | tlook (w : LaneW)
  /-- TINS (R150). -/
  | tins (w : LaneW)
  /-- TINV (R150). -/
  | tinv (w : LaneW)
  /-- RCNT (R151). -/
  | rcnt (w : LaneW)
  /-- BRD (R153). -/
  | brd (w : LaneW)
  /-- SPAWN (R156). -/
  | spawn (w : LaneW)
  /-- SPAWNT (R292). -/
  | spawnt (w : LaneW)
  /-- EXITL (R155). -/
  | exitl (w : LaneW)
  /-- NOP (R112). -/
  | nop (w : UniW)
  /-- UADD (R159). -/
  | uadd (w : UniW)
  /-- USUB (R159). -/
  | usub (w : UniW)
  /-- UMUL (R159). -/
  | umul (w : UniW)
  /-- UMULH (R159). -/
  | umulh (w : UniW)
  /-- UMIN (R159). -/
  | umin (w : UniW)
  /-- UMAX (R159). -/
  | umax (w : UniW)
  /-- UAND (R159). -/
  | uand (w : UniW)
  /-- UOR (R159). -/
  | uor (w : UniW)
  /-- UXOR (R159). -/
  | uxor (w : UniW)
  /-- USHL (R159). -/
  | ushl (w : UniW)
  /-- USHR (R159). -/
  | ushr (w : UniW)
  /-- USAR (R159). -/
  | usar (w : UniW)
  /-- UCLZ (R159). -/
  | uclz (w : UniW)
  /-- UPOPC (R159). -/
  | upopc (w : UniW)
  /-- UBFX (R161). -/
  | ubfx (w : UniW)
  /-- UBFI (R161). -/
  | ubfi (w : UniW)
  /-- UMOV (R159). -/
  | umov (w : UniW)
  /-- UMOVLO (R159). -/
  | umovlo (w : UniW)
  /-- UMOVHI (R159). -/
  | umovhi (w : UniW)
  /-- UCMP (R159). -/
  | ucmp (w : UniW)
  /-- UDIV (R160). -/
  | udiv (w : UniW)
  /-- UREM (R160). -/
  | urem (w : UniW)
  /-- WIDF (R162). -/
  | widf (w : UniW)
  /-- ULD (R164). -/
  | uld (w : UniW)
  /-- UST (R164). -/
  | ust (w : UniW)
  /-- UATOM (R164). -/
  | uatom (w : UniW)
  /-- BRA (R166). -/
  | bra (w : BrW)
  /-- BRZ (R166). -/
  | brz (w : BrkW)
  /-- BRNZ (R166). -/
  | brnz (w : BrkW)
  /-- CALL (R167). -/
  | call (w : BrkW)
  /-- CALLR (R167). -/
  | callr (w : UniW)
  /-- RET (R167). -/
  | ret (w : UniW)
  /-- ENTER (R46). -/
  | enter (w : UniW)
  /-- LOOP (R168). -/
  | loop (w : BrkW)
  /-- REP (R107). -/
  | rep (w : RepW)
  /-- EXIT (R171). -/
  | exit (w : UniW)
  /-- BRK (R172). -/
  | brk (w : UniW)
  /-- TRAP (R172). -/
  | trap (w : UniW)
  /-- TRET (R360). -/
  | tret (w : UniW)
  /-- JMPR (R166). -/
  | jmpr (w : UniW)
  /-- BAR (R174). -/
  | bar (w : UniW)
  /-- CHIM (R175). -/
  | chim (w : UniW)
  /-- FENCE (R176). -/
  | fence (w : UniW)
  /-- CLOSEB (R177). -/
  | closeb (w : UniW)
  /-- WAITB (R178). -/
  | waitb (w : UniW)
  /-- JOINW (R179). -/
  | joinw (w : UniW)
  /-- JOINA (R180). -/
  | joina (w : UniW)
  /-- WELECT (R181). -/
  | welect (w : UniW)
  /-- OFLUSH (R183). -/
  | oflush (w : UniW)
  /-- PTOK (R184). -/
  | ptok (w : UniW)
  /-- VTOK (R184). -/
  | vtok (w : UniW)
  /-- TCOPY (R190). -/
  | tcopy (w : UniW)
  /-- TCOPYM (R190). -/
  | tcopym (w : UniW)
  /-- SGATHER (R192). -/
  | sgather (w : UniW)
  /-- SREDUCE (R192). -/
  | sreduce (w : UniW)
  /-- SCVT (R192). -/
  | scvt (w : UniW)
  /-- WLOAD (R196). -/
  | wload (w : UniW)
  /-- MMA (R196). -/
  | mma (w : UniW)
  /-- MMAS (R196). -/
  | mmas (w : UniW)
  /-- ACCRD (R198). -/
  | accrd (w : UniW)
  /-- ACCWR (R198). -/
  | accwr (w : UniW)
  /-- ACCZ (R198). -/
  | accz (w : UniW)
  /-- ACCWAIT (R200). -/
  | accwait (w : UniW)
  /-- SORTLD (R202). -/
  | sortld (w : UniW)
  /-- SORT (R279). -/
  | sort (w : UniW)
  /-- SORTST (R202). -/
  | sortst (w : UniW)
  /-- SORTWAIT (R202). -/
  | sortwait (w : UniW)
  /-- SORTSTOP (R285). -/
  | sortstop (w : UniW)
  /-- TABLD (R203). -/
  | tabld (w : UniW)
  /-- TABSW (R203). -/
  | tabsw (w : UniW)
  /-- BENSET (R204). -/
  | benset (w : UniW)
  /-- RSNAP (R205). -/
  | rsnap (w : UniW)
  /-- TSUBMIT (R206). -/
  | tsubmit (w : UniW)
  /-- TDONE (R206). -/
  | tdone (w : UniW)
  /-- MBRECV (R207). -/
  | mbrecv (w : UniW)
  /-- MBFWD (R207). -/
  | mbfwd (w : UniW)
  /-- BLKGO (R207). -/
  | blkgo (w : UniW)
  /-- CSRR (R185). -/
  | csrr (w : CsrW)
  /-- CSRW (R185). -/
  | csrw (w : CsrW)
  /-- CSRS (R185). -/
  | csrs (w : CsrW)
  /-- CSRC (R185). -/
  | csrc (w : CsrW)
  /-- XLINV (R186). -/
  | xlinv (w : UniW)
  /-- LOAD_COMPLETE (R50). -/
  | loadComplete (core slot : Nat)
  /-- VTOK_TOKEN_ARRIVAL (R184). -/
  | vtokTokenArrival (core channel : Nat)
  /-- JOINW_WAKE (R302). -/
  | joinwWake (core slot : Nat)
  /-- JOINW_POLL (R405). -/
  | joinwPoll (core slot : Nat)
  /-- CHILD_EXIT_DECREMENT (R301). -/
  | childExitDecrement (core slot : Nat)
  /-- WARP_RELEASE (R41). -/
  | warpRelease (core slot : Nat)
  /-- KINDLING_ENTRY_ARRIVAL (R294). -/
  | kindlingEntryArrival (core : Nat)
  /-- CHILD_WARP_FORM (R296). -/
  | childWarpForm (core : Nat)
  /-- WARP_RETURN (R299). -/
  | warpReturn (core : Nat)
  /-- SPAWN_DEADLOCK (R404). -/
  | spawnDeadlock (core : Nat)
  /-- COPY_EXECUTE (R262). -/
  | copyExecute (core pos : Nat)
  /-- TABLD_EXECUTE (R203). -/
  | tabldExecute (core pos : Nat)
  /-- SGATHER_EXECUTE (R192). -/
  | sgatherExecute (core pos : Nat)
  /-- SREDUCE_EXECUTE (R192). -/
  | sreduceExecute (core pos : Nat)
  /-- SCVT_EXECUTE (R192). -/
  | scvtExecute (core pos : Nat)
  /-- WLOAD_EXECUTE (R267). -/
  | wloadExecute (core : Nat)
  /-- MMA_EXECUTE (R196). -/
  | mmaExecute (core : Nat)
  /-- MMAS_EXECUTE (R272). -/
  | mmasExecute (core : Nat)
  /-- ACCRD_EXECUTE (R198). -/
  | accrdExecute (core : Nat)
  /-- ACCWR_EXECUTE (R198). -/
  | accwrExecute (core : Nat)
  /-- ACCZ_EXECUTE (R198). -/
  | acczExecute (core : Nat)
  /-- SORTLD_EXECUTE (R202). -/
  | sortldExecute (core : Nat)
  /-- SORT_START (R283). -/
  | sortStart (core : Nat)
  /-- SORT_STEP (R279). -/
  | sortStep (core : Nat)
  /-- SORTST_EXECUTE (R202). -/
  | sortstExecute (core : Nat)
  /-- ORDERED_ADD_EPOCH_APPLY (R241). -/
  | orderedAddEpochApply (launch : Nat)
  /-- MAILBOX_PACKET_ARRIVAL (R309). -/
  | mailboxPacketArrival (die : Nat)
  /-- WALK_RECORD (R253). -/
  | walkRecord (die launch : Nat)
  /-- WALKER_RETRY_PASS (R254). -/
  | walkerRetryPass (die launch : Nat)
  /-- TILE_DONE (R258). -/
  | tileDone (die launch : Nat)
  /-- HWERR_TILE_DISCARD (R396). -/
  | hwerrTileDiscard (launch : Nat)
  /-- WALKFAULT (R409). -/
  | walkfault (launch : Nat)
  /-- DOORBELL_WRITE (R325). -/
  | doorbellWrite (queue : Nat) (offset : BitVec 32)
  /-- EVENT_READ_OFFSET_WRITE (R429). -/
  | eventReadOffsetWrite (queue : Nat) (offset : BitVec 32)
  /-- RESTART (R431). -/
  | restart (queue : Nat)
  /-- RESTART_APPLY (R431). -/
  | restartApply (queue : Nat)
  /-- ABORT (R432). -/
  | abort (queue : Nat)
  /-- DOORBELL_REGISTER_WRITE (R430). -/
  | doorbellRegisterWrite (queue offset : Nat) (value : Word)
  /-- NOP_PACKET (R326). -/
  | nopPacket (queue : Nat)
  /-- LAUNCH (R329). -/
  | launch (queue : Nat)
  /-- LAUNCH_COMMIT (R329). -/
  | launchCommit (launch : Nat)
  /-- GANG_START (R329). -/
  | gangStart (launch die : Nat)
  /-- LAUNCH_COMPLETE (R242). -/
  | launchComplete (launch : Nat)
  /-- RESERVE_TIMEOUT (R428). -/
  | reserveTimeout (launch die : Nat)
  /-- INVAL (R215). -/
  | inval (queue : Nat)
  /-- INVALIDATION_COMPLETE (R215, R397): the dies that confirm the queue's oldest invalidation now. -/
  | invalidationComplete (c : Confirmation)
  /-- SIGNAL (R326). -/
  | signal (queue : Nat)
  /-- WAITV (R326). -/
  | waitv (queue : Nat)
  /-- QUEUE_CREATE (R324). -/
  | queueCreate (queue : Nat)
  /-- QUEUE_DESTROY (R432). -/
  | queueDestroy (queue : Nat)
  /-- GENADV (R216). -/
  | genadv (queue : Nat)
  /-- XFER (R339). -/
  | xfer (queue : Nat)
  /-- ESLYN_INBOUND_WRITE (R339). -/
  | eslynInboundWrite (asid : Nat) (va : Word) (data : List Byte)
  /-- ASPACE_CREATE (R210). -/
  | aspaceCreate (queue : Nat)
  /-- ASPACE_SET_ROOT (R210). -/
  | aspaceSetRoot (queue : Nat)
  /-- ASPACE_DESTROY (R210). -/
  | aspaceDestroy (queue : Nat)
  /-- WINDOW (R336). -/
  | window (queue : Nat)
  /-- FIRMWARE_STAGE (R344). -/
  | firmwareStage (queue : Nat)
  /-- FIRMWARE_ACTIVATE (R344). -/
  | firmwareActivate (queue : Nat)
  /-- QUEUE_AGING (R328). -/
  | queueAging (queue : Nat)
  /-- PREEMPT_SAVE (R332). -/
  | preemptSave (launch : Nat)
  /-- LAUNCH_RESUME (R333). -/
  | launchResume (launch : Nat)
  /-- LAUNCH_TRAP_STOP (R372). -/
  | launchTrapStop (launch : Nat)
  /-- FLIT_REPLAY (R434): a flit of a lane fails its check. -/
  | flitReplay (direction : Nat) (flit : FailedFlit)
  /-- FLUE_LANE_CALIBRATION (R345). -/
  | flueLaneCalibration (direction : Nat) (failing : List Nat)
  /-- FLUE_LINK_LOSS (R435). -/
  | flueLinkLoss (direction : Nat)
  /-- HBM_REFRESH (R345). -/
  | hbmRefresh (die group channel : Nat)
  /-- PATROL_SCRUB (R395). -/
  | patrolScrub (pa : Nat) (bad : Bool)
  /-- MEMORY_SIDE_REQUEST (R217). -/
  | memorySideRequest (asid gen pa : Nat) (write : Option (List Byte))
  /-- UNCORRECTABLE_ERROR (R393). -/
  | uncorrectableError (place : StoragePlace)
  /-- HOST_WINDOW_ACCESS (R335, R336): port, offset, number of bytes, and what the host does with them. -/
  | hostWindowAccess (port offset n : Nat) (op : HostOp)
  /-- SPDM_REQUEST (R342). -/
  | spdmRequest (port : Nat) (request : List Byte)
  /-- CORE_FAILURE (R436). -/
  | coreFailure (core : Nat)
  /-- DIE_ISOLATION (R437). -/
  | dieIsolation (die : Nat)
  /-- ESLYN_PORT_LOSS (R441). -/
  | eslynPortLoss (port : Nat)
  /-- DIE_RESET (R397). -/
  | dieReset (die : Nat)
  /-- XFER_COMPLETE (R339). -/
  | xferComplete (queue : Nat)
  /-- FIRMWARE_STAGE_COMPLETE (R344). -/
  | firmwareStageComplete (queue : Nat)
  /-- WAITV_SATISFIED (R326). -/
  | waitvSatisfied (queue : Nat)
  /-- FLUE_FRAME (R318). -/
  | flueFrame
  /-- CHIMNEY_TICK (R322). -/
  | chimneyTick
  /-- STOKER_ROLE_EXCHANGE (R343). -/
  | stokerRoleExchange
  /-- SCHEDULING_ROTATION (R328). -/
  | schedulingRotation
  /-- TELEMETRY_SAMPLING (R347). -/
  | telemetrySampling
  /-- POWER_STEP_DOWN (R346). -/
  | powerStepDown
  /-- POWER_STEP_UP (R346). -/
  | powerStepUp
  /-- MODULE_RESET (R340). -/
  | moduleReset
  /-- MESH_SPLIT (R439). -/
  | meshSplit
  /-- STOKER_FAILOVER (R440). -/
  | stokerFailover
  /-- FLASH_WEAR_MANAGEMENT (R345). -/
  | flashWearManagement
  deriving DecidableEq, Repr

end Sys2Proof
end

