-- ==== Sys2Proof/Machine/State.lean ====
section
/-! DEFINITION. The state of the Keamel K8 as plain data, and its value right after module reset. Every field's
docstring names the rule of spec/, the width and the reset value. Counts, sizes, addresses and cell keys are Nat;
what software sees as a word is a bit vector. Tables by number are lists of pairs sorted by key (AMap); a number
that a table does not list holds the field's reset value. -/
namespace Sys2Proof.Machine

/-- Memory as (address, byte) pairs: addresses strictly rising, no entry equal to 0, which an unlisted address
reads as (R340: boot clears device memory; log 3 for the on-die stores). -/
abbrev Memory := List Host.Cell

/-- A table by number: pairs sorted by strictly rising number. -/
abbrev AMap (α : Type) := List (Nat × α)

/-- Why a run stops. Only states that no run from reset reaches stop: the machine itself never does, since every
misuse of an instruction takes a trap (R369), which is a next state. -/
inductive Fault where
  /-- Raised by a warp instruction when the warp the step issues for holds no live warp, so nobody issues the
  instruction (R37). Safe: the hardware issues only for resident warps. -/
  | noWarp
  deriving DecidableEq, Repr

/-- Why a word has no meaning in the model. -/
inductive Refusal where
  /-- Raised by exec's arm of an instruction that has no meaning yet. Safe: the model stops where hardware goes on. -/
  | notModelled (mnemonic : String)
  deriving DecidableEq, Repr

/-- Poison of one lane of a v register, by stack offset, or of a k register (R393, R394). -/
structure RegPoison where
  /-- Stack offset of the v register, or number of the k register. -/
  reg : Nat
  /-- Lane, 0 for a k register. -/
  lane : Nat
  /-- HWERR reason 1 memory, 2 register store, 3 scratchpad, 4 accumulator row (R357). -/
  reason : Nat
  /-- The address the poisoned load used and its space (R357), for reasons 1 and 3. -/
  addr : Word
  /-- The space code of that address (R357). -/
  space : Nat
  /-- Tile and row of an ACCRD.v, for reason 4. -/
  tile : Nat
  /-- Row of the tile, for reason 4. -/
  row : Nat
  deriving DecidableEq, Repr

/-- A long-latency producer that has issued and not completed (R50). -/
structure InFlight where
  /-- Whether the destination is a k register. -/
  toK : Bool
  /-- Stack offset of the v register, or number of the k register. -/
  reg : Nat
  /-- The lanes it writes. -/
  mask : LaneMask
  /-- The values of the lanes, taken at issue (log 4). -/
  vals : Lanes
  /-- The poisoned lanes it delivers (R394). -/
  poison : List RegPoison
  deriving DecidableEq, Repr

/-- The link a CALL or a trap entry records (R46, R359). -/
structure Link where
  /-- Address of the caller's next instruction. -/
  ret : Word
  /-- The caller's frame size m. -/
  callerM : Nat
  /-- The overlap n of the callee's frame. -/
  n : Nat
  /-- Whether the caller had executed its ENTER (R46, R367). -/
  callerEntered : Bool
  /-- A trap frame (R359). -/
  trap : Bool
  deriving DecidableEq, Repr

/-- A frame's spill record (R48): its address and its number of data units. -/
structure SpillRec where
  /-- Address of the record in the spill area. -/
  addr : Nat
  /-- Number of its data units. -/
  count : Nat
  deriving DecidableEq, Repr

/-- A divergence-stack entry (R53). -/
structure DivEntry where
  /-- Where its lanes go on (R53; 64 bits). -/
  addr : Word
  /-- Its lanes (R53; 32 bits). -/
  mask : LaneMask
  /-- Kind: PENDING when true, RECONV when false. -/
  pending : Bool
  deriving DecidableEq, Repr

/-- A loop frame (R55). -/
structure LoopFrame where
  /-- Address of the loop's first instruction (R55). -/
  first : Word
  /-- Address of its last instruction (R55). -/
  last : Word
  /-- Iterations left (R55; 32 bits). -/
  count : BitVec 32
  deriving DecidableEq, Repr

/-- REP state (R56): the REP word's address, its count, its step codes and the next iteration; the instruction it
repeats as encoded (word and tail, 0 if none), and the address behind it. -/
structure RepState where
  /-- Address of the REP word. -/
  pc : Word
  /-- CNT of the REP word (R106). -/
  count : Nat
  /-- Step code of the destination (R107). -/
  sd : BitVec 2
  /-- Step code of source a (R107). -/
  sa : BitVec 2
  /-- Step code of source b (R107). -/
  sb : BitVec 2
  /-- Step code of source c (R107). -/
  sc : BitVec 2
  /-- The iteration to run next. -/
  next : Nat
  /-- The instruction's first word, as fetched with the REP word. -/
  word : IWord
  /-- Its tail word (R91, R92). -/
  tail : IWord
  /-- Address of the instruction after it. -/
  after : Word
  deriving DecidableEq, Repr

/-- A closed batch with commands still running (R177). -/
structure Batch where
  /-- Batch number (R177; 16 bits). -/
  num : BitVec 16
  /-- Commands of the batch still running. -/
  left : Nat
  deriving DecidableEq, Repr

/-- A failed engine operation not yet reported (R358, R446): the slot of its issuing warp, its group, its batch or
sequence number, its detail. -/
structure FailedOp where
  /-- Slot of the issuing warp. -/
  slot : Nat
  /-- Trap group of its report: 18 copy, 19 stack, 20 matrix, 21 sort (R356). -/
  group : Nat
  /-- Its batch, matrix sequence or Riddle command number. -/
  num : BitVec 16
  /-- DETAIL0 of the report (R400 to R402). -/
  d0 : BitVec 32
  /-- DETAIL1 of the report. -/
  d1 : BitVec 32
  /-- DETAIL2 of the report. -/
  d2 : BitVec 32
  deriving DecidableEq, Repr

/-- What a parked warp waits for (R39, R362, R372). -/
inductive Park where
  | bar
  | chim (channel : Nat) (module : Bool) (phase : Nat)
  | batch (n : BitVec 16)
  | acc (n : BitVec 16)
  /-- SORTWAIT: the number of Riddle commands the core had issued. -/
  | sort (upTo : Nat)
  | oflush (epoch : Nat)
  /-- JOINW: the counter's virtual and physical address, whether the die registered the waiter, and whether a
  notification has come (R302, R405). -/
  | join (va : Word) (pa : Nat) (registered notified : Bool)
  | mbrecv
  /-- A recoverable translation fault at this address (R362). -/
  | xlate (va : Word)
  /-- The warp's trap has gone to the active Stoker (R352). -/
  | stoker
  deriving DecidableEq, Repr

/-- What occupies a warp slot. -/
inductive WarpStatus where
  | free
  | live
  /-- Evicted to its spill area (R298): it holds no hardware slot; the model lists it from number 64 up. -/
  | evicted
  /-- EXIT or EXITL has ended it; its slot is held until its operations complete (R41). -/
  | retired
  deriving DecidableEq, Repr

/-- Block warp, spawned child or Hearth (R26, R36). -/
inductive WarpKind where
  | block
  | child
  | hearth
  deriving DecidableEq, Repr

/-- A child lane's ending that has not yet decremented its join counter (R301). -/
structure ExitDec where
  /-- The lane that ended. -/
  lane : Nat
  /-- The warp's slot at the EXIT or EXITL, for a JOIN fault's record (R443). -/
  slot : Nat
  /-- Its join address (R300). -/
  join : Word
  /-- The address and mask of the EXIT or EXITL, for a JOIN fault's record (R443). -/
  pc : Word
  /-- The acting lanes of the EXIT or EXITL. -/
  mask : LaneMask
  /-- Whether it was a uniform word. -/
  unif : Bool
  /-- What the warp had issued before it (R301): producers still in flight, the newest batch with commands, and the
  core's matrix and Riddle commands issued so far. -/
  loads : Nat
  /-- The newest batch with commands it waits for. -/
  batch : BitVec 16
  /-- The core's newest matrix command at its end. -/
  mseq : BitVec 16
  /-- The core's Riddle commands issued at its end. -/
  rnum : Nat
  /-- The counter's address when its page has V = 0, until an INVAL covers it (R405). -/
  waiting : Bool
  deriving DecidableEq, Repr

/-- A pending replay (R363): the instruction, its REP iteration and the 64 KiB granule that faulted. -/
structure Replay where
  /-- Address of the instruction (R363). -/
  pc : Word
  /-- Its REP iteration (R363). -/
  iter : Nat
  /-- Number of the 64 KiB granule that faulted. -/
  granule : Nat
  deriving DecidableEq, Repr

/-- A warp. Where a rule gives a value at warp start it stands in the docstring; a slot that no warp has taken holds
the values of Warp.free. -/
structure Warp where
  /-- Occupancy of the slot (R25, R41); model's own; reset free. -/
  status : WarpStatus
  /-- Kind of warp (R26, R36); model's own; reset block: DESIGN CHOICE log 2. -/
  kind : WarpKind
  /-- Launch number; model's own; reset 0: DESIGN CHOICE log 2. -/
  launch : Nat
  /-- Number of its block on the core (R24); model's own; reset 0: DESIGN CHOICE log 2. -/
  block : Nat
  /-- WARPID.IDX (R59, 03_thread_state.md; 8 bits; reset — : DESIGN CHOICE 0, log 2). -/
  idx : Nat
  /-- WID, CSR 0x000 (R20–R23, R58, 02_execution_model.md; 64 bits; reset DESIGN CHOICE 0, log 2). -/
  wid : Word
  /-- WIDFMT, CSR 0x001 (R21, 02_execution_model.md; 39 bits; reset — : DESIGN CHOICE 0, log 2). -/
  widfmt : Word
  /-- BLOCKWARPS, CSR 0x004 (R58, 03_thread_state.md; 5 bits; reset DESIGN CHOICE 0, log 2). -/
  blockWarps : Nat
  /-- Cycle in which the warp became resident, its age (R37, 02_execution_model.md; reset DESIGN CHOICE 0, log 2). -/
  since : Nat
  /-- Ready cycles without issue (R38, 02_execution_model.md; reset 0 at warp start). -/
  waited : Nat
  /-- Address of the next instruction (R62, 03_thread_state.md; 64 bits; reset DESIGN CHOICE 0, log 2). -/
  pc : Word
  /-- Active mask, ACTIVE.MASK, CSR 0x005 (R57, R59, 03_thread_state.md; 32 bits; reset — : DESIGN CHOICE 0, log 2). -/
  active : LaneMask
  /-- Launch mask, ACTIVE.LAUNCH (R30, R59, 03_thread_state.md; 32 bits; reset — : DESIGN CHOICE 0, log 2). -/
  launchMask : LaneMask
  /-- Window base, a stack offset (R45, R46, 03_thread_state.md; reset 0, the bottom). -/
  base : Nat
  /-- Frame size m (R45, R46, 03_thread_state.md; 0 to 32; reset WINDOW of the header, here DESIGN CHOICE 32, log 2). -/
  m : Nat
  /-- Whether the frame has executed its ENTER (R46; reset false). -/
  entered : Bool
  /-- Links of the frames, newest first (R46, 03_thread_state.md; reset empty). -/
  links : List Link
  /-- Spill records, newest first (R48, 03_thread_state.md; reset empty). -/
  spilled : List SpillRec
  /-- v registers by stack offset, 32 lanes of 64 bits (R44, R45, 03_thread_state.md; reset 0). -/
  vregs : AMap Lanes
  /-- Stack offsets of empty v registers (R50, 03_thread_state.md; reset none, every register is full, R45). -/
  vEmpty : List Nat
  /-- Poisoned lanes of v registers (R394, 20_memory_engine_faults.md; reset none). -/
  vPoison : List RegPoison
  /-- k1–k63 (R44, R45, 03_thread_state.md; 64 bits each; reset 0 but for those the launch fills). -/
  kregs : AMap Word
  /-- Empty k registers (R50, 03_thread_state.md; reset none). -/
  kEmpty : List Nat
  /-- Poisoned k registers (R394, 20_memory_engine_faults.md; reset none). -/
  kPoison : List RegPoison
  /-- p0–p6 (R44, R45, 03_thread_state.md; 32 lanes each; reset 0). -/
  preds : AMap LaneMask
  /-- On-chip divergence entries, newest first, at most 16 (R53, 03_thread_state.md; reset empty). -/
  div : List DivEntry
  /-- Number of divergence entries in the spill area (R53, 03_thread_state.md; reset 0). -/
  divSpilled : Nat
  /-- Loop-frame stack, innermost first, at most 4 (R55, 03_thread_state.md; reset empty). -/
  loops : List LoopFrame
  /-- REP state (R56, 03_thread_state.md; reset none). -/
  rep : Option RepState
  /-- Iteration at which the next REP prefix starts, after a TRET with REPV = 1 (R360, 18_traps.md; 6 bits; reset 0). -/
  repFrom : Nat
  /-- FPSR, CSR 0x010: NV DZ OF UF NX (R59, 03_thread_state.md; 5 bits; reset 0). -/
  fpsr : BitVec 5
  /-- LPCFG0, CSR 0x020 (R59, 03_thread_state.md; 13 bits; reset 0). -/
  lpcfg0 : BitVec 13
  /-- LPCFG1, CSR 0x021 (R59, 03_thread_state.md; 24 bits; reset 0x00FA_C688). -/
  lpcfg1 : BitVec 24
  /-- WINBUDGET, CSR 0x030 (R47, R58, 03_thread_state.md; 11 bits; reset DESIGN CHOICE 0, log 2). -/
  budget : Nat
  /-- SPILLBASE, CSR 0x031 (R58, 03_thread_state.md; 52 bits; reset DESIGN CHOICE 0, log 2). -/
  spillBase : Nat
  /-- SPILLSIZE, CSR 0x032 (R58, 03_thread_state.md; 32 bits; reset DESIGN CHOICE 0, log 2). -/
  spillSize : Nat
  /-- Spill area number in its launch's spill region (R246, 12_tensor_launch.md; reset none). -/
  spillArea : Option Nat
  /-- BATCHSEQ.NEWEST, CSR 0x040 (R59, 03_thread_state.md; 16 bits; reset 0xFFFF). -/
  newest : BitVec 16
  /-- Commands of the open batch still running (R177, 08_uniform_control.md; reset 0). -/
  openLeft : Nat
  /-- Closed batches with commands still running, oldest first, from which BATCHSEQ.OLDEST is read (R59, R177; reset empty). -/
  batches : List Batch
  /-- Failed copy and stack-engine commands not yet reported (R358, R446; reset empty). -/
  failed : List FailedOp
  /-- Batches in which a completed copy or stack command wrote device memory, and that no WAITB has joined (R218; reset empty). -/
  wrote : List (BitVec 16)
  /-- The 8 Benes control words (R45, R100, 03_thread_state.md; 144 bits each; reset 0). -/
  benes : AMap (BitVec 144)
  /-- Ordering epoch (R182, 08_uniform_control.md; 32 bits in KCW; reset 0). -/
  epoch : Nat
  /-- FADDO issue order count of the warp's lanes (R148, 07_lane_data.md; reset 0). -/
  faddoCount : Nat
  /-- Join address of each lane of a child (R300, 15_spawn.md; 64 bits; reset 0: none). -/
  joins : AMap Word
  /-- Ended child lanes whose counter is not yet decremented (R301, 15_spawn.md; reset empty). -/
  exitDecs : List ExitDec
  /-- Producers in flight, oldest first (R50, 03_thread_state.md; reset empty). -/
  inflight : List InFlight
  /-- VTOKs that wait for a token (R184, 08_uniform_control.md; reset 0). -/
  vtokWaits : Nat
  /-- What the warp is parked on (R39, 02_execution_model.md; reset none). -/
  park : Option Park
  /-- Cycle in which the warp parked in JOINW (R298, 15_spawn.md; reset DESIGN CHOICE 0, log 2). -/
  parkedAt : Nat
  /-- Number of frames spilled under R40 since the warp parked in JOINW (R40, R298, 02_execution_model.md; reset 0). -/
  lent : Nat
  /-- Where the warp goes on once the join it parks on completes; model's own; reset 0: DESIGN CHOICE log 2. -/
  wakePc : Word
  /-- Pending replay of a translation fault (R363, 18_traps.md; reset none). -/
  replay : Option Replay
  /-- The next instruction issues once without breakpoint and watchpoint checks (R360, 18_traps.md; reset false). -/
  suppress : Bool
  /-- TVEC, CSR 0x100 (R354, R355, 18_traps.md; 64 bits; reset TVDEF of the header, here DESIGN CHOICE 0, log 2). -/
  tvec : Word
  /-- TCAUSE, CSR 0x101 (R355, 18_traps.md; 7 bits; reset 0). -/
  tcause : BitVec 7
  /-- TEPC, CSR 0x102 (R355, 18_traps.md; 52 bits; reset 0). -/
  tepc : BitVec 52
  /-- TSTAT, CSR 0x103: REPJ REPV SUPP INTRAP (R355, 18_traps.md; 9 bits; reset 0). -/
  tstat : BitVec 9
  /-- TMASK, CSR 0x104 (R354, 18_traps.md; 32 bits; reset DESIGN CHOICE 0, log 2). -/
  tmask : LaneMask
  /-- DETAIL0, CSR 0x105 (R354, R357, 18_traps.md; 32 bits; reset DESIGN CHOICE 0, log 2). -/
  detail0 : BitVec 32
  /-- DETAIL1, CSR 0x106 (R354, R357, 18_traps.md; 32 bits; reset DESIGN CHOICE 0, log 2). -/
  detail1 : BitVec 32
  /-- DETAIL2, CSR 0x107 (R354, R357, 18_traps.md; 32 bits; reset DESIGN CHOICE 0, log 2). -/
  detail2 : BitVec 32
  /-- TSCR0–TSCR3, CSRs 0x108–0x10B (R354, 18_traps.md; 64 bits each; reset DESIGN CHOICE 0, log 2). -/
  tscr : AMap Word
  /-- BPADDR0–BPADDR3, CSRs 0x110–0x113 (R355, 18_traps.md; 52 bits each; reset 0). -/
  bpaddr : AMap Word
  /-- WPADDR0, WPADDR1, CSRs 0x118, 0x119 (R354, 18_traps.md; 52 bits each; reset DESIGN CHOICE 0, log 2). -/
  wpaddr : AMap Word
  /-- WPCTL0, WPCTL1, CSRs 0x11A, 0x11B (R355, 18_traps.md; 8 bits each; reset 0). -/
  wpctl : AMap Word
  deriving DecidableEq, Repr

/-- A free warp slot. -/
def Warp.free : Warp where
  status := .free
  kind := .block
  launch := 0
  block := 0
  idx := 0
  wid := 0
  widfmt := 0
  blockWarps := 0
  since := 0
  waited := 0
  pc := 0
  active := 0
  launchMask := 0
  base := 0
  m := 32
  entered := false
  links := []
  spilled := []
  vregs := []
  vEmpty := []
  vPoison := []
  kregs := []
  kEmpty := []
  kPoison := []
  preds := []
  div := []
  divSpilled := 0
  loops := []
  rep := none
  repFrom := 0
  fpsr := 0
  lpcfg0 := 0
  lpcfg1 := 0xFAC688
  budget := 0
  spillBase := 0
  spillSize := 0
  spillArea := none
  newest := 0xFFFF
  openLeft := 0
  batches := []
  failed := []
  wrote := []
  benes := []
  epoch := 0
  faddoCount := 0
  joins := []
  exitDecs := []
  inflight := []
  vtokWaits := 0
  park := none
  parkedAt := 0
  lent := 0
  wakePc := 0
  replay := none
  suppress := false
  tvec := 0
  tcause := 0
  tepc := 0
  tstat := 0
  tmask := 0
  detail0 := 0
  detail1 := 0
  detail2 := 0
  tscr := []
  bpaddr := []
  wpaddr := []
  wpctl := []

/-- A block on a core (R24, R181). -/
structure Block where
  /-- Launch it belongs to. -/
  launch : Nat
  /-- Its WID (R20). -/
  wid : Word
  /-- First scratchpad unit and number of units (R220). -/
  unit0 : Nat
  /-- Number of scratchpad units (R220). -/
  units : Nat
  /-- Slots of its warps, in index order. -/
  slots : List Nat
  /-- Index of the elected warp (R181); starts at 0. -/
  elected : Nat
  /-- Indices that have arrived at the current barrier round (R174). -/
  arrived : List Nat
  /-- Indices that have retired (R174, R181). -/
  retired : List Nat
  /-- Indices whose slot is released (R42). -/
  released : List Nat
  /-- Placement record index, for a block of a tensor launch (R253, R258). -/
  tile : Option Nat
  deriving DecidableEq, Repr

/-- A queued copy command: TCOPY, TCOPYM or TABLD (R190, R203), with the values it read at issue. -/
structure CopyCmd where
  /-- Slot of the issuing warp. -/
  slot : Nat
  /-- Its launch. -/
  launch : Nat
  /-- Its batch (R177). -/
  batch : BitVec 16
  /-- Direction 0 g2s, 1 s2g, 2 g2q, 3 s2w, 4 TABLD. -/
  dir : Nat
  /-- Memory-side base plus offset, or TABLD's table address. -/
  base : Word
  /-- The 256 descriptor bytes as read at issue (R190); for TABLD empty. -/
  desc : List Byte
  /-- Receiving cores of TCOPYM in the die (R190), or of TCOPY the issuing core; TABLD: the function mask. -/
  targets : List Nat
  /-- TABLD: the bank that was inactive at issue (R203). -/
  bank : Bool
  /-- Numbers of the box rows, or of a TABLD's functions, performed before the command stopped (R331, R391). -/
  rows : List Nat
  /-- The cores whose scale memory or bank has taken poison since it performed the first of them (R394). -/
  tainted : List Nat
  /-- An address the command stopped on until an INVAL covers it (R391). -/
  waiting : Option Word
  /-- Whether it has started: commands start in issue order (R187). -/
  started : Bool
  deriving DecidableEq, Repr

/-- A queued stack-engine command (R191, R192): the kind 0 SGATHER, 1 SREDUCE, 2 SCVT. -/
structure StackCmd where
  /-- Slot of the issuing warp. -/
  slot : Nat
  /-- Its launch. -/
  launch : Nat
  /-- Its batch (R177). -/
  batch : BitVec 16
  /-- 0 SGATHER, 1 SREDUCE, 2 SCVT. -/
  kind : Nat
  /-- The descriptor bytes as read at issue (R191, R192). -/
  desc : List Byte
  /-- Next element, for a command that stopped on an absent page (R391). -/
  next : Nat
  /-- The address it stopped on until an INVAL covers it (R391). -/
  waiting : Option Word
  /-- Whether it has started: commands start in issue order (R187). -/
  started : Bool
  deriving DecidableEq, Repr

/-- The kinds of queued matrix commands (R193). -/
inductive MatKind where
  | wload
  | mma
  | mmas
  | accrd
  | accwr
  | accz
  deriving DecidableEq, Repr

/-- A queued matrix command with the register values it read at issue (R193, R276). -/
structure MatCmd where
  /-- Its sequence number (R193; 16 bits). -/
  seq : BitVec 16
  /-- Which command it is. -/
  kind : MatKind
  /-- Slot of the issuing warp. -/
  slot : Nat
  /-- Its launch. -/
  launch : Nat
  /-- Accumulator tile (R44). -/
  tile : Nat
  /-- Scratchpad offset. -/
  off : Nat
  /-- The control register's value at issue. -/
  ctl : Word
  deriving DecidableEq, Repr

/-- A weight latch (R267, R276): weights as bytes from its base, format, scale location; the presence mask follows
from the weights and the format (R272). -/
structure Latch where
  /-- Weight format (R269). -/
  fmt : Nat
  /-- Scale format (R72). -/
  scf : Bool
  /-- Offset of the weights' scales in the scale memory. -/
  wsoff : Nat
  /-- The weight bytes, from offset 0. -/
  bytes : Memory
  /-- Whether poison was read into it (R394). -/
  poison : Bool
  deriving DecidableEq, Repr

/-- A cell of the Riddle array (R277). -/
structure Cell where
  /-- Key (R277; 32 bits). -/
  key : BitVec 32
  /-- Payload (R277; 32 bits). -/
  payload : BitVec 32
  /-- Origin (R277; 14 bits). -/
  origin : BitVec 14
  deriving DecidableEq, Repr

/-- The Riddle array (R277, R283): the latched geometry, format and presence, the tile's cells in row-major order,
the progress state and the running sort's direction and stability. -/
structure Riddle where
  /-- Rows latched by SORTLD (R277). -/
  rows : Nat
  /-- Columns latched (R277). -/
  cols : Nat
  /-- Key format latched (R85). -/
  fmt : Nat
  /-- Whether payloads were loaded. -/
  hasPayload : Bool
  /-- Whether origins are held. -/
  hasOrigin : Bool
  /-- The tile's cells in row-major order (R277). -/
  cells : List Cell
  /-- SORTPROG.STATE (R59, R283): 0 IDLE, 1 LOADED, 2 RUNNING, 3 STOPPED, 4 SORTED. -/
  state : Nat
  /-- SORTPROG.PHASE (R59, R281). -/
  phase : Nat
  /-- SORTPROG.STEP (R59, R281). -/
  step : Nat
  /-- DESC of the running sort (R202). -/
  desc : Bool
  /-- STABLE of the running sort (R202). -/
  stable : Bool
  /-- Whether poison was loaded into the tile (R394). -/
  poison : Bool
  deriving DecidableEq, Repr

/-- The Riddle array after module reset: IDLE (R283). -/
def Riddle.idle : Riddle where
  rows := 0
  cols := 0
  fmt := 0
  hasPayload := false
  hasOrigin := false
  cells := []
  state := 0
  phase := 0
  step := 0
  desc := false
  stable := false
  poison := false

/-- A queued Riddle command (R201, R202): kind 0 SORTLD, 1 SORT, 2 SORTST. -/
structure SortCmd where
  /-- Its number among the core's Riddle commands. -/
  num : Nat
  /-- 0 SORTLD, 1 SORT, 2 SORTST. -/
  kind : Nat
  /-- Slot of the issuing warp. -/
  slot : Nat
  /-- Its launch. -/
  launch : Nat
  /-- Scratchpad offset. -/
  off : Nat
  /-- The control register's value at issue. -/
  ctl : Word
  /-- F5: RAW for load and store; DESC, STABLE and RESUME for SORT. -/
  flags : BitVec 5
  deriving DecidableEq, Repr

/-- A Kindling entry (R293) with its launch and its arrival cycle (R296). -/
structure Kindle where
  /-- Launch of the child. -/
  launch : Nat
  /-- Entry address (R293; 64 bits). -/
  entry : Word
  /-- Address of the join counter (R293, R300). -/
  join : Word
  /-- Payload words (R293). -/
  pay : List Word
  /-- Number of payload registers (R293). -/
  n : Nat
  /-- Register budget (R293). -/
  budget : Nat
  /-- Ordering epoch (R293). -/
  epoch : Nat
  /-- ORIGIN: spawning core's COREID and lane. -/
  coreid : Nat
  /-- Spawning lane. -/
  lane : Nat
  /-- Cycle of its arrival (R296). -/
  arrived : Nat
  deriving DecidableEq, Repr

/-- A spawned child on its way to a core (R292, R321). -/
structure Child where
  /-- The core it travels to. -/
  core : Nat
  /-- Its entry. -/
  entry : Kindle
  /-- Flue link directions it has still to cross, next one first (R319). -/
  hops : List Nat
  /-- The cycle in which it left its parent's core, its age on the Flue (R321). -/
  sent : Nat
  /-- WID of the warp that sent it: its entries reach a core in their order (R292). -/
  wid : Word
  deriving DecidableEq, Repr

/-- Slots and registers that spilling or eviction freed and that wait for a group to form (R296). -/
structure Hold where
  /-- Launch of the group. -/
  launch : Nat
  /-- Entry of the group. -/
  entry : Word
  /-- Budget of the group. -/
  budget : Nat
  /-- Payload count of the group. -/
  n : Nat
  /-- Epoch of the group. -/
  epoch : Nat
  /-- Slots held. -/
  slots : Nat
  /-- Registers held. -/
  regs : Nat
  deriving DecidableEq, Repr

/-- An instruction that a core issued in a cycle (R33, R37). -/
structure Issue where
  /-- The cycle, as CLOCK counts. -/
  cycle : Nat
  /-- Slot of the warp. -/
  slot : Nat
  /-- Whether it went to a uniform pipe (R31). -/
  uni : Bool
  /-- Whether it was a command for the engine command port (R33). -/
  command : Bool
  deriving DecidableEq, Repr

/-- A line of a core's L1 data cache (R218). -/
structure L1Line where
  /-- Number of the 256-byte line (R218). -/
  line : Nat
  /-- Its bytes, from offset 0. -/
  bytes : Memory
  /-- Whether an access with .ef brought it: it is replaced first (R218). -/
  first : Bool
  /-- The offsets and lengths of the core's own stores since it was brought, newest first, without those that a later one
  covers (R218, R228). -/
  own : List (Nat × Nat)
  deriving DecidableEq, Repr

/-- A translation-cache entry (R214, R215): address space, generation, page start and size, physical page, rights. -/
structure TlbEntry where
  /-- Address space. -/
  asid : Nat
  /-- Generation of the address space (R216). -/
  gen : BitVec 16
  /-- First virtual address of the page. -/
  va : Nat
  /-- Page size in bytes. -/
  size : Nat
  /-- First physical address of the page. -/
  pa : Nat
  /-- Read right. -/
  r : Bool
  /-- Write right. -/
  w : Bool
  /-- Execute right. -/
  x : Bool
  deriving DecidableEq, Repr

/-- A tag-table slot (R150): present in the table when valid, with its tag. -/
abbrev TagMap := AMap (BitVec 36)

/-- A core and its engines. -/
structure Core where
  /-- The warps by slot, 0 to 47, and the Hearth context at 48 (R20, R26, 02_execution_model.md; reset free); from 64
  up the evicted warps (R298, R299, 15_spawn.md; reset none). -/
  warps : AMap Warp
  /-- The resident blocks by number (R24, 02_execution_model.md; reset none). -/
  blocks : AMap Block
  /-- Number of the core's next block; model's own; reset 0. -/
  nextBlock : Nat
  /-- Scratchpad, 1 MiB (R17, R220, 10_memory_spaces.md; reset DESIGN CHOICE 0, log 3). -/
  spad : Memory
  /-- Poisoned 64-byte scratchpad granules (R393; reset none). -/
  spadPoison : List Nat
  /-- Owning launch of each 4 KiB scratchpad unit that is held (R220, 10_memory_spaces.md; reset none). -/
  units : AMap Nat
  /-- Tags of the valid tag-table slots (R150, 07_lane_data.md; 36 bits; reset: DESIGN CHOICE none valid, log 2). -/
  tags : TagMap
  /-- Replacement pointers of the 256 sets (R150, 07_lane_data.md; 3 bits; reset DESIGN CHOICE 0, log 2). -/
  tagPtr : AMap Nat
  /-- The 64 route counters (R151, R289, 14_riddle_sort.md; 32 bits; reset 0). -/
  routes : AMap (BitVec 32)
  /-- a0–a7: element 16384·tile + 128·row + column (R44, R223, 03_thread_state.md; 32 bits; reset DESIGN CHOICE 0, log 3). -/
  acc : AMap (BitVec 32)
  /-- Poisoned tile rows, 128·tile + row (R393; reset none). -/
  accPoison : List Nat
  /-- Scale memory, 64 KiB (R223, 10_memory_spaces.md; reset DESIGN CHOICE 0, log 3). -/
  scale : Memory
  /-- Poison of the scale memory (R393; reset false). -/
  scalePoison : Bool
  /-- Activation-table bank 0 (R130, 06_lane_arithmetic.md; 32,896 B; reset DESIGN CHOICE 0, log 3). -/
  bank0 : Memory
  /-- Activation-table bank 1 (R130, 06_lane_arithmetic.md; 32,896 B; reset DESIGN CHOICE 0, log 3). -/
  bank1 : Memory
  /-- Poison of banks 0 and 1 (R393; reset false). -/
  bankPoison0 : Bool
  /-- Poison of bank 1 (R393; reset false). -/
  bankPoison1 : Bool
  /-- TABBANK, CSR 0x060 (R58, 03_thread_state.md; 1 bit; reset DESIGN CHOICE 0, log 2). -/
  tabBank : Bool
  /-- Matrix sequence counter (R193, 09_engine_commands.md; 16 bits; reset 0). -/
  mseq : BitVec 16
  /-- Queued matrix commands, oldest first, at most 16 (R187, R193, 09_engine_commands.md; reset empty). -/
  mqueue : List MatCmd
  /-- Governing WLOAD at the port: format, scale format, WSOFF (R384, 19_instruction_faults.md; reset none). -/
  govern : Option Latch
  /-- Active weight latch (R267, 13_matrix_engine.md; reset none latched, R401). -/
  latchA : Option Latch
  /-- Shadow weight latch, filled by WLOAD and not yet exchanged (R267, 13_matrix_engine.md; reset none). -/
  latchS : Option Latch
  /-- Failed matrix commands not yet reported (R401; reset none). -/
  matFailed : List FailedOp
  /-- MXFLAGS, CSR 0x1F0 (R273, 13_matrix_engine.md; 40 bits; reset 0). -/
  mxflags : BitVec 40
  /-- The Riddle array with SORTPROG, CSR 0x050 (R277, R283, R59; reset IDLE, phase 0, step 0). -/
  riddle : Riddle
  /-- Queued Riddle commands, oldest first (R187; reset empty). -/
  rqueue : List SortCmd
  /-- Number of Riddle commands issued; model's own; reset 0. -/
  rIssued : Nat
  /-- Failed Riddle commands not yet reported (R386; reset none). -/
  sortFailed : List FailedOp
  /-- The 16 token channels, oldest token first (R184, 08_uniform_control.md; 8 tokens of 64 bits; reset empty: DESIGN CHOICE log 2). -/
  tokens : AMap (List Word)
  /-- Waiting VTOKs by channel: slot and k register, in issue order (R184; reset empty). -/
  vtoks : AMap (List (Nat × Nat))
  /-- Queued copy commands in issue order (R187; reset empty). -/
  copyq : List CopyCmd
  /-- Queued stack-engine commands in issue order (R187; reset empty). -/
  stackq : List StackCmd
  /-- Kindling queue, oldest first, at most 2,048 entries (R294, 15_spawn.md; reset empty). -/
  kindling : List Kindle
  /-- Overflow slice entries, oldest first (R294, R295, 15_spawn.md; reset empty). -/
  overflow : List Kindle
  /-- Index of the next entry in each launch's overflow slice, a ring (R295, 15_spawn.md; reset 0). -/
  ovfTail : AMap Nat
  /-- What R296 holds for groups until they form (15_spawn.md; reset none). -/
  hold : List Hold
  /-- What the core has issued in the cycle that CLOCK counts now (R33, R37, 02_execution_model.md; reset none). -/
  issuedNow : List Issue
  /-- Launches that have had a warp on the core (R150, 07_lane_data.md; reset none). -/
  admitted : List Nat
  /-- Child-warp serial number of each launch (R23, R297; reset 0). -/
  childSerial : AMap Nat
  /-- The cycle in which the Bellows last formed a warp (R296, 15_spawn.md; reset none). -/
  formedAt : Option Nat
  /-- Since when the core has been deadlocked on spawn, in ns (R404, 20_memory_engine_faults.md; reset none). -/
  deadlockSince : Option Nat
  /-- L1 data cache lines (R218, 10_memory_spaces.md; reset empty: DESIGN CHOICE log 2). -/
  l1 : List L1Line
  /-- Translation cache, at most 128 entries (R214, 10_memory_spaces.md; reset empty: DESIGN CHOICE log 2). -/
  tlb : List TlbEntry
  /-- Whether the core is removed from admission (R436, 23_system_failures.md; reset false). -/
  removed : Bool
  /-- Times in ns of the core's HWERR 2 (R436, 23_system_failures.md; reset none). -/
  hwerr2 : List Nat
  /-- Poison found in the core's tag table, counters or queue (R393; reset false). -/
  tablesBad : Bool
  deriving DecidableEq, Repr

/-- A core right after module reset. -/
def Core.reset : Core where
  warps := []
  blocks := []
  nextBlock := 0
  spad := []
  spadPoison := []
  units := []
  tags := []
  tagPtr := []
  routes := []
  acc := []
  accPoison := []
  scale := []
  scalePoison := false
  bank0 := []
  bank1 := []
  bankPoison0 := false
  bankPoison1 := false
  tabBank := false
  mseq := 0
  mqueue := []
  govern := none
  latchA := none
  latchS := none
  matFailed := []
  mxflags := 0
  riddle := Riddle.idle
  rqueue := []
  rIssued := 0
  sortFailed := []
  tokens := []
  vtoks := []
  copyq := []
  stackq := []
  kindling := []
  overflow := []
  ovfTail := []
  hold := []
  issuedNow := []
  admitted := []
  childSerial := []
  formedAt := none
  deadlockSince := none
  l1 := []
  tlb := []
  removed := false
  hwerr2 := []
  tablesBad := false

/-- A dispatch packet (R310): eight 64-bit words. -/
abbrev Packet := List Word

/-- A packet in a mailbox or on its way to it, with the launch it serves (0 when the Hearth named none) and its sender:
0 the die's own walker, 1 its dependence unit, 2 a remote sender (R309). -/
structure Mail where
  /-- The launch it serves, 0 when the Hearth named none. -/
  launch : Nat
  /-- Its sender: 0, 1 or 2. -/
  sender : Nat
  /-- The packet (R310). -/
  words : Packet
  /-- Flue link directions it has still to cross, next one first (R319, R321); none once it has reached its die. -/
  hops : List Nat
  /-- The cycle in which it left its sender, its age on the Flue (R321). -/
  sent : Nat
  /-- Die whose Hearth stalls in MBFWD until this packet has left in a slot (R207). -/
  fwd : Option Nat
  deriving DecidableEq, Repr

/-- A packet in the Hearth area (R308, R311). -/
structure HeldPacket where
  /-- The packet. -/
  mail : Mail
  /-- Whether no core of its group admitted it and no warp of the group has retired since (R311). -/
  tried : Bool
  deriving DecidableEq, Repr

/-- Who asks for a shared place in a mailbox (R309). -/
inductive PlaceReq where
  /-- The walker of a die for a launch. -/
  | walker (die launch : Nat)
  /-- The dependence unit of the die itself. -/
  | unit
  /-- The Hearth of a die, for an MBFWD of a launch's packet. -/
  | hearth (die launch : Nat)
  deriving DecidableEq, Repr

/-- A record that a walker or the Stoker is listing in the fault list (R407, R408, R444): what it decided when it read the
record stands while it waits for a page. -/
structure Listing where
  /-- The record's index. -/
  t : Nat
  /-- Whether the walker met it in a retry pass. -/
  retry : Bool
  /-- INFO.CAUSE (R407). -/
  cause : Nat
  /-- The state word as read. -/
  sword : Nat
  /-- The slot that COUNT has returned, once it is raised (R408). -/
  slot : Option Nat
  deriving DecidableEq, Repr

/-- A tile whose block an HWERR has ended (R396, R411): its warps are discarded, and its record is still to be marked and
listed. -/
structure Faulting where
  /-- The record's index. -/
  t : Nat
  /-- Die on which the block ran. -/
  die : Nat
  /-- The listing, once the record reads FAULTED. -/
  listing : Option Listing
  deriving DecidableEq, Repr

/-- The walker of one die for one launch (R252–R254, R407–R415). -/
structure Walker where
  /-- Rank of its die in the rectangle (R252). -/
  rank : Nat
  /-- Whether it has read the header's structures (R252, R415), and from them: the walked tensor's descriptor and its
  placement table. -/
  ready : Bool
  /-- The walked tensor's descriptor address. -/
  desc : Word
  /-- Its placement table's address. -/
  ptab : Nat
  /-- Its range, and the next index in it. -/
  first : Nat
  /-- End of its range. -/
  stop : Nat
  /-- The next index in it. -/
  next : Nat
  /-- Retry list, oldest first (R254). -/
  retry : List Nat
  /-- Entries of the current retry pass still to handle, whether the pass has claimed, and when it ended in ns. -/
  pass : List Nat
  /-- Whether the pass has claimed a record (R254). -/
  claimed : Bool
  /-- When the last pass ended, in ns. -/
  pausedAt : Option Nat
  /-- Indices met under the policy and passed over, and indices claimed and not yet DONE (R414). -/
  met : List Nat
  /-- Indices claimed and not yet DONE. -/
  claims : List Nat
  /-- When each MIGRATING record was first read, in ns (R412). -/
  migSince : AMap Nat
  /-- A claimed record's packet that waits for a place in a die's mailbox, and that die (R309). -/
  out : Option (Nat × Packet)
  /-- The listing of a record that is under way (R408, R444). -/
  listing : Option Listing
  /-- Whether it has learned of a stop under STOP (R410). -/
  stopKnown : Bool
  /-- Address whose V = 0 the walker waits on (R444). -/
  waiting : Option Word
  deriving DecidableEq, Repr

/-- One Chimney channel (R322, R323): armed count, level, arrivals of the phase, phase, launch. -/
structure Channel where
  /-- The launch that armed it (R322). -/
  launch : Nat
  /-- Arrivals a phase needs (R322). -/
  need : Nat
  /-- Whether it is module-level (R322). -/
  module : Bool
  /-- Arrivals of the phase so far (R323). -/
  count : Nat
  /-- The phase (R323). -/
  phase : Nat
  deriving DecidableEq, Repr

/-- A die's telemetry block (R347). -/
structure Telemetry where
  /-- TIME of the sample (R347; 64 bits). -/
  time : Word
  /-- Core clock in MHz (R347; 32 bits). -/
  mhz : BitVec 32
  /-- Power of the die (R347; 32 bits). -/
  power : BitVec 32
  /-- Hottest sensor (R347; 32 bits). -/
  hot : BitVec 32
  /-- HBM temperature (R347; 32 bits). -/
  hbm : BitVec 32
  /-- Rejected requests since reset (R347; 32 bits). -/
  reject : BitVec 32
  deriving DecidableEq, Repr

/-- A die. -/
structure Die where
  /-- Hearth mailbox, oldest packet first, at most 256 (R309, 16_dies_and_scheduling.md; reset empty). -/
  mailbox : List Mail
  /-- Packets on their way to the mailbox, oldest first; each has its place reserved (R309; reset empty). -/
  incoming : List Mail
  /-- Requests for a shared place in the mailbox that found none, oldest first, which R309 serves in that order
  (16_dies_and_scheduling.md; reset empty). -/
  placeQueue : List PlaceReq
  /-- Packets that the Hearth has received and not yet started, which it keeps in its Hearth area: 1 MiB of device
  memory in channel group 0 that no address space maps, 16,384 packets of 64 B (R308, R311; reset empty). -/
  pending : List HeldPacket
  /-- The model's own: whether the Hearth context runs the dispatcher that boot loads, whose effect R311 gives and whose
  code no rule gives (log 107); reset true. -/
  dispatcher : Bool
  /-- The Chimney channels 0 to 15 that are armed (R322, 16_dies_and_scheduling.md; reset none armed). -/
  chimney : AMap Channel
  /-- The die's shared translation cache, at most 8,192 entries (R214; reset empty: DESIGN CHOICE log 2). -/
  tlb : List TlbEntry
  /-- Rejected requests since reset (R392, R347; 32 bits; reset 0). -/
  reject : BitVec 32
  /-- The die's telemetry block (R347, 17_platform.md; reset DESIGN CHOICE 0, log 2). -/
  telemetry : Telemetry
  /-- Whether the die is isolated (R437, 23_system_failures.md; reset false). -/
  isolated : Bool
  /-- Whether the die has fenced itself (R439; reset false). -/
  fenced : Bool
  /-- Poison in the mailbox (R393; reset false). -/
  mailboxBad : Bool
  /-- Address spaces that had a rejection event this millisecond, with its time in ns (R392; reset none). -/
  rejectAt : AMap Nat
  /-- JOINW registrations at the die's memory side: the count in use, of 4,096 (R302, R405; reset 0). -/
  waiters : Nat
  /-- Whether a reset of the die waits for launches on it to stop (R397; reset false). -/
  resetDue : Bool
  deriving DecidableEq, Repr

/-- A die right after module reset. -/
def Die.reset : Die where
  mailbox := []
  incoming := []
  placeQueue := []
  pending := []
  dispatcher := true
  chimney := []
  tlb := []
  reject := 0
  telemetry := ⟨0, 0, 0, 0, 0, 0⟩
  isolated := false
  fenced := false
  mailboxBad := false
  rejectAt := []
  waiters := 0
  resetDue := false

/-- An ordered-add contribution (R148, R182, R241). -/
structure Contrib where
  /-- Ordering epoch (R182). -/
  epoch : Nat
  /-- WID of the contributing warp (R148). -/
  wid : Word
  /-- Its index in the block. -/
  idx : Nat
  /-- The lane. -/
  lane : Nat
  /-- The lane's issue order (R148). -/
  order : Nat
  /-- Physical address it adds to. -/
  pa : Nat
  /-- Element type (R148). -/
  ty : Nat
  /-- The value added. -/
  val : Word
  deriving DecidableEq, Repr

/-- An unfinished task of a launch (R312–R314). -/
structure Task where
  /-- The handle TSUBMIT wrote (R312). -/
  handle : BitVec 32
  /-- Its dispatch packet (R310). -/
  packet : Packet
  /-- Unfinished tasks it depends on. -/
  preds : List (BitVec 32)
  /-- The used range words (R312). -/
  ranges : List Word
  /-- Die whose dependence unit holds it. -/
  die : Nat
  /-- Its place among all tasks in the order in which they became ready, once it is (R314). -/
  stamp : Nat
  deriving DecidableEq, Repr

/-- Where a launch stands (R329, R330, R372, R410). -/
inductive Phase where
  | reserved
  | committed
  | running
  /-- Its engines are stopped and its state is being saved (R331). -/
  | stopping
  /-- Saved by the Damper; waits for its rectangle (R330, R333). -/
  | saved
  deriving DecidableEq, Repr

/-- The record of a trap that reached the Stoker (R372, R443). -/
structure TrapRec where
  /-- ADDR of the record (R372): the instruction. -/
  addr : Word
  /-- COREID (R59). -/
  coreid : Nat
  /-- DETAIL0. -/
  d0 : BitVec 32
  /-- DETAIL1. -/
  d1 : BitVec 32
  /-- DETAIL2. -/
  d2 : BitVec 32
  /-- The lanes. -/
  mask : LaneMask
  /-- Group and access of TCAUSE (R355). -/
  cause : BitVec 7
  /-- Warp slot. -/
  slot : Nat
  /-- WARPID.IDX. -/
  idx : Nat
  /-- FLAGS of the record (R372). -/
  flags : BitVec 8
  deriving DecidableEq, Repr

/-- A launch header as the Stoker read it (R244, R315, R316). -/
structure Header where
  /-- Address of the header (R244). -/
  addr : Word
  /-- KIND (R244). -/
  kind : Nat
  /-- WARPS (R244). -/
  warps : Nat
  /-- BUDGET (R244). -/
  budget : Nat
  /-- SPAD (R244). -/
  spad : Nat
  /-- TAG (R244). -/
  tag : BitVec 32
  /-- ENTRY (R244). -/
  entry : Word
  /-- WIDFMT (R21, R244). -/
  widfmt : Word
  /-- SPILL (R244, R246). -/
  spill : Word
  /-- SPILLSZ (R244). -/
  spillsz : Word
  /-- TTAB (R244, R245). -/
  ttab : Word
  /-- WALK (R244). -/
  walk : Word
  /-- RESUME (R244, R259). -/
  resume : Word
  /-- FAULTLIST (R244, R408). -/
  faultlist : Word
  /-- T of SPLIT (R252). -/
  splitT : Nat
  /-- I of SPLIT. -/
  splitI : Nat
  /-- G of SPLIT. -/
  splitG : Nat
  /-- FIXUP (R244). -/
  fixup : Word
  /-- INIT, the initial-task range's address (R315). -/
  init : Word
  /-- Number of initial tasks (R315). -/
  ninit : Nat
  /-- Number of gang sets (R316). -/
  gsets : Nat
  /-- Roles of a gang: entry, kind, budget, group count (R316). -/
  roles : List (Word × Nat × Nat × Nat)
  /-- WINDOW, the frame size at warp start (R45, R244). -/
  window : Nat
  /-- TVDEF, the reset value of TVEC (R353, R244). -/
  tvdef : Word
  /-- Number of spill areas (R246). -/
  spilln : Nat
  deriving DecidableEq, Repr

/-- A header whose fields are 0. -/
def Header.zero : Header where
  addr := 0
  kind := 0
  warps := 0
  budget := 0
  spad := 0
  tag := 0
  entry := 0
  widfmt := 0
  spill := 0
  spillsz := 0
  ttab := 0
  walk := 0
  resume := 0
  faultlist := 0
  splitT := 0
  splitI := 0
  splitG := 0
  fixup := 0
  init := 0
  ninit := 0
  gsets := 0
  roles := []
  window := 0
  tvdef := 0
  spilln := 0

/-- What the Damper saves of one core for a launch (R332): the core as it stood, restricted to the launch. -/
structure SavedCore where
  /-- Number of the core. -/
  core : Nat
  /-- What stood there for the launch. -/
  content : Core
  deriving DecidableEq, Repr

/-- A launch known to the active Stoker. -/
structure Launch where
  /-- The queue its LAUNCH came from (R326). -/
  queue : Nat
  /-- Hardware slot of the queue when the launch was reserved, and the queue's priority (R310). -/
  hwSlot : Nat
  /-- Packet number of the LAUNCH (R325), and the packet's running byte offset and header word (R425). -/
  num : Nat
  /-- Running byte offset of the packet's header word (R425). -/
  off : BitVec 32
  /-- The packet's header word (R425). -/
  word : BitVec 32
  /-- Its address space (R210). -/
  asid : Nat
  /-- Generation of the address space at its start (R216; 16 bits). -/
  gen : BitVec 16
  /-- The queue's priority at reservation (R310). -/
  prio : Nat
  /-- The header as read at start (R244). -/
  hdr : Header
  /-- Device memory as instruction fetch sees it: as it stood when the launch started (R87, R210). -/
  code : Memory
  /-- Dies of the rectangle in increasing number; the position is the rank (R252). -/
  dies : List Nat
  /-- ENG of the LAUNCH packet (R327). -/
  eng : Bool
  /-- FLUE schedule address and LMASK, when the packet has the field (R319). -/
  flue : Option (Word × BitVec 64)
  /-- The schedule block's bytes as they were checked in Reserve (R320); empty without the field. -/
  schedule : List Byte
  /-- The CHIM field: 16 words (R322). -/
  chim : List (BitVec 32)
  /-- KOVF base of the packet (R294). -/
  kovf : Word
  /-- KOVF size of the packet (R294). -/
  kovfSize : Nat
  /-- SAVE base of the packet (R332). -/
  save : Word
  /-- SAVE size of the packet (R332). -/
  saveSize : Nat
  /-- Where it stands. -/
  phase : Phase
  /-- Commit order among launches, for the choice of R330. -/
  order : Nat
  /-- Failures of the reservation so far, and since when it waits for the dies, in ns (R428). -/
  retries : Nat
  /-- Since when it waits for the dies, in ns (R428). -/
  reservedAt : Nat
  /-- When its Flue tables were last written to its dies, in the order of such writes (R320, R428). -/
  wroteAt : Nat
  /-- The Chimney tick of the commit (R329). -/
  tick : Nat
  /-- Persistent sets or workgroups reserved: number, core and first scratchpad unit (R317). -/
  sets : List (Nat × Nat × Nat)
  /-- Dies whose gang has started (R329). -/
  started : List Nat
  /-- The walkers by die (R252). -/
  walkers : AMap Walker
  /-- Pending blocks of each die, P(d) (R255). -/
  pend : AMap Nat
  /-- Tiles whose blocks have retired and await DONE: index, die (R258). -/
  dones : List (Nat × Nat)
  /-- Number of records of the walked tensor (R252). -/
  ntot : Nat
  /-- A stop under STOP (R410). -/
  walkStop : Bool
  /-- Record indices already in the fault list (R408). -/
  listed : List Nat
  /-- COUNT at the last WALKFAULT event and its time in ns (R409). -/
  faultsPosted : Nat
  /-- Time in ns of the last WALKFAULT event (R409). -/
  faultPostAt : Nat
  /-- Tiles to discard for an HWERR under SKIP or WAIT: core, block (R396). -/
  discards : List (Nat × Nat)
  /-- The tile that the Stoker is marking and listing for an HWERR (R396, R411). -/
  faulting : Option Faulting
  /-- Unfinished tasks in the order of their submission (R312). -/
  tasks : List Task
  /-- Ready tasks that the dependence unit has not delivered, in the order in which they became ready (R314). -/
  ready : List (BitVec 32)
  /-- The handle the next TSUBMIT writes (R312; 32 bits). -/
  nextHandle : BitVec 32
  /-- Ordered-add contributions not yet applied (R182, R241). -/
  contribs : List Contrib
  /-- Epochs applied so far (R182). -/
  epochsDone : Nat
  /-- Spill areas in use, by area number (R246). -/
  areas : List Nat
  /-- The trap that reached the Stoker first (R373). -/
  trap : Option TrapRec
  /-- The cycle in which it did (R373). -/
  trapAt : Nat
  /-- Whether an ABORT stops it, without a record (R432). -/
  aborted : Bool
  /-- The LAUNCH for which it was pre-empted: its queue and its packet number (R330). -/
  yields : Option (Nat × Nat)
  /-- Whether it is a resumed launch whose dies re-enable their warps at a commit tick (R333). -/
  resumed : Bool
  /-- Address whose V = 0 the distributor or the Stoker waits on for this launch (R445). -/
  waiting : Option Word
  /-- Whether the write of the resume cursor has failed after the last block had retired (R445). -/
  failed : Bool
  /-- What the Damper saved (R332). -/
  savedCores : List SavedCore
  /-- Packets the Damper saved, by die: those of the mailbox ahead of those that the Hearth held (R331, R332). -/
  savedPending : AMap (List Mail)
  /-- Chimney channels the Damper saved, by die (R332). -/
  savedChimney : AMap (AMap Channel)
  deriving DecidableEq, Repr

/-- A packet that has started and not completed (R326). -/
structure Started where
  /-- Packet number (R325). -/
  num : Nat
  /-- Packet type (R326). -/
  type : Nat
  /-- Whether its header asks for a COMPLETE event (R326, R429). -/
  event : Bool
  /-- Its words. -/
  body : List Word
  /-- The launch number of a LAUNCH. -/
  launch : Nat
  /-- Running byte offset of its header, and the header word (R425). -/
  off : BitVec 32
  /-- Its header word (R425). -/
  word : BitVec 32
  /-- For an XFER: its bytes have left for the other module (R339). -/
  sent : Bool
  /-- For an INVAL: dies that have not confirmed it yet (R215, R397). -/
  unconfirmed : List Nat
  deriving DecidableEq, Repr

/-- An ABORT on a queue whose launches have still to stop (R432): the record that the queue then gets. -/
structure Aborting where
  /-- Packet number of the record (R425). -/
  num : Nat
  /-- Running byte offset of that packet's header. -/
  off : BitVec 32
  /-- Its header word. -/
  word : BitVec 32
  /-- Whether a QUEUE packet destroys the queue (R432). -/
  remove : Bool
  deriving DecidableEq, Repr

/-- A software queue (R324, R325, R420–R432). -/
structure Queue where
  /-- PA of the packet ring (R325). -/
  ring : Nat
  /-- Size of the ring in bytes. -/
  size : Nat
  /-- Priority level 0 to 7 (R324). -/
  prio : Nat
  /-- PA of the status block (R325). -/
  status : Nat
  /-- PA of the event ring (R325). -/
  evring : Nat
  /-- Size of the event ring in bytes. -/
  evsize : Nat
  /-- Aging interval in microseconds (R328). -/
  ageus : Nat
  /-- Address space of its packets (R324). -/
  asid : Nat
  /-- Write offset, event read offset, read index, event write offset: running byte counts modulo 2³² (R420, R429). -/
  wr : BitVec 32
  /-- Event read offset of the last event doorbell (R429; 32 bits). -/
  evr : BitVec 32
  /-- Read index RIDX (R325; 32 bits). -/
  ridx : BitVec 32
  /-- Event write offset EVW (R325; 32 bits). -/
  evw : BitVec 32
  /-- Events lost, EVLOST (R429; 32 bits). -/
  evlost : BitVec 32
  /-- Number of the next packet to start, and packets completed out of order above DONE (R325). -/
  next : Nat
  /-- DONE: the number up to which all packets have completed (R325; 64 bits). -/
  doneNum : Word
  /-- Packets completed out of order above DONE. -/
  doneSet : List Nat
  /-- Packets started and not completed, in order (R326). -/
  started : List Started
  /-- QSTATE.STATE: 0 idle, 1 mapped, 2 waiting, 3 error (R424). -/
  state : Nat
  /-- Hardware slot while mapped, and since when in ns (R328). -/
  slot : Option Nat
  /-- Since when it is mapped, in ns (R328). -/
  mappedAt : Nat
  /-- Since when it waits, in ns, and whole aging intervals counted (R328). -/
  waitAt : Nat
  /-- Whole aging intervals counted (R328). -/
  aged : Nat
  /-- NEWRIDX and NEWNUM registers (R430); reset DESIGN CHOICE 0, log 2. -/
  newridx : BitVec 32
  /-- NEWNUM register (R430); reset DESIGN CHOICE 0, log 2. -/
  newnum : Word
  /-- A RESTART that is held until started packets complete (R431). -/
  restart : Bool
  /-- Bytes 32 to 63 of the status block, the record of the error that the queue is in, as its state-table entry keeps
  them (R425, R427). -/
  record : List Byte
  /-- An ABORT whose stopped packets have not all completed (R432). -/
  abort : Option Aborting
  deriving DecidableEq, Repr

/-- An address space (R210, R216): its root and whether it exists; the generation outlives a destroy. -/
structure Aspace where
  /-- Whether it exists (R327). -/
  live : Bool
  /-- PA of its root table (R211). -/
  root : Nat
  /-- Generation (R216; 16 bits). -/
  gen : BitVec 16
  deriving DecidableEq, Repr

/-- One link direction of the Flue (R318, R434, R435). -/
structure FlueDir where
  /-- Lanes 0 to 33 that have failed and that a spare has replaced; the first 32 of the others carry flits (R434). -/
  failed : List Nat
  /-- Lanes that have failed in this frame, which spares replace at the next one (R434). -/
  due : List Nat
  /-- CRC failures in the frame by lane (R434). -/
  errors : AMap Nat
  /-- Failed replays in a row (R435). -/
  replays : Nat
  /-- When the lanes were last calibrated, in ns (R345). -/
  calibrated : Option Nat
  /-- Whether the link direction is lost (R435). -/
  lost : Bool
  /-- Slot table: the stream of each scheduled slot (R319). -/
  slots : AMap Nat
  deriving DecidableEq, Repr

/-- A link direction after module reset: no lane has failed, and every slot is best-effort (R318, R319, R434). -/
def FlueDir.fresh : FlueDir where
  failed := []
  due := []
  errors := []
  replays := 0
  calibrated := none
  lost := false
  slots := []

/-- A flash bank of one image kind (R344): the active image and a staged one with whether it verified. -/
structure Flash where
  /-- The active image. -/
  active : List Byte
  /-- The staged image and whether it verified. -/
  staged : Option (List Byte)
  deriving DecidableEq, Repr

/-- A choice of what moves next: a ready warp, or an agent's step or an input from outside. -/
inductive Choice where
  | issue (core slot : Nat)
  | act (i : Instr)
  deriving DecidableEq, Repr

/-- An Eslyn transfer sent to another module (R339): domain, ASID, remote address, bytes. -/
structure Outbound where
  /-- Domain it goes to (R338). -/
  domain : Nat
  /-- Remote address space. -/
  asid : Nat
  /-- Remote address. -/
  va : Word
  /-- The bytes: one unit of 256 (R338). -/
  data : List Byte
  /-- The Eslyn port it leaves through (R338). -/
  port : Nat
  /-- Queue and packet number of its XFER, which is in flight until that packet completes (R339, R441). -/
  queue : Nat
  /-- Packet number of its XFER. -/
  num : Nat
  deriving DecidableEq, Repr

/-- The module. -/
structure State where
  /-- The model's own: choices still to be made by the outside and by the agents' timing, first one next (log 1); reset empty: DESIGN CHOICE. -/
  schedule : List Choice
  /-- The model's own: the core and slot whose warp issues (log 1); core 192·die + in-die number; reset 0, 0: DESIGN CHOICE. -/
  curCore : Nat
  /-- The model's own: the slot of curCore whose warp issues (log 1); reset 0: DESIGN CHOICE. -/
  curSlot : Nat
  /-- The model's own: core and slot of warps whose issue stalled since the last step that did anything else (log 20);
  reset empty: DESIGN CHOICE. -/
  stalled : List (Nat × Nat)
  /-- The model's own: counter that free values are drawn with (log 11); reset 0: DESIGN CHOICE. -/
  freeCtr : Nat
  /-- The model's own: number of steps taken, with which the clocks' free advances are drawn (log 8); reset 0: DESIGN CHOICE. -/
  steps : Nat
  /-- CLOCK, CSR 0x007: core cycles since module reset (R58, 03_thread_state.md; 64 bits; reset 0). -/
  clock : Nat
  /-- TIME, CSR 0x008: nanoseconds since module reset (R58, 03_thread_state.md; 64 bits; reset 0). -/
  time : Nat
  /-- Device memory by physical address, region 00 (R209, 10_memory_spaces.md; 1 TiB; reset 0, R340). -/
  mem : Memory
  /-- Poisoned 64-byte granules of device memory, by PA / 64 (R393; reset none). -/
  memPoison : List Nat
  /-- Poisoned granules of die-cache lines that differ from HBM, by PA / 64, until a write-back brings the poison to HBM
  (R393, R395; reset none). The die caches hold nothing else that a program could tell from device memory (R218,
  log 111). -/
  dirtyPoison : List Nat
  /-- Writes that left through the host ports to regions 01 and 10, oldest first: PA and bytes (R219, R337; at
  reset the status block of queue 0, R340). -/
  busWrites : List (Nat × List Byte)
  /-- The cores by global number 192·die + in-die number (R9, 01_device.md; reset Core.reset, with the Hearth context of each die on its core 0, R26, R340). -/
  cores : AMap Core
  /-- The dies 0 to 7 (R8, 01_device.md; reset Die.reset). -/
  dies : AMap Die
  /-- Spawned children on their way to a core, oldest first: target core, entry and the Flue link directions still to
  cross (R292, R321; reset none). -/
  travel : List Child
  /-- The launches by number (R329; reset none). -/
  launches : AMap Launch
  /-- Number of the next launch and of the next commit; model's own; reset 1. -/
  nextLaunch : Nat
  /-- Number of the next commit; model's own; reset 1. -/
  nextOrder : Nat
  /-- Number of the next task to become ready (R314); model's own; reset 0. -/
  nextStamp : Nat
  /-- The software queues by number (R324; reset queue 0 at priority 7, R340). -/
  queues : AMap Queue
  /-- Round-robin position of each priority level (R328; reset DESIGN CHOICE 0, log 2). -/
  rrobin : AMap Nat
  /-- Address spaces by ASID (R210; reset none). -/
  aspaces : AMap Aspace
  /-- Address spaces whose generation the Stoker advances once no launch of them is running (R216, R397, R437; reset
  none). -/
  genDue : List Nat
  /-- Whether Stoker B is the active one (R15, R340; reset false, Stoker A). -/
  stokerB : Bool
  /-- Whether the standby Stoker is alive, and has booted and verified a staged image for a live update (R343, R440; reset true, false). -/
  standbyLive : Bool
  /-- Whether the standby Stoker has booted and verified a staged image for a live update (R343; reset false). -/
  standbyReady : Bool
  /-- Version of the Stokers' state tables, active and standby (R343; reset DESIGN CHOICE 0, log 2). -/
  verActive : Nat
  /-- Version of the standby Stoker's state tables (R343; reset DESIGN CHOICE 0, log 2). -/
  verStandby : Nat
  /-- BAR4 windows of the two ports, PA bases (R336, 17_platform.md; reset 0). -/
  window0 : Nat
  /-- BAR4 window of port 1, PA base (R336, 17_platform.md; reset 0). -/
  window1 : Nat
  /-- The Flue's link directions 0 to 19 (R318; reset no failed lane, not lost, every slot best-effort). -/
  flue : AMap FlueDir
  /-- Routing entries 8·source + destination to an output port, where they differ from the default (R319; reset none). -/
  routes : AMap Nat
  /-- Stream tables in use, by 256·die + stream (R319; reset none). -/
  streams : AMap Word
  /-- Flash banks by image kind 1 to 3 (R344; reset DESIGN CHOICE empty, log 2). -/
  flash : AMap Flash
  /-- Repair journal: COREIDs of failed cores (R436; reset DESIGN CHOICE empty, log 2). -/
  journal : List Nat
  /-- Images activated by kind and due at the next module controller or module reset (R344; reset none). -/
  activateDue : AMap (List Byte)
  /-- Configuration records activated since the last reset, which all apply at the next one (R341, R344; reset none). -/
  recordsDue : List (List Byte)
  /-- The configuration record that applies, by KIND 1 to 5 (R341; reset DESIGN CHOICE none, log 2). -/
  records : AMap (List Byte)
  /-- The images and records that boot has verified, for the SPDM measurements (R340, R342; reset DESIGN CHOICE none, log 2). -/
  measured : List (List Byte)
  /-- Eslyn ports lost, 0 to 19 (R441; reset none). -/
  eslynLost : List Nat
  /-- The module's domain number (R338, R341; 10 bits; reset DESIGN CHOICE 0, log 2). -/
  domain : Nat
  /-- Bytes handed to other modules, oldest first (R339; reset none). -/
  eslynOut : List Outbound
  /-- Core clock in MHz (R346, R17; reset 700). -/
  mhz : Nat
  /-- A clock change due at the next Chimney tick (R346; reset none). -/
  mhzNext : Option Nat
  /-- Power that the module draws, in mW, as last measured (R346; reset DESIGN CHOICE 0, log 2). -/
  power : Nat
  /-- Since when the power has stayed below 95 % of the limit, in ns (R346; reset 0). -/
  lowSince : Option Nat
  /-- Times in ns of the last clock step and of the last step up (R346; reset 0). -/
  stepAt : Nat
  /-- Time in ns of the last clock step up (R346; reset 0). -/
  upAt : Nat
  /-- MSI-X vectors signalled, oldest first: port-independent vector numbers (R335, R429; reset none). -/
  msix : List Nat
  /-- SPDM answers, oldest first (R342; reset none). -/
  spdmOut : List (List Byte)
  /-- Values that host reads through BAR4 returned, oldest first (R336; reset none). -/
  hostReads : List (List Byte)
  /-- Chimney ticks and Flue frames that have begun (R318, R322; reset 0). -/
  ticks : Nat
  /-- Flue frames that have begun (R318; reset 0). -/
  frames : Nat
  /-- Time in ns of the last scheduling rotation (R328; reset 0). -/
  rotatedAt : Nat
  deriving DecidableEq, Repr

/-- Queue 0 as boot creates it (R324, R340): priority 7. Its ring, status block and event ring are given by no rule: DESIGN
CHOICE (log 17): they lie in host memory, region 01, by die 0's port. -/
def Queue.admin : Queue where
  ring := 2 ^ 44 + 0x1000000
  size := 4096
  prio := 7
  status := 2 ^ 44 + 0x1001000
  evring := 2 ^ 44 + 0x1002000
  evsize := 4096
  ageus := 1000
  asid := 0
  wr := 0
  evr := 0
  ridx := 0
  evw := 0
  evlost := 0
  next := 0
  doneNum := 0xFFFFFFFFFFFFFFFF
  doneSet := []
  started := []
  state := 0
  slot := none
  mappedAt := 0
  waitAt := 0
  aged := 0
  newridx := 0
  newnum := 0
  restart := false
  record := []
  abort := none

/-- The status block that the creation of queue 0 writes at boot (R325, R340): DONE reads all ones. -/
def Queue.bootStatus : List Byte := List.replicate 8 0 ++ List.replicate 8 0xFF ++ List.replicate 48 0

/-- The Hearth context that boot loads on core 0 of a die (R26, R308, R340): 64 registers, running at the
dispatcher's entry. The entry address is free (Config.hearthEntry, log 10). -/
def Warp.hearthCtx (entry : Word) : Warp :=
  { Warp.free with status := .live, kind := .hearth, pc := entry, active := 0xFFFFFFFF, launchMask := 0xFFFFFFFF,
                   budget := 64, blockWarps := 1 }

/-- Core 0 of die d with the die's Hearth context (R26, R340). DESIGN CHOICE (log 126): the context is none of the 48 slots, and its
number, which WARPID.SLOT reads (R59), is 48. -/
def hearthCore (d : Nat) : Nat × Core :=
  (192 * d, { Core.reset with warps := [(48, Warp.hearthCtx (Config.hearthEntry d))] })

/-- The module right after reset, boot done (R4, R340). -/
def State.reset : State where
  schedule := []
  curCore := 0
  curSlot := 0
  stalled := []
  freeCtr := 0
  steps := 0
  clock := 0
  time := 0
  mem := []
  memPoison := []
  dirtyPoison := []
  busWrites := [(Queue.admin.status, Queue.bootStatus)]
  cores := (List.range 8).map hearthCore
  dies := []
  travel := []
  launches := []
  nextLaunch := 1
  nextOrder := 1
  nextStamp := 0
  queues := [(0, Queue.admin)]
  rrobin := []
  aspaces := []
  genDue := []
  stokerB := false
  standbyLive := true
  standbyReady := false
  verActive := 0
  verStandby := 0
  window0 := 0
  window1 := 0
  flue := []
  routes := []
  streams := []
  flash := []
  journal := []
  activateDue := []
  recordsDue := []
  records := []
  measured := []
  eslynLost := []
  domain := 0
  eslynOut := []
  mhz := 700
  mhzNext := none
  power := 0
  lowSince := some 0
  stepAt := 0
  upAt := 0
  msix := []
  spdmOut := []
  hostReads := []
  ticks := 0
  frames := 0
  rotatedAt := 0

end Sys2Proof.Machine
end

