-- ==== Sys2Proof/Machine/Table.lean ====
section
/-! DEFINITION. Reading and writing tables by number and memories in canonical form, with byte order decided once
(R87). -/
namespace Sys2Proof.Machine

/-- The entry a table lists under a number. -/
def AMap.find? {α : Type} : AMap α → Nat → Option α
  | [], _ => none
  | (k, v) :: t, i => if k = i then some v else AMap.find? t i

/-- The entry under a number, or the default for one the table does not list. -/
def AMap.get {α : Type} (d : α) (t : AMap α) (i : Nat) : α := (AMap.find? t i).getD d

/-- Write the entry under a number, keeping the order. -/
def AMap.set {α : Type} : AMap α → Nat → α → AMap α
  | [], i, v => [(i, v)]
  | (k, w) :: t, i, v => if i < k then (i, v) :: (k, w) :: t else if i = k then (i, v) :: t else (k, w) :: AMap.set t i v

/-- Remove the entry under a number. -/
def AMap.erase {α : Type} (t : AMap α) (i : Nat) : AMap α := t.filter fun e => e.1 ≠ i

/-- The byte an address holds. -/
def Memory.read : Memory → Nat → Byte
  | [], _ => 0
  | (k, v) :: t, a => if k = a then v else Memory.read t a

/-- Write one byte, keeping the canonical form: 0 is what an unlisted address reads as. -/
def Memory.write : Memory → Nat → Byte → Memory
  | [], a, b => if b = 0 then [] else [(a, b)]
  | (k, v) :: t, a, b =>
    if a < k then (if b = 0 then (k, v) :: t else (a, b) :: (k, v) :: t)
    else if a = k then (if b = 0 then t else (a, b) :: t)
    else (k, v) :: Memory.write t a b

/-- The canonical form: addresses strictly rising, and no byte 0 listed. -/
def Memory.wf : Memory → Bool
  | [] => true
  | [(_, v)] => decide (v ≠ 0)
  | (a, v) :: (b, w) :: t => decide (v ≠ 0) && decide (a < b) && Memory.wf ((b, w) :: t)

/-- The n bytes from an address upward. -/
def Memory.bytes (m : Memory) (a n : Nat) : List Byte := (List.range n).map fun i => m.read (a + i)

/-- Write bytes from an address upward. -/
def Memory.writeBytes (m : Memory) (a : Nat) : List Byte → Memory
  | [] => m
  | b :: bs => Memory.writeBytes (m.write a b) (a + 1) bs

/-- Bytes as a little-endian number (R87). -/
def leNat : List Byte → Nat
  | [] => 0
  | b :: bs => b.toNat + 256 * leNat bs

/-- A number as n little-endian bytes (R87). -/
def leBytes : Nat → Nat → List Byte
  | 0, _ => []
  | n + 1, x => BitVec.ofNat 8 x :: leBytes n (x / 256)

/-- The little-endian number in the n bytes at an address. -/
def Memory.readN (m : Memory) (a n : Nat) : Nat := leNat (m.bytes a n)

/-- Write the low n bytes of a number at an address, little-endian. -/
def Memory.writeN (m : Memory) (a n x : Nat) : Memory := m.writeBytes a (leBytes n x)

/-- The bytes listed from a up to a + n, rebased to start at 0. -/
def Memory.slice (m : Memory) (a n : Nat) : Memory :=
  (m.filter fun c => a ≤ c.1 && c.1 < a + n).map fun c => (c.1 - a, c.2)

/-- Replace the n bytes at a by a slice. -/
def Memory.paste (m : Memory) (a n : Nat) (src : Memory) : Memory :=
  (m.filter fun c => c.1 < a) ++ (src.filter fun c => c.1 < n).map (fun c => (a + c.1, c.2)) ++
    m.filter fun c => a + n ≤ c.1

/-- Field [hi:lo] of a number. -/
def bits (x hi lo : Nat) : Nat := (x >>> lo) % 2 ^ (hi + 1 - lo)

/-- Bit i of a number, as a Boolean. -/
def bit (x i : Nat) : Bool := x.testBit i

/-- A w-bit pattern as a signed integer (R63). -/
def toSigned (w x : Nat) : Int := if 2 * x < 2 ^ w then (x : Int) else (x : Int) - (2 : Int) ^ w

/-- An integer modulo 2^w (R64). -/
def modN (w : Nat) (x : Int) : Nat := (x % (2 : Int) ^ w).toNat

/-- SignExt(x, w) to 64 bits (R115). -/
def signExt (w x : Nat) : Word := BitVec.ofInt 64 (toSigned w (x % 2 ^ w))

/-- ZeroExt(x, w) to 64 bits (R115). -/
def zeroExt (w x : Nat) : Word := BitVec.ofNat 64 (x % 2 ^ w)

/-- The mask of the lanes a test selects. -/
def maskOf (f : Nat → Bool) : LaneMask :=
  (List.range 32).foldl (fun m i => if f i then m ||| BitVec.ofNat 32 (2 ^ i) else m) 0

/-- Whether a mask holds a lane. -/
def LaneMask.has (m : LaneMask) (l : Nat) : Bool := m.getLsbD l

/-- The lanes of a mask in increasing order. -/
def lanesOf (m : LaneMask) : List Nat := (List.range 32).filter fun l => m.getLsbD l

/-- Replace the lanes a mask selects. -/
def Lanes.merge (m : LaneMask) (new old : Lanes) : Lanes :=
  (List.range 32).map fun l => if m.getLsbD l then new.getD l 0 else old.getD l 0

/-- Lane l of a v register value. -/
def Lanes.at (v : Lanes) (l : Nat) : Word := v.getD l 0

/-- A v register value given lane by lane. -/
def Lanes.of (f : Nat → Word) : Lanes := (List.range 32).map f

end Sys2Proof.Machine
end

