-- ==== Sys2Proof/Machine/Formats.lean ====
section
/-! DEFINITION. Number formats: integers (R63, R64), floats (R65–R67), Q4X (R68–R71), scales (R72), rounding,
flushing and saturation (R73–R76). A float computation goes from patterns to exact values and back once. -/
namespace Sys2Proof.Machine

/-- Width in bits of a type code (R63, R65; 14 is q4x, R28). -/
def tyWidth (ty : Nat) : Nat :=
  if ty = 0 ∨ ty = 4 ∨ ty = 8 ∨ ty = 9 then 8
  else if ty = 1 ∨ ty = 5 ∨ ty = 10 ∨ ty = 11 then 16
  else if ty = 2 ∨ ty = 6 ∨ ty = 12 then 32
  else if ty = 14 then 4 else 64

/-- The types .s8 to .s64 (R63). -/
def tySigned (ty : Nat) : Bool := ty < 4

/-- The types .s8 to .n64 (R63). -/
def tyInt (ty : Nat) : Bool := ty < 8

/-- The six float types (R65). -/
def tyFloat (ty : Nat) : Bool := 8 ≤ ty && ty ≤ 13

/-- Sub-elements per lane, n = 64 / w (R28). -/
def tyCount (ty : Nat) : Nat := 64 / tyWidth ty

/-- Smallest and largest value of an integer type (R63). -/
def intMin (ty : Nat) : Int := if tySigned ty then -(2 : Int) ^ (tyWidth ty - 1) else 0
def intMax (ty : Nat) : Int := if tySigned ty then (2 : Int) ^ (tyWidth ty - 1) - 1 else (2 : Int) ^ tyWidth ty - 1

/-- A w-bit pattern read in an integer type; .b64 counts as .n64 (R63, R117). -/
def intVal (ty x : Nat) : Int := if tySigned ty then toSigned (tyWidth ty) x else (x : Int)

/-- Clamp to the range of a type (R64). -/
def clampTo (ty : Nat) (x : Int) : Int := if x < intMin ty then intMin ty else if intMax ty < x then intMax ty else x

/-- Fit(ty, x) as a w-bit pattern (R117). -/
def fit (ty : Nat) (sat : Bool) (x : Int) : Nat := modN (tyWidth ty) (if sat then clampTo ty x else x)

/-- Mantissa bits p of a float type (R65). -/
def fMan (ty : Nat) : Nat :=
  if ty = 13 then 52 else if ty = 12 then 23 else if ty = 10 then 10 else if ty = 11 then 7 else if ty = 8 then 3 else 2

/-- Exponent bits of a float type (R65). -/
def fExp (ty : Nat) : Nat :=
  if ty = 13 then 11 else if ty = 12 ∨ ty = 11 then 8 else if ty = 8 then 4 else 5

/-- Bias of a float type (R65). -/
def fBias (ty : Nat) : Int :=
  if ty = 13 then 1023 else if ty = 12 ∨ ty = 11 then 127 else if ty = 8 then 7 else 15

/-- Highest exponent field of finite values; F8A uses its all-ones exponent (R65, R66). -/
def fTop (ty : Nat) : Nat := if ty = 8 then 15 else 2 ^ fExp ty - 2

/-- Default NaN (R65). -/
def defaultNaN (ty : Nat) : Nat :=
  if ty = 13 then 0x7FF8000000000000 else if ty = 12 then 0x7FC00000 else if ty = 10 then 0x7E00
  else if ty = 11 then 0x7FC0 else if ty = 8 then 0x80 else 0x7E

/-- The sign bit of a pattern. -/
def fSign (ty x : Nat) : Bool := x.testBit (tyWidth ty - 1)

/-- A NaN code (R65, R66). -/
def isNaN (ty x : Nat) : Bool :=
  if ty = 8 then x == 0x80
  else bits x (tyWidth ty - 2) (fMan ty) == 2 ^ fExp ty - 1 && decide (x % 2 ^ fMan ty ≠ 0)

/-- A signalling NaN: quiet bit clear (R67). -/
def isSNaN (ty x : Nat) : Bool := ty != 8 && isNaN ty x && !x.testBit (fMan ty - 1)

/-- Quieten a NaN (R67). -/
def quieten (ty x : Nat) : Nat := if ty = 8 then x else x ||| 2 ^ (fMan ty - 1)

/-- An infinity (R65); F8A has none (R66). -/
def isInf (ty x : Nat) : Bool :=
  ty != 8 && bits x (tyWidth ty - 2) (fMan ty) == 2 ^ fExp ty - 1 && x % 2 ^ fMan ty == 0

/-- A non-zero value with exponent field 0 (R65). -/
def isSubnormal (ty x : Nat) : Bool :=
  !isNaN ty x && bits x (tyWidth ty - 2) (fMan ty) == 0 && decide (x % 2 ^ fMan ty ≠ 0)

/-- A signed zero; F8A drops the sign (R66). -/
def zeroPat (ty : Nat) (s : Bool) : Nat := if s && ty != 8 then 2 ^ (tyWidth ty - 1) else 0

/-- Largest finite value of a sign (R65). -/
def maxPat (ty : Nat) (s : Bool) : Nat :=
  (if s then 2 ^ (tyWidth ty - 1) else 0) + fTop ty * 2 ^ fMan ty + (2 ^ fMan ty - 1)

/-- Infinity of a sign; in F8A the code 0x80 (R74, R128). -/
def infPat (ty : Nat) (s : Bool) : Nat :=
  if ty = 8 then 0x80 else (if s then 2 ^ (tyWidth ty - 1) else 0) + (2 ^ fExp ty - 1) * 2 ^ fMan ty

/-- The value of a pattern: a NaN, an infinity, or sign and m · 2^e. -/
inductive FVal where
  | nan
  | inf (s : Bool)
  | fin (s : Bool) (m : Nat) (e : Int)
  deriving DecidableEq, Repr

/-- The value a pattern stands for (R65, R66). -/
def fVal (ty x : Nat) : FVal :=
  if isNaN ty x then .nan
  else if isInf ty x then .inf (fSign ty x)
  else
    let e := bits x (tyWidth ty - 2) (fMan ty)
    let m := x % 2 ^ fMan ty
    if e = 0 then .fin (fSign ty x) m (1 - fBias ty - fMan ty)
    else .fin (fSign ty x) (2 ^ fMan ty + m) ((e : Int) - fBias ty - fMan ty)

/-- FPSR flags in the order NV DZ OF UF NX (R59, R78). -/
abbrev FFlags := BitVec 5
def flNV : FFlags := 16
def flDZ : FFlags := 8
def flOF : FFlags := 4
def flUF : FFlags := 2
def flNX : FFlags := 1

/-- A rounded result: pattern, flags, and the sign of an infinite result, which Sat needs in F8A (R76). -/
structure FRes where
  pat : Nat
  fl : FFlags
  inf : Option Bool
  deriving DecidableEq, Repr

/-- A NaN result or another operand pattern without flags. -/
def FRes.plain (pat : Nat) : FRes := ⟨pat, 0, none⟩

/-- An exact infinite result: no overflow (R74, R128). -/
def FRes.infinite (ty : Nat) (s : Bool) (fl : FFlags) : FRes := ⟨infPat ty s, fl, some s⟩

/-- A non-negative exact real: m · 2^e, or when sticky strictly between m · 2^e and (m + 1) · 2^e, in which case m
has at least three bits more than the target's mantissa. -/
structure Mag where
  m : Nat
  e : Int
  sticky : Bool
  deriving DecidableEq, Repr

/-- Whether a discarded part rounds the magnitude up (R73): rm, sign, odd quotient, discarded part above half, at half,
non-zero. -/
def roundsUp (rm : Nat) (s odd above half rest : Bool) : Bool :=
  if rm = 0 then above || (half && odd)
  else if rm = 1 then false
  else if rm = 2 then rest && !s
  else if rm = 3 then rest && s
  else above || half

/-- Round a magnitude to a multiple of 2^q: the multiple, and whether it is inexact. -/
def roundAt (x : Mag) (q : Int) (rm : Nat) (s : Bool) : Nat × Bool :=
  if q ≤ x.e then (x.m * 2 ^ (x.e - q).toNat, x.sticky)
  else
    let sh := (q - x.e).toNat
    let n := x.m >>> sh
    let r := x.m % 2 ^ sh
    let h := 2 ^ (sh - 1)
    let above := decide (h < r) || (decide (r = h) && x.sticky)
    let half := decide (r = h) && !x.sticky
    let rest := decide (r ≠ 0) || x.sticky
    (n + (if roundsUp rm s (n % 2 = 1) above half rest then 1 else 0), rest)

/-- Round(fmt, x, rm) with the flags it raises (R74, R78). -/
def roundF (ty : Nat) (s : Bool) (x : Mag) (rm : Nat) : FRes :=
  if x.m = 0 ∧ x.sticky = false then .plain (zeroPat ty s)
  else
    let p : Int := fMan ty
    let emin := 1 - fBias ty
    let qU := (x.m.log2 : Int) + x.e - p
    let q := if qU < emin - p then emin - p else qU
    let (nU, _) := roundAt x qU rm s
    let (n, inexact) := roundAt x q rm s
    let tiny := decide (qU < emin - p) && decide (nU < 2 ^ (fMan ty + (emin - p - qU).toNat))
    let (n', q') := if n < 2 ^ (fMan ty + 1) then (n, q) else (n / 2, q + 1)
    let sb := if s then 2 ^ (tyWidth ty - 1) else 0
    if n' < 2 ^ fMan ty then
      ⟨if n' = 0 then zeroPat ty s else sb + n', (if inexact then flNX ||| (if tiny then flUF else 0) else 0), none⟩
    else
      let ef := q' + p + fBias ty
      if (fTop ty : Int) < ef then
        if rm = 1 ∨ (rm = 2 ∧ s) ∨ (rm = 3 ∧ ¬ s) then ⟨maxPat ty s, flOF ||| flNX, none⟩
        else ⟨infPat ty s, flOF ||| flNX, some s⟩
      else
        ⟨sb + ef.toNat * 2 ^ fMan ty + (n' - 2 ^ fMan ty),
          (if inexact then flNX ||| (if tiny then flUF else 0) else 0), none⟩

/-- FlushIn (R75). -/
def flushIn (ty : Nat) (fi : Bool) (x : Nat) : Nat :=
  if fi && isSubnormal ty x then zeroPat ty (fSign ty x) else x

/-- FlushOut, then Sat (R75, R76): the delivered pattern and all flags. -/
def deliver (ty : Nat) (fo sat : Bool) (r : FRes) : Nat × FFlags :=
  if fo && isSubnormal ty r.pat then (zeroPat ty (fSign ty r.pat), r.fl ||| flUF ||| flNX)
  else match r.inf with
    | some s => (if sat then maxPat ty s else r.pat, r.fl)
    | none => (r.pat, r.fl)

/-- The exact dyadic value of an element that Q4X can meet: a NaN, an infinity, or num · 2^e. -/
inductive QVal where
  | nan
  | inf (s : Bool)
  | fin (num : Int) (e : Int)
  deriving DecidableEq, Repr

def FVal.toQ : FVal → QVal
  | .nan => .nan
  | .inf s => .inf s
  | .fin s m e => .fin (if s then -(m : Int) else m) e

/-- An element of any type but q4x as an exact value. -/
def elemQ (ty x : Nat) : QVal := if tyFloat ty then (fVal ty x).toQ else .fin (intVal ty x) 0

/-- Value of an outlier's code nibble, in units of 2^-6 (R69). -/
def outlier64 (c : Nat) : Int := (if c < 8 then 1 else -1) * (4 : Int) ^ (c % 8)

/-- A Q4X byte's two elements, even first, in units of 2^-6 (R69). -/
def q4Decode (b : Nat) : Int × Int :=
  let lo := b % 16
  let hi := b / 16 % 16
  if lo = 8 then (outlier64 hi, 0)
  else if hi = 8 then (0, outlier64 lo)
  else (64 * toSigned 4 lo, 64 * toSigned 4 hi)

/-- Integer part of a value in units of 2^-6, toward zero (R71). -/
def q4Int (v : Int) : Int := v.tdiv 64

/-- |x| of an integer. -/
def absI (x : Int) : Int := if x < 0 then -x else x

/-- Nearest code for an outlier slot: x and the codes' values are in units of 2^k, and unit is 2^-6 in them (R70 step 2:
ties to the larger magnitude, then to the positive value). -/
def nearestCode (unit x : Int) (codes : List Nat) : Nat :=
  codes.foldl (fun best c =>
    let v := outlier64 c * unit
    let vb := outlier64 best * unit
    if absI (x - v) < absI (x - vb) then c
    else if absI (x - v) = absI (x - vb) ∧ (absI vb < absI v ∨ (absI vb = absI v ∧ vb < v)) then c
    else best) (codes.headD 0)

/-- Nearest integer to x / unit, ties to even, clamped to [-7, 7] (R70 candidate A). -/
def nearestInt (unit x : Int) : Int :=
  let q := x / unit
  let r := x % unit
  let n := if 2 * r < unit then q else if unit < 2 * r then q + 1 else if q % 2 = 0 then q else q + 1
  if n < -7 then -7 else if 7 < n then 7 else n

/-- R70: encode a pair into a Q4X byte, with the flags it raises. -/
def q4Encode (a b : QVal) : Nat × FFlags :=
  let nv := decide (a = .nan) || decide (b = .nan)
  let exp : QVal → Int := fun v => match v with | .fin _ e => e | _ => 0
  let k := min (min (exp a) (exp b)) (-6)
  let one : Int := (2 : Int) ^ (-k).toNat
  let unit : Int := (2 : Int) ^ (-6 - k).toNat
  let raw : QVal → Int := fun v => match v with
    | .nan => 0
    | .inf s => if s then -(513 * one) else 513 * one
    | .fin n e => n * (2 : Int) ^ (e - k).toNat
  let clamp : Int → Int := fun x => if x < -(512 * one) then -(512 * one) else if 512 * one < x then 512 * one else x
  let x := clamp (raw a)
  let y := clamp (raw b)
  let ae := nearestInt one x
  let ao := nearestInt one y
  let cb := nearestCode unit x (List.range 16)
  let cc := nearestCode unit y ((List.range 16).filter fun c => c ≠ 8)
  let err := fun (u v : Int) => absI (x - u) + absI (y - v)
  let ea := err (ae * one) (ao * one)
  let eb := err (outlier64 cb * unit) 0
  let ec := err 0 (outlier64 cc * unit)
  let pick : Nat × Int × Int :=
    if ea ≤ eb ∧ ea ≤ ec then (modN 4 ae + 16 * modN 4 ao, ae * one, ao * one)
    else if eb ≤ ec then (16 * cb + 8, outlier64 cb * unit, 0)
    else (128 + cc, 0, outlier64 cc * unit)
  let nx := decide (pick.2.1 ≠ raw a) || decide (pick.2.2 ≠ raw b)
  (pick.1, (if nv then flNV else 0) ||| (if nx then flNX else 0))

/-- Sub-element i, of width w, of a lane value (R28). -/
def elem (w : Nat) (x : Word) (i : Nat) : Nat := (x.toNat >>> (w * i)) % 2 ^ w

/-- A lane value from its sub-elements of width w, from sub-element i on. -/
def packFrom (w : Nat) : List Nat → Nat
  | [] => 0
  | x :: xs => x % 2 ^ w + 2 ^ w * packFrom w xs

/-- A lane value from its n sub-elements (R28). -/
def packElems (w n : Nat) (f : Nat → Nat) : Word := BitVec.ofNat 64 (packFrom w ((List.range n).map f))

end Sys2Proof.Machine
end

