-- ==== Sys2Proof/Machine/Flags.lean ====
section
/-! DEFINITION. Float operations with the sticky flags they raise (R78–R81, R125–R131): each takes patterns, computes
the exact result, and rounds once (R77). -/
namespace Sys2Proof.Machine

/-- Whether a pattern is a zero of its format. -/
def isZeroF (ty x : Nat) : Bool := match fVal ty x with | .fin _ m _ => m == 0 | _ => false

/-- R79: the result when some input is a NaN: the first NaN in operand order, quietened; NV when one is signalling. -/
def nanOf (ty : Nat) (xs : List Nat) : Option FRes :=
  match xs.find? (isNaN ty) with
  | none => none
  | some x => some ⟨quieten ty x, if xs.any (isSNaN ty) then flNV else 0, none⟩

/-- The default NaN of an invalid operation (R79). -/
def invalidF (ty : Nat) : FRes := ⟨defaultNaN ty, flNV, none⟩

/-- Round an exact signed dyadic num · 2^e; zeroSign is the sign of an exact zero. -/
def roundDyadic (ty : Nat) (num e : Int) (zeroSign : Bool) (rm : Nat) : FRes :=
  if num = 0 then .plain (zeroPat ty zeroSign)
  else roundF ty (num < 0) ⟨num.natAbs, e, false⟩ rm

/-- Sum of exact terms (sign, m, e): numerator over the least exponent. -/
def sumTerms (ts : List (Bool × Nat × Int)) : Int × Int :=
  let k := ts.foldl (fun k t => min k t.2.2) 0
  (ts.foldl (fun acc t => acc + (if t.1 then -1 else 1) * (t.2.1 : Int) * (2 : Int) ^ (t.2.2 - k).toNat) 0, k)

/-- The sign IEEE 754 gives an exact zero sum: the common sign of zero terms, else + or, under RDN, − (R125). -/
def zeroSumSign (rm : Nat) (signs : List Bool) : Bool :=
  if signs.all id then true else if signs.all (fun s => !s) then false else rm = 3

/-- FADD and FSUB (R125). -/
def addF (ty rm : Nat) (neg : Bool) (a b : Nat) : FRes :=
  match nanOf ty [a, b] with
  | some r => r
  | none =>
    match fVal ty a, fVal ty b with
    | .inf s, .inf t => if s = (t != neg) then .infinite ty s 0 else invalidF ty
    | .inf s, _ => .infinite ty s 0
    | _, .inf t => .infinite ty (t != neg) 0
    | .fin s m e, .fin t n f =>
      let (num, k) := sumTerms [(s, m, e), (t != neg, n, f)]
      let signs := [s, t != neg]
      roundDyadic ty num k (if m = 0 ∧ n = 0 then zeroSumSign rm signs else rm = 3) rm
    | _, _ => invalidF ty

/-- FMUL (R125). -/
def mulF (ty rm : Nat) (a b : Nat) : FRes :=
  match nanOf ty [a, b] with
  | some r => r
  | none =>
    match fVal ty a, fVal ty b with
    | .fin s m e, .fin t n f => roundF ty (s != t) ⟨m * n, e + f, false⟩ rm
    | .inf s, .fin t n _ => if n = 0 then invalidF ty else .infinite ty (s != t) 0
    | .fin s m _, .inf t => if m = 0 then invalidF ty else .infinite ty (s != t) 0
    | .inf s, .inf t => .infinite ty (s != t) 0
    | _, _ => invalidF ty

/-- A product as it enters an exact sum: invalid, infinite, or a term. -/
inductive PTerm where
  | bad
  | nan
  | inf (s : Bool)
  | term (s : Bool) (m : Nat) (e : Int)
  deriving DecidableEq, Repr

/-- The exact product of two values (R78: 0 × ∞ is invalid). -/
def prodF : FVal → FVal → PTerm
  | .nan, _ => .nan
  | _, .nan => .nan
  | .inf s, .inf t => .inf (s != t)
  | .inf s, .fin t n _ => if n = 0 then .bad else .inf (s != t)
  | .fin s m _, .inf t => if m = 0 then .bad else .inf (s != t)
  | .fin s m e, .fin t n f => .term (s != t) (m * n) (e + f)

/-- Exact sum of terms with infinities, rounded once: invalid when infinities of both signs meet (R126). -/
def sumF (ty rm : Nat) (ps : List PTerm) : FRes :=
  if ps.any (fun p => p = .bad) then invalidF ty
  else
    let pos := ps.any fun p => p = .inf false
    let neg := ps.any fun p => p = .inf true
    if pos && neg then invalidF ty
    else if pos || neg then .infinite ty neg 0
    else
      let ts := ps.filterMap fun p => match p with | .term s m e => some (s, m, e) | _ => none
      let (num, k) := sumTerms ts
      let zs := if ts.all (fun t => t.2.1 = 0) then zeroSumSign rm (ts.map fun t => t.1) else rm = 3
      roundDyadic ty num k zs rm

/-- A value as a term of a sum. -/
def FVal.toProd : FVal → PTerm
  | .nan => .nan
  | .inf s => .inf s
  | .fin s m e => .term s m e

/-- FFMA: a × b + c with one rounding; NaN order c, a, b (R79, R126). -/
def fmaF (ty rm : Nat) (a b c : Nat) : FRes :=
  let p := prodF (fVal ty a) (fVal ty b)
  match nanOf ty [c, a, b] with
  | some r => if p = .bad then { r with fl := r.fl ||| flNV } else r
  | none => sumF ty rm [(fVal ty c).toProd, p]

/-- Widening of a NaN: sign kept, quiet, payload at the top; F8A gives the default NaN (R81). -/
def widenNaN (sf dt x : Nat) : Nat :=
  if sf = 8 then defaultNaN dt
  else (if fSign sf x then 2 ^ (tyWidth dt - 1) else 0) + (2 ^ fExp dt - 1) * 2 ^ fMan dt +
    (quieten sf x % 2 ^ fMan sf) * 2 ^ (fMan dt - fMan sf)

/-- FDOT2: c + a0·b0 + a1·b1 with one rounding; NaN order c, a0, b0, a1, b1 (R126). -/
def dot2F (ty sf rm : Nat) (c a0 b0 a1 b1 : Nat) : FRes :=
  let p0 := prodF (fVal sf a0) (fVal sf b0)
  let p1 := prodF (fVal sf a1) (fVal sf b1)
  let srcs := [a0, b0, a1, b1]
  let snan := isSNaN ty c || srcs.any (isSNaN sf)
  let opposed := (p0 = .inf true ∨ p1 = .inf true ∨ fVal ty c = .inf true) ∧
    (p0 = .inf false ∨ p1 = .inf false ∨ fVal ty c = .inf false)
  let bad := decide (p0 = .bad) || decide (p1 = .bad) || decide opposed
  let nan : Option Nat :=
    if isNaN ty c then some (quieten ty c) else (srcs.find? (isNaN sf)).map fun x => widenNaN sf ty x
  match nan with
  | some x => ⟨x, if snan || bad then flNV else 0, none⟩
  | none => sumF ty rm [(fVal ty c).toProd, p0, p1]

/-- Rank of a key (R85), which also orders the non-NaN floats with −0 below +0 (R80). -/
def rankOf (ty x : Nat) : Nat :=
  let w := tyWidth ty
  if tySigned ty then x ^^^ 2 ^ (w - 1)
  else if tyInt ty then x
  else if x.testBit (w - 1) then 2 ^ w - 1 - x
  else x + 2 ^ (w - 1)

/-- FMIN and FMAX (R80). -/
def minMaxF (ty : Nat) (wantMax : Bool) (a b : Nat) : FRes :=
  let fl := if isSNaN ty a || isSNaN ty b then flNV else 0
  let give := fun x => (⟨x, fl, match fVal ty x with | .inf s => some s | _ => none⟩ : FRes)
  if isNaN ty a then (if isNaN ty b then ⟨quieten ty a, fl, none⟩ else give b)
  else if isNaN ty b then give a
  else
    let lessA := rankOf ty a < rankOf ty b
    give (if lessA = (wantMax = false) then a else b)

/-- FLDEXP: a × 2^b (R125). -/
def ldexpF (ty rm : Nat) (a : Nat) (b : Int) : FRes :=
  match nanOf ty [a] with
  | some r => r
  | none =>
    match fVal ty a with
    | .inf s => .infinite ty s 0
    | .fin s m e =>
      -- beyond this range the result overflows or underflows whatever b is
      let b' := if b < -5000 then -5000 else if 5000 < b then 5000 else b
      if m = 0 then .plain (zeroPat ty s) else roundF ty s ⟨m, e + b', false⟩ rm
    | .nan => invalidF ty

/-- Integer square root by trying bits from the highest down. -/
def isqrtFrom (n : Nat) : Nat → Nat → Nat
  | 0, r => r
  | i + 1, r =>
    let t := r + 2 ^ i
    isqrtFrom n i (if t * t ≤ n then t else r)

/-- Integer square root. -/
def isqrt (n : Nat) : Nat := isqrtFrom n (n.log2 / 2 + 1) 0

/-- Precision in bits of the reciprocal, root, exponential and logarithm computations (log 18). -/
def workBits : Nat := 256

/-- FRCP (R127). -/
def rcpF (ty rm : Nat) (a : Nat) : FRes :=
  match nanOf ty [a] with
  | some r => r
  | none =>
    match fVal ty a with
    | .inf s => .plain (zeroPat ty s)
    | .fin s m e =>
      if m = 0 then .infinite ty s flDZ
      else
        let k := m.log2 + workBits
        roundF ty s ⟨2 ^ k / m, -(k : Int) - e, decide (2 ^ k % m ≠ 0)⟩ rm
    | .nan => invalidF ty

/-- FSQRT (R127). -/
def sqrtF (ty rm : Nat) (a : Nat) : FRes :=
  match nanOf ty [a] with
  | some r => r
  | none =>
    match fVal ty a with
    | .inf s => if s then invalidF ty else .infinite ty false 0
    | .fin s m e =>
      if m = 0 then .plain (zeroPat ty s)
      else if s then invalidF ty
      else
        let odd := e % 2 ≠ 0
        let n := (if odd then 2 * m else m) * 2 ^ workBits
        let e' := (if odd then e - 1 else e) - workBits
        let r := isqrt n
        roundF ty false ⟨r, e' / 2, decide (r * r ≠ n)⟩ rm
    | .nan => invalidF ty

/-- FRSQ (R127). -/
def rsqF (ty rm : Nat) (a : Nat) : FRes :=
  match nanOf ty [a] with
  | some r => r
  | none =>
    match fVal ty a with
    | .inf s => if s then invalidF ty else .plain (zeroPat ty false)
    | .fin s m e =>
      if m = 0 then .infinite ty s flDZ
      else if s then invalidF ty
      else
        let odd := e % 2 ≠ 0
        let n := if odd then 2 * m else m
        let e' := if odd then e - 1 else e
        let k := n.log2 + workBits
        let r := isqrt (2 ^ (2 * k) / n)
        roundF ty false ⟨r, -(k : Int) - e' / 2, decide (r * r * n ≠ 2 ^ (2 * k))⟩ rm
    | .nan => invalidF ty

/-- 2^f for a fraction f of workBits bits, in units of 2^-workBits and rounded down: the product of the roots 2^(2^-i)
over the set bits of f. root is 2^(2^-i) for the bit at hand. -/
def exp2Frac (f : Nat) : Nat → Nat → Nat → Nat
  | 0, _, acc => acc
  | i + 1, root, acc =>
    let root' := isqrt (root * 2 ^ workBits)
    exp2Frac f i root' (if f.testBit i then acc * root' / 2 ^ workBits else acc)

/-- FEXP2 (R127): exact for an integer, else a value that is never representable, computed to workBits bits. -/
def exp2F (ty rm : Nat) (a : Nat) : FRes :=
  match nanOf ty [a] with
  | some r => r
  | none =>
    match fVal ty a with
    | .inf s => if s then .plain (zeroPat ty false) else .infinite ty false 0
    | .fin s m e =>
      if m = 0 then roundF ty false ⟨1, 0, false⟩ rm
      else if 0 ≤ e ∨ m % 2 ^ (-e).toNat = 0 then
        let n : Nat := if 20 < e then 2 ^ 20 else if 0 ≤ e then m * 2 ^ e.toNat else m / 2 ^ (-e).toNat
        let n' : Int := if 20000 < n then 20000 else n
        roundF ty false ⟨1, if s then -n' else n', false⟩ rm
      else
        let sh := (-e).toNat
        let whole : Nat := if m / 2 ^ sh > 20000 then 20000 else m / 2 ^ sh
        let frac := m % 2 ^ sh
        -- a negative input is −(whole + 1) plus the rest of the unit
        let k : Int := if s then -(whole : Int) - 1 else whole
        let f := if s then 2 ^ sh - frac else frac
        let fw := if sh ≤ workBits then f * 2 ^ (workBits - sh) else f / 2 ^ (sh - workBits)
        let v := exp2Frac fw workBits (2 ^ (workBits + 1)) (2 ^ workBits)
        roundF ty false ⟨v, k - workBits, true⟩ rm
    | .nan => invalidF ty

/-- Bits of log₂ of x, 1 ≤ x < 2 in units of 2^-prec, by repeated squaring: n bits, highest first. -/
def log2Bits (prec : Nat) : Nat → Nat → Nat → Nat
  | 0, _, acc => acc
  | n + 1, x, acc =>
    let y := x * x / 2 ^ prec
    if 2 ^ (prec + 1) ≤ y then log2Bits prec n (y / 2) (2 * acc + 1) else log2Bits prec n y (2 * acc)

/-- FLOG2 (R127): exact for a power of two, else computed to workBits fraction bits. DESIGN CHOICE (log 116): the
logarithm of a power of two that the type cannot hold (±9, ±11, ±13, ±15 in F8B) is rounded by RM and raises NX. -/
def log2F (ty rm : Nat) (a : Nat) : FRes :=
  match nanOf ty [a] with
  | some r => r
  | none =>
    match fVal ty a with
    | .inf s => if s then invalidF ty else .infinite ty false 0
    | .fin s m e =>
      if m = 0 then .infinite ty true flDZ
      else if s then invalidF ty
      else
        let l := m.log2
        let k : Int := (l : Int) + e
        if m = 2 ^ l then roundDyadic ty k 0 false rm
        else
          let prec := 3 * workBits
          let fr := log2Bits prec workBits (m * 2 ^ (prec - l)) 0
          -- the value lies strictly between k + fr and k + fr + 1, in units of 2^-workBits
          let lo : Int := k * (2 : Int) ^ workBits + fr
          if 0 ≤ lo then roundF ty false ⟨lo.toNat, -(workBits : Int), true⟩ rm
          else roundF ty true ⟨(-lo - 1).toNat, -(workBits : Int), true⟩ rm
    | .nan => invalidF ty

/-- A magnitude rounded to an integer by rm, and whether it is inexact. -/
def roundInt (m : Nat) (e : Int) (rm : Nat) (s : Bool) : Nat × Bool := roundAt ⟨m, e, false⟩ 0 rm s

/-- FRND (R129). -/
def rndF (ty rm : Nat) (exact : Bool) (a : Nat) : FRes :=
  match nanOf ty [a] with
  | some r => r
  | none =>
    match fVal ty a with
    | .inf s => .infinite ty s 0
    | .fin s m e =>
      let (n, inexact) := roundInt m e rm s
      let r := roundF ty s ⟨n, 0, false⟩ 0
      ⟨r.pat, if exact && inexact then flNX else 0, r.inf⟩
    | .nan => invalidF ty

/-- Float to float (R81): to a wider format exactly, between equal formats unchanged but quietened, else rounded. DESIGN
CHOICE (log 50): between F8A and F8B, which R132 permits and R81's table does not list, as between F16 and BF16: rounded,
and every NaN becomes the target's default NaN. -/
def cvtF (sf dt rm : Nat) (x : Nat) : FRes :=
  if isNaN sf x then
    let fl := if isSNaN sf x then flNV else 0
    ⟨if sf = dt then quieten sf x else if tyWidth sf < tyWidth dt then widenNaN sf dt x else defaultNaN dt, fl, none⟩
  else
    match fVal sf x with
    | .inf s => .infinite dt s 0
    | .fin s m e => roundF dt s ⟨m, e, false⟩ rm
    | .nan => invalidF dt

/-- Integer to float (R81). -/
def i2F (dt rm : Nat) (x : Int) : FRes := roundDyadic dt x 0 false rm

/-- An exact value to an integer type (R81): pattern and flags. -/
def f2IVal (di rm : Nat) : FVal → Nat × FFlags
  | .nan => (0, flNV)
  | .inf s => (fit di true (if s then intMin di else intMax di), flNV)
  | .fin s m e =>
    if 200 < e ∧ m ≠ 0 then (fit di true (if s then intMin di else intMax di), flNV)
    else
      let (n, inexact) := roundInt m e rm s
      let v : Int := if s then -(n : Int) else n
      if v < intMin di ∨ intMax di < v then (fit di true v, flNV)
      else (fit di false v, if inexact then flNX else 0)

/-- Float to integer (R81). -/
def f2I (sf di rm : Nat) (x : Nat) : Nat × FFlags := f2IVal di rm (fVal sf x)

/-- A Q4X element (in units of 2^-6) to a float type (R81). -/
def q4ToF (dt rm : Nat) (v : Int) : FRes := roundDyadic dt v (-6) false rm

/-- One float condition of FSETP (R124). -/
def cmpF (ty cc a b : Nat) : Bool :=
  let nan := isNaN ty a || isNaN ty b
  let ra := if isZeroF ty a then rankOf ty 0 else rankOf ty a
  let rb := if isZeroF ty b then rankOf ty 0 else rankOf ty b
  if cc = 0 then !nan && ra == rb
  else if cc = 1 then nan || ra != rb
  else if cc = 2 then !nan && decide (ra < rb)
  else if cc = 3 then !nan && decide (ra ≤ rb)
  else if cc = 4 then !nan && decide (rb < ra)
  else if cc = 5 then !nan && decide (rb ≤ ra)
  else if cc = 6 then !nan
  else nan

/-- One integer condition of ISETP and UCMP (R124, R158). -/
def cmpI (cc : Nat) (a b : Int) : Bool :=
  if cc = 0 then a == b else if cc = 1 then a != b else if cc = 2 then decide (a < b)
  else if cc = 3 then decide (a ≤ b) else if cc = 4 then decide (b < a) else decide (b ≤ a)

/-- FCLASS class number of a pattern (R124). -/
def classF (ty x : Nat) : Nat :=
  if isNaN ty x then (if isSNaN ty x then 8 else 9)
  else
    let s := fSign ty x
    if isInf ty x then (if s then 0 else 7)
    else if isSubnormal ty x then (if s then 2 else 5)
    else if isZeroF ty x then (if s then 3 else 4)
    else (if s then 1 else 6)

end Sys2Proof.Machine
end

