-- ==== Sys2Proof/Decode.lean ====
section
/-! DEFINITION. Instruction words (R87 to R113): the words of every instruction, and the instruction a stream of
bytes starts with. An opcode of the maps of R111 and R112 always decodes to its instruction, whatever its other
bits; what R113 says of those bits is Machine/Legal.lean's. -/
namespace Sys2Proof
open Sys2Proof.Machine

/-- An instruction's encoding form: its opcode and its fields; step for a row of the table that is a whole step of
another agent and has no word. -/
inductive Form where
  | lane (opc : Nat) (w : LaneW)
  | uni (opc : Nat) (w : UniW)
  | br (opc : Nat) (w : BrW)
  | brk (opc : Nat) (w : BrkW)
  | rep (w : RepW)
  | csr (opc : Nat) (w : CsrW)
  | step
  deriving DecidableEq, Repr

/-- The encoding form of each instruction: opcodes of R111 and R112, formats of R88 and R103. -/
def Instr.form : Instr → Form
  | .ill w => .lane 0x00 w
  | .iadd w => .lane 0x01 w
  | .isub w => .lane 0x02 w
  | .imul w => .lane 0x03 w
  | .imulh w => .lane 0x04 w
  | .imad w => .lane 0x05 w
  | .imin w => .lane 0x06 w
  | .imax w => .lane 0x07 w
  | .iabs w => .lane 0x08 w
  | .ineg w => .lane 0x09 w
  | .and w => .lane 0x0A w
  | .or w => .lane 0x0B w
  | .xor w => .lane 0x0C w
  | .andn w => .lane 0x0D w
  | .shl w => .lane 0x0E w
  | .shr w => .lane 0x0F w
  | .sar w => .lane 0x10 w
  | .rol w => .lane 0x11 w
  | .clz w => .lane 0x12 w
  | .popc w => .lane 0x13 w
  | .brev w => .lane 0x14 w
  | .bfx w => .lane 0x15 w
  | .bfi w => .lane 0x16 w
  | .sel w => .lane 0x17 w
  | .isetp w => .lane 0x18 w
  | .mov w => .lane 0x19 w
  | .movlo w => .lane 0x1A w
  | .movhi w => .lane 0x1B w
  | .idot4 w => .lane 0x1C w
  | .isat w => .lane 0x1D w
  | .fadd w => .lane 0x20 w
  | .fsub w => .lane 0x21 w
  | .fmul w => .lane 0x22 w
  | .ffma w => .lane 0x23 w
  | .fmin w => .lane 0x24 w
  | .fmax w => .lane 0x25 w
  | .fsetp w => .lane 0x26 w
  | .fclass w => .lane 0x27 w
  | .frcp w => .lane 0x28 w
  | .frsq w => .lane 0x29 w
  | .fsqrt w => .lane 0x2A w
  | .fexp2 w => .lane 0x2B w
  | .flog2 w => .lane 0x2C w
  | .ftab w => .lane 0x2D w
  | .fcvt w => .lane 0x2E w
  | .i2f w => .lane 0x2F w
  | .f2i w => .lane 0x30 w
  | .frnd w => .lane 0x31 w
  | .fdot2 w => .lane 0x32 w
  | .fldexp w => .lane 0x33 w
  | .lperm w => .lane 0x40 w
  | .benes w => .lane 0x41 w
  | .vote w => .lane 0x42 w
  | .lscan w => .lane 0x43 w
  | .lred w => .lane 0x44 w
  | .subx w => .lane 0x45 w
  | .pack w => .lane 0x46 w
  | .unpack w => .lane 0x47 w
  | .elect w => .lane 0x48 w
  | .lsr w => .lane 0x49 w
  | .ld w => .lane 0x50 w
  | .st w => .lane 0x51 w
  | .lds w => .lane 0x52 w
  | .sts w => .lane 0x53 w
  | .ldc w => .lane 0x54 w
  | .stc w => .lane 0x55 w
  | .atom w => .lane 0x56 w
  | .cas w => .lane 0x57 w
  | .faddo w => .lane 0x58 w
  | .fadda w => .lane 0x59 w
  | .pfetch w => .lane 0x5A w
  | .tlook w => .lane 0x5B w
  | .tins w => .lane 0x5C w
  | .tinv w => .lane 0x5D w
  | .rcnt w => .lane 0x5E w
  | .brd w => .lane 0x60 w
  | .spawn w => .lane 0x61 w
  | .spawnt w => .lane 0x62 w
  | .exitl w => .lane 0x63 w
  | .nop w => .uni 0x00 w
  | .uadd w => .uni 0x01 w
  | .usub w => .uni 0x02 w
  | .umul w => .uni 0x03 w
  | .umulh w => .uni 0x04 w
  | .umin w => .uni 0x05 w
  | .umax w => .uni 0x06 w
  | .uand w => .uni 0x07 w
  | .uor w => .uni 0x08 w
  | .uxor w => .uni 0x09 w
  | .ushl w => .uni 0x0A w
  | .ushr w => .uni 0x0B w
  | .usar w => .uni 0x0C w
  | .uclz w => .uni 0x0D w
  | .upopc w => .uni 0x0E w
  | .ubfx w => .uni 0x0F w
  | .ubfi w => .uni 0x10 w
  | .umov w => .uni 0x11 w
  | .umovlo w => .uni 0x12 w
  | .umovhi w => .uni 0x13 w
  | .ucmp w => .uni 0x14 w
  | .udiv w => .uni 0x15 w
  | .urem w => .uni 0x16 w
  | .widf w => .uni 0x17 w
  | .uld w => .uni 0x18 w
  | .ust w => .uni 0x19 w
  | .uatom w => .uni 0x1A w
  | .bra w => .br 0x20 w
  | .brz w => .brk 0x21 w
  | .brnz w => .brk 0x22 w
  | .call w => .brk 0x23 w
  | .callr w => .uni 0x24 w
  | .ret w => .uni 0x25 w
  | .enter w => .uni 0x26 w
  | .loop w => .brk 0x27 w
  | .rep w => .rep w
  | .exit w => .uni 0x29 w
  | .brk w => .uni 0x2A w
  | .trap w => .uni 0x2B w
  | .tret w => .uni 0x2C w
  | .jmpr w => .uni 0x2D w
  | .bar w => .uni 0x30 w
  | .chim w => .uni 0x31 w
  | .fence w => .uni 0x32 w
  | .closeb w => .uni 0x33 w
  | .waitb w => .uni 0x34 w
  | .joinw w => .uni 0x35 w
  | .joina w => .uni 0x36 w
  | .welect w => .uni 0x37 w
  | .oflush w => .uni 0x38 w
  | .ptok w => .uni 0x39 w
  | .vtok w => .uni 0x3A w
  | .tcopy w => .uni 0x40 w
  | .tcopym w => .uni 0x41 w
  | .sgather w => .uni 0x42 w
  | .sreduce w => .uni 0x43 w
  | .scvt w => .uni 0x44 w
  | .wload w => .uni 0x45 w
  | .mma w => .uni 0x46 w
  | .mmas w => .uni 0x47 w
  | .accrd w => .uni 0x48 w
  | .accwr w => .uni 0x49 w
  | .accz w => .uni 0x4A w
  | .accwait w => .uni 0x4B w
  | .sortld w => .uni 0x4C w
  | .sort w => .uni 0x4D w
  | .sortst w => .uni 0x4E w
  | .sortwait w => .uni 0x4F w
  | .sortstop w => .uni 0x50 w
  | .tabld w => .uni 0x51 w
  | .tabsw w => .uni 0x52 w
  | .benset w => .uni 0x53 w
  | .rsnap w => .uni 0x54 w
  | .tsubmit w => .uni 0x55 w
  | .tdone w => .uni 0x56 w
  | .mbrecv w => .uni 0x57 w
  | .mbfwd w => .uni 0x58 w
  | .blkgo w => .uni 0x59 w
  | .csrr w => .csr 0x60 w
  | .csrw w => .csr 0x61 w
  | .csrs w => .csr 0x62 w
  | .csrc w => .csr 0x63 w
  | .xlinv w => .uni 0x64 w
  | .loadComplete _ _ => .step
  | .vtokTokenArrival _ _ => .step
  | .joinwWake _ _ => .step
  | .joinwPoll _ _ => .step
  | .childExitDecrement _ _ => .step
  | .warpRelease _ _ => .step
  | .kindlingEntryArrival _ => .step
  | .childWarpForm _ => .step
  | .warpReturn _ => .step
  | .spawnDeadlock _ => .step
  | .copyExecute _ _ => .step
  | .tabldExecute _ _ => .step
  | .sgatherExecute _ _ => .step
  | .sreduceExecute _ _ => .step
  | .scvtExecute _ _ => .step
  | .wloadExecute _ => .step
  | .mmaExecute _ => .step
  | .mmasExecute _ => .step
  | .accrdExecute _ => .step
  | .accwrExecute _ => .step
  | .acczExecute _ => .step
  | .sortldExecute _ => .step
  | .sortStart _ => .step
  | .sortStep _ => .step
  | .sortstExecute _ => .step
  | .orderedAddEpochApply _ => .step
  | .mailboxPacketArrival _ => .step
  | .walkRecord _ _ => .step
  | .walkerRetryPass _ _ => .step
  | .tileDone _ _ => .step
  | .hwerrTileDiscard _ => .step
  | .walkfault _ => .step
  | .doorbellWrite _ _ => .step
  | .eventReadOffsetWrite _ _ => .step
  | .restart _ => .step
  | .restartApply _ => .step
  | .abort _ => .step
  | .doorbellRegisterWrite _ _ _ => .step
  | .nopPacket _ => .step
  | .launch _ => .step
  | .launchCommit _ => .step
  | .gangStart _ _ => .step
  | .launchComplete _ => .step
  | .reserveTimeout _ _ => .step
  | .inval _ => .step
  | .invalidationComplete _ => .step
  | .signal _ => .step
  | .waitv _ => .step
  | .queueCreate _ => .step
  | .queueDestroy _ => .step
  | .genadv _ => .step
  | .xfer _ => .step
  | .eslynInboundWrite _ _ _ => .step
  | .aspaceCreate _ => .step
  | .aspaceSetRoot _ => .step
  | .aspaceDestroy _ => .step
  | .window _ => .step
  | .firmwareStage _ => .step
  | .firmwareActivate _ => .step
  | .stokerRoleExchange => .step
  | .schedulingRotation => .step
  | .queueAging _ => .step
  | .preemptSave _ => .step
  | .launchResume _ => .step
  | .launchTrapStop _ => .step
  | .chimneyTick => .step
  | .flueFrame => .step
  | .flitReplay _ _ => .step
  | .flueLaneCalibration _ _ => .step
  | .flueLinkLoss _ => .step
  | .hbmRefresh _ _ _ => .step
  | .patrolScrub _ _ => .step
  | .telemetrySampling => .step
  | .powerStepDown => .step
  | .powerStepUp => .step
  | .memorySideRequest _ _ _ _ => .step
  | .uncorrectableError _ => .step
  | .hostWindowAccess _ _ _ _ => .step
  | .spdmRequest _ _ => .step
  | .moduleReset => .step
  | .coreFailure _ => .step
  | .dieIsolation _ => .step
  | .meshSplit => .step
  | .stokerFailover => .step
  | .eslynPortLoss _ => .step
  | .dieReset _ => .step
  | .xferComplete _ => .step
  | .firmwareStageComplete _ => .step
  | .waitvSatisfied _ => .step
  | .flashWearManagement => .step

/-- The lane word of R88. -/
def laneWord (opc : Nat) (w : LaneW) : IWord :=
  0#1 ++ BitVec.ofBool w.tail.isSome ++ BitVec.ofNat 7 opc ++ BitVec.ofBool w.gn ++ w.gp ++ w.ty ++ w.vd ++ w.va ++ w.vb

/-- The uniform word of R102. -/
def uniWord (opc : Nat) (w : UniW) : IWord :=
  1#1 ++ BitVec.ofBool w.lit.isSome ++ BitVec.ofNat 7 opc ++ w.kd ++ w.ka ++ w.kb ++ w.f5

/-- A word in UBR (R103). -/
def brWord (opc : Nat) (w : BrW) : IWord :=
  1#1 ++ BitVec.ofBool w.lit.isSome ++ BitVec.ofNat 7 opc ++ w.off

/-- A word in UBRK (R103). -/
def brkWord (opc : Nat) (w : BrkW) : IWord :=
  1#1 ++ BitVec.ofBool w.lit.isSome ++ BitVec.ofNat 7 opc ++ w.r ++ w.off

/-- The REP word (R106). -/
def repWord (w : RepW) : IWord :=
  1#1 ++ BitVec.ofBool w.lit.isSome ++ 0x28#7 ++ w.cnt ++ w.sd ++ w.sa ++ w.sb ++ w.sc ++ w.low

/-- A word in UCSR (R103). -/
def csrWord (opc : Nat) (w : CsrW) : IWord :=
  1#1 ++ BitVec.ofBool w.lit.isSome ++ BitVec.ofNat 7 opc ++ w.r ++ w.csr ++ w.low

/-- The instruction word and its tail word or literal, if it has one (R87); a step has none. -/
def Form.words : Form → Option (IWord × Option IWord)
  | .lane opc w => some (laneWord opc w, w.tail)
  | .uni opc w => some (uniWord opc w, w.lit)
  | .br opc w => some (brWord opc w, w.lit)
  | .brk opc w => some (brkWord opc w, w.lit)
  | .rep w => some (repWord w, w.lit)
  | .csr opc w => some (csrWord opc w, w.lit)
  | .step => none

/-- The words of an instruction, in the order of their addresses (R87). -/
def encode (i : Instr) : List IWord :=
  match i.form.words with
  | some (w, some t) => [w, t]
  | some (w, none) => [w]
  | none => []

/-- One word as four little-endian bytes (R87). -/
def wordBytes (w : IWord) : List Byte :=
  [w.extractLsb' 0 8, w.extractLsb' 8 8, w.extractLsb' 16 8, w.extractLsb' 24 8]

/-- The bytes of an instruction (R87). -/
def encodeBytes (i : Instr) : List Byte := (encode i).flatMap wordBytes

/-- Why bytes hold no instruction. -/
inductive DecodeError where
  /-- A reserved lane opcode (R113): ILLEGAL. -/
  | reservedLane (opc : Nat)
  /-- A reserved uniform opcode (R113): ILLEGAL. -/
  | reservedUniform (opc : Nat)
  /-- The bytes end inside the instruction. -/
  | truncated
  deriving DecidableEq, Repr

/-- The lane opcode map of R111. -/
def laneTable : AMap (LaneW → Instr) :=
  [(0x00, .ill), (0x01, .iadd), (0x02, .isub), (0x03, .imul),
   (0x04, .imulh), (0x05, .imad), (0x06, .imin), (0x07, .imax),
   (0x08, .iabs), (0x09, .ineg), (0x0A, .and), (0x0B, .or),
   (0x0C, .xor), (0x0D, .andn), (0x0E, .shl), (0x0F, .shr),
   (0x10, .sar), (0x11, .rol), (0x12, .clz), (0x13, .popc)] ++
  [(0x14, .brev), (0x15, .bfx), (0x16, .bfi), (0x17, .sel),
   (0x18, .isetp), (0x19, .mov), (0x1A, .movlo), (0x1B, .movhi),
   (0x1C, .idot4), (0x1D, .isat), (0x20, .fadd), (0x21, .fsub),
   (0x22, .fmul), (0x23, .ffma), (0x24, .fmin), (0x25, .fmax),
   (0x26, .fsetp), (0x27, .fclass), (0x28, .frcp), (0x29, .frsq)] ++
  [(0x2A, .fsqrt), (0x2B, .fexp2), (0x2C, .flog2), (0x2D, .ftab),
   (0x2E, .fcvt), (0x2F, .i2f), (0x30, .f2i), (0x31, .frnd),
   (0x32, .fdot2), (0x33, .fldexp), (0x40, .lperm), (0x41, .benes),
   (0x42, .vote), (0x43, .lscan), (0x44, .lred), (0x45, .subx),
   (0x46, .pack), (0x47, .unpack), (0x48, .elect), (0x49, .lsr)] ++
  [(0x50, .ld), (0x51, .st), (0x52, .lds), (0x53, .sts),
   (0x54, .ldc), (0x55, .stc), (0x56, .atom), (0x57, .cas),
   (0x58, .faddo), (0x59, .fadda), (0x5A, .pfetch), (0x5B, .tlook),
   (0x5C, .tins), (0x5D, .tinv), (0x5E, .rcnt), (0x60, .brd),
   (0x61, .spawn), (0x62, .spawnt), (0x63, .exitl)]

/-- The uniform opcodes in UREG (R103, R112). -/
def uniTable : AMap (UniW → Instr) :=
  [(0x00, .nop), (0x01, .uadd), (0x02, .usub), (0x03, .umul),
   (0x04, .umulh), (0x05, .umin), (0x06, .umax), (0x07, .uand),
   (0x08, .uor), (0x09, .uxor), (0x0A, .ushl), (0x0B, .ushr),
   (0x0C, .usar), (0x0D, .uclz), (0x0E, .upopc), (0x0F, .ubfx),
   (0x10, .ubfi), (0x11, .umov), (0x12, .umovlo), (0x13, .umovhi)] ++
  [(0x14, .ucmp), (0x15, .udiv), (0x16, .urem), (0x17, .widf),
   (0x18, .uld), (0x19, .ust), (0x1A, .uatom), (0x24, .callr),
   (0x25, .ret), (0x26, .enter), (0x29, .exit), (0x2A, .brk),
   (0x2B, .trap), (0x2C, .tret), (0x2D, .jmpr), (0x30, .bar),
   (0x31, .chim), (0x32, .fence), (0x33, .closeb), (0x34, .waitb)] ++
  [(0x35, .joinw), (0x36, .joina), (0x37, .welect), (0x38, .oflush),
   (0x39, .ptok), (0x3A, .vtok), (0x40, .tcopy), (0x41, .tcopym),
   (0x42, .sgather), (0x43, .sreduce), (0x44, .scvt), (0x45, .wload),
   (0x46, .mma), (0x47, .mmas), (0x48, .accrd), (0x49, .accwr),
   (0x4A, .accz), (0x4B, .accwait), (0x4C, .sortld), (0x4D, .sort)] ++
  [(0x4E, .sortst), (0x4F, .sortwait), (0x50, .sortstop), (0x51, .tabld),
   (0x52, .tabsw), (0x53, .benset), (0x54, .rsnap), (0x55, .tsubmit),
   (0x56, .tdone), (0x57, .mbrecv), (0x58, .mbfwd), (0x59, .blkgo),
   (0x64, .xlinv)]

/-- The uniform opcode in UBR (R103). -/
def brTable : AMap (BrW → Instr) :=
  [(0x20, .bra)]

/-- The uniform opcodes in UBRK (R103). -/
def brkTable : AMap (BrkW → Instr) :=
  [(0x21, .brz), (0x22, .brnz), (0x23, .call), (0x27, .loop)]

/-- The uniform opcodes in UCSR (R103). -/
def csrTable : AMap (CsrW → Instr) :=
  [(0x60, .csrr), (0x61, .csrw), (0x62, .csrs), (0x63, .csrc)]

/-- The four bytes of a word, lowest address first (R87). -/
def bytesWord (b0 b1 b2 b3 : Byte) : IWord := b3 ++ b2 ++ b1 ++ b0

/-- Bit 30, E: a second word follows (R88, R102). -/
def hasSecond (w : IWord) : Bool := w.getLsbD 30

/-- The opcode field [29:23] (R88, R102). -/
def opcOf (w : IWord) : Nat := (w.extractLsb' 23 7).toNat

/-- The instruction of a lane word and its tail (R88). -/
def decodeLane (w : IWord) (t : Option IWord) : Option Instr :=
  (AMap.find? laneTable (opcOf w)).map fun f =>
    f ⟨w.getLsbD 22, w.extractLsb' 19 3, w.extractLsb' 15 4, w.extractLsb' 10 5, w.extractLsb' 5 5, w.extractLsb' 0 5, t⟩

/-- The instruction of a uniform word and its literal (R102, R103, R106). -/
def decodeUni (w : IWord) (t : Option IWord) : Option Instr :=
  match AMap.find? uniTable (opcOf w) with
  | some f => some (f ⟨w.extractLsb' 17 6, w.extractLsb' 11 6, w.extractLsb' 5 6, w.extractLsb' 0 5, t⟩)
  | none =>
  match AMap.find? brTable (opcOf w) with
  | some f => some (f ⟨w.extractLsb' 0 23, t⟩)
  | none =>
  match AMap.find? brkTable (opcOf w) with
  | some f => some (f ⟨w.extractLsb' 17 6, w.extractLsb' 0 17, t⟩)
  | none =>
  match AMap.find? csrTable (opcOf w) with
  | some f => some (f ⟨w.extractLsb' 17 6, w.extractLsb' 5 12, w.extractLsb' 0 5, t⟩)
  | none =>
  if opcOf w = 0x28 then
    some (.rep ⟨w.extractLsb' 17 6, w.extractLsb' 15 2, w.extractLsb' 13 2, w.extractLsb' 11 2, w.extractLsb' 9 2,
                w.extractLsb' 0 9, t⟩)
  else none

/-- The instruction of a word and its second word; bit 31 selects the set (R31). -/
def decodeWords (w : IWord) (t : Option IWord) : Except DecodeError Instr :=
  if w.getLsbD 31 then
    match decodeUni w t with
    | some i => .ok i
    | none => .error (.reservedUniform (opcOf w))
  else
    match decodeLane w t with
    | some i => .ok i
    | none => .error (.reservedLane (opcOf w))

/-- The instruction that bytes start with, and the bytes behind it. -/
def decode : List Byte → Except DecodeError (Instr × List Byte)
  | b0 :: b1 :: b2 :: b3 :: rest =>
    let w := bytesWord b0 b1 b2 b3
    if hasSecond w then
      match rest with
      | c0 :: c1 :: c2 :: c3 :: rest' => (decodeWords w (some (bytesWord c0 c1 c2 c3))).map fun i => (i, rest')
      | _ => .error .truncated
    else (decodeWords w none).map fun i => (i, rest)
  | _ => .error .truncated

/-- The instruction of the bits of an opcode-table row: bit 0 is the least significant bit of the first word, and
the bits above nbits are 0. -/
def decodeTableWord (nbits w : Nat) : Option Instr :=
  match decode (leBytes 8 (w % 2 ^ nbits)) with
  | .ok (i, _) => some i
  | .error _ => none

end Sys2Proof
end

