-- ==== Sys2Proof/Machine/Legal.lean ====
section
/-! DEFINITION. Which words raise ILLEGAL whatever the state (R113, R116, R133, R143, R152, R158, R163, R165, R173,
R188), with the reason code of R357: the lowest that applies (R370). -/
namespace Sys2Proof
open Machine

/-- The tail word in force: an absent tail behaves as 0x0000_0001 (R92). -/
def LaneW.tl (w : LaneW) : Nat := match w.tail with | some t => t.toNat | none => 1

/-- TK (R91). -/
def LaneW.tk (w : LaneW) : Bool := bit w.tl 0
/-- IMM16 with TK = 0 (R91). -/
def LaneW.imm16 (w : LaneW) : Nat := bits w.tl 31 16
/-- The vc field (R91). -/
def LaneW.vc (w : LaneW) : Nat := bits w.tl 31 27
/-- FN (R91). -/
def LaneW.fn (w : LaneW) : Nat := bits w.tl 26 16
/-- RM (R94). -/
def LaneW.rm (w : LaneW) : Nat := bits w.tl 15 13
def LaneW.fi (w : LaneW) : Bool := bit w.tl 12
def LaneW.fo (w : LaneW) : Bool := bit w.tl 11
def LaneW.sat (w : LaneW) : Bool := bit w.tl 10
def LaneW.ta (w : LaneW) : Bool := bit w.tl 9
def LaneW.tb (w : LaneW) : Bool := bit w.tl 8
def LaneW.tc (w : LaneW) : Bool := bit w.tl 7
/-- LPA and LPB (R94). -/
def LaneW.lpa (w : LaneW) : Nat := bits w.tl 6 4
def LaneW.lpb (w : LaneW) : Nat := bits w.tl 3 1
/-- XF of the cross-lane class (R98). -/
def LaneW.xf (w : LaneW) : Nat := bits w.tl 6 1
/-- ORD, SCP, REM and HINT of the memory class (R96). -/
def LaneW.ord (w : LaneW) : Nat := bits w.tl 15 13
def LaneW.scp (w : LaneW) : Nat := bits w.tl 12 10
def LaneW.rem (w : LaneW) : Bool := bit w.tl 6
def LaneW.hint (w : LaneW) : Nat := bits w.tl 5 4
/-- TY as a number. -/
def LaneW.t (w : LaneW) : Nat := w.ty.toNat
/-- Whether a word with TK = 0 has IMM16[15:8] not 0 for f8a or f8b (R374). -/
def LaneW.longImm8 (w : LaneW) : Bool := !w.tk && (w.t == 8 || w.t == 9) && 256 ≤ w.imm16

/-- ATOM's SP, NR and op, held in the vc field (R146). -/
def LaneW.atomSp (w : LaneW) : Bool := bit w.vc 4
def LaneW.atomNr (w : LaneW) : Bool := bit w.vc 3
def LaneW.atomOp (w : LaneW) : Nat := w.vc % 8

/-- The control word of ULD, UST and UATOM: the literal, or 0 with E = 0 (R163). -/
def UniW.cw (w : UniW) : Nat := match w.lit with | some t => t.toNat | none => 0

end Sys2Proof

namespace Sys2Proof.Machine

/-- What an arithmetic-class entry uses (R116): its types, whether it reads a, b and vc, has an immediate form, uses
SAT, writes a predicate, and the FN bits it defines. -/
structure ArithForm where
  tys : List Nat
  a : Bool
  b : Bool
  c : Bool
  imm : Bool
  sat : Bool
  pred : Bool
  fn : Nat
  deriving DecidableEq, Repr

/-- The integer types s8 to n64 (R63). -/
def tysInt : List Nat := [0, 1, 2, 3, 4, 5, 6, 7]
/-- The integer types and b64. -/
def tysBits : List Nat := [0, 1, 2, 3, 4, 5, 6, 7, 15]
/-- The six float types (R65). -/
def tysFloat : List Nat := [8, 9, 10, 11, 12, 13]
/-- Every type but q4x. -/
def tysMove : List Nat := [0, 1, 2, 3, 4, 5, 6, 7, 8, 9, 10, 11, 12, 13, 15]

/-- Two operands a and b, b an immediate or not. -/
def formAB (tys : List Nat) (imm sat : Bool) : ArithForm := ⟨tys, true, true, false, imm, sat, false, 0⟩
/-- One operand a. -/
def formA (tys : List Nat) (sat : Bool) (fn : Nat) : ArithForm := ⟨tys, true, false, false, false, sat, false, fn⟩
/-- Three operands. -/
def formABC (tys : List Nat) (sat : Bool) (fn : Nat) : ArithForm := ⟨tys, true, true, true, false, sat, false, fn⟩

/-- The arithmetic-class entries by opcode (R119 to R132). -/
def arithForms : AMap ArithForm :=
  [(0x01, formAB tysInt true true), (0x02, formAB tysInt true true), (0x03, formAB tysInt true true),
   (0x04, formAB tysInt true false), (0x05, formABC tysInt true 0), (0x06, formAB tysInt true false),
   (0x07, formAB tysInt true false), (0x08, formA [0, 1, 2, 3] true 0), (0x09, formA tysInt true 0),
   (0x0A, formAB tysBits true false), (0x0B, formAB tysBits true false), (0x0C, formAB tysBits true false),
   (0x0D, formAB tysBits true false), (0x0E, formAB tysBits true false), (0x0F, formAB tysBits true false)] ++
  [(0x10, formAB [0, 1, 2, 3] true false), (0x11, formAB tysBits true false), (0x12, formA tysBits false 0),
   (0x13, formA tysBits false 0), (0x14, formA tysBits false 0), (0x15, formAB [2, 3, 6, 7, 15] true false),
   (0x16, formABC [2, 3, 6, 7, 15] false 0), (0x17, ⟨[15], true, true, false, false, false, false, 0xF⟩),
   (0x18, ⟨tysInt, true, true, false, false, false, true, 0xF⟩),
   (0x19, ⟨tysMove, false, true, false, true, false, false, 0⟩), (0x1A, formAB [2, 6] true false),
   (0x1B, formAB [2, 6] true false), (0x1C, formABC [2, 6] true 3), (0x1D, formA tysInt false 0xF)] ++
  [(0x20, formAB tysFloat true true), (0x21, formAB tysFloat true true), (0x22, formAB tysFloat true true),
   (0x23, formABC tysFloat true 0), (0x24, formAB tysFloat true true), (0x25, formAB tysFloat true true),
   (0x26, ⟨tysFloat, true, true, false, false, false, true, 0xF⟩),
   (0x27, ⟨tysFloat, true, false, false, false, false, true, 0x7FF⟩), (0x28, formA tysFloat true 0),
   (0x29, formA tysFloat true 0), (0x2A, formA tysFloat true 0), (0x2B, formA tysFloat true 0),
   (0x2C, formA tysFloat true 0), (0x2D, formA [10, 11, 12] true 7)] ++
  [(0x2E, formA [8, 9, 10, 11, 12, 13, 14] true 0x7F), (0x2F, formA tysFloat true 0x7F), (0x30, formA tysInt true 0x7F),
   (0x31, formA tysFloat true 1), (0x32, formABC [10, 12] true 0xF), (0x33, formAB tysFloat false true)]

/-- The reason a condition adds. -/
def why (r : Nat) (c : Bool) : List Nat := if c then [r] else []

/-- The lowest of the reasons that apply (R370). -/
def lowest (l : List Nat) : Option Nat := l.foldl (fun m x => match m with | none => some x | some y => some (min x y)) none

/-- Whether the conversion of source type sf part c into type ty is excluded (R132). -/
def cvtBad (opc ty sf c : Nat) : Bool :=
  (if opc = 0x2E then !(8 ≤ sf && sf ≤ 14) || (sf == 14 && ty == 14) || (sf == 13 && ty == 14) || (sf == 14 && ty == 13)
   else if opc = 0x2F then 8 ≤ sf
   else !(8 ≤ sf && sf ≤ 13)) ||
  max (tyWidth sf) (tyWidth ty) / min (tyWidth sf) (tyWidth ty) ≤ c

/-- The operand limits of the arithmetic class (R374). -/
def arithLimits (opc : Nat) (w : LaneW) : List Nat :=
  if opc = 0x1D then why 12 (8 ≤ w.fn % 16)
  else if opc = 0x17 then why 12 (w.fn == 15)
  else if opc = 0x18 then why 12 (6 ≤ w.fn % 8)
  else if opc = 0x32 then why 3 (!((w.t, w.fn % 16) ∈ [(12, 10), (12, 11), (10, 8), (10, 9)]))
  else if opc = 0x2E || opc = 0x2F || opc = 0x30 then why 12 (cvtBad opc w.t (w.fn % 16) (bits w.fn 6 4))
  else []

/-- Reasons of an arithmetic-class word (R94, R95, R113, R116, R374). -/
def arithReasons (opc : Nat) (f : ArithForm) (w : LaneW) : List Nat :=
  why 3 (!f.tys.contains w.t || (w.t == 14 && !w.tk)) ++
  why 5 (5 ≤ w.rm) ++
  why 6 (w.lpa == 7 || w.lpb == 7 || (w.lpa == 6 && w.lpb == 6)) ++
  (if w.tk then
     why 4 (w.fn &&& f.fn != w.fn) ++ why 4 (!f.c && (w.vc != 0 || w.tc)) ++ arithLimits opc w
   else
     why 6 (w.lpb != 0 || w.vb != 0) ++ why 12 (!f.imm) ++ why 4 (w.longImm8 || w.tc)) ++
  why 4 (!f.a && (w.va != 0 || w.ta || w.lpa != 0)) ++
  why 4 (!f.b && (w.vb != 0 || w.tb || w.lpb != 0)) ++
  why 4 (!f.sat && w.sat) ++
  why 4 (f.pred && (8 ≤ w.vd.toNat || w.fo))

/-- What a cross-lane entry uses (R134): types, whether va is a data register, whether vb is, a predicate
destination, XF bits, FN bits. -/
structure XForm where
  tys : List Nat
  a : Bool
  b : Bool
  pred : Bool
  xf : Nat
  fn : Nat
  deriving DecidableEq, Repr

/-- The cross-lane entries by opcode (R134). -/
def xForms : AMap XForm :=
  [(0x40, ⟨tysMove, true, true, false, 1, 0⟩), (0x41, ⟨[15], true, false, false, 7, 0⟩),
   (0x42, ⟨[15], false, false, false, 7, 0⟩), (0x43, ⟨tysMove, true, false, false, 0x1F, 0⟩),
   (0x44, ⟨tysMove, true, false, false, 0xF, 0⟩), (0x45, ⟨tysMove, true, false, false, 0x3F, 0⟩),
   (0x46, ⟨[0, 1, 2, 3, 4, 5, 6, 7, 8, 9, 10, 11, 12, 13, 14], true, true, false, 0, 0xF⟩),
   (0x47, ⟨[0, 1, 2, 3, 4, 5, 6, 7, 8, 9, 10, 11, 12, 13], true, false, false, 1, 0xF⟩),
   (0x48, ⟨[15], false, false, true, 0, 0⟩), (0x49, ⟨tysBits, false, false, false, 7, 0⟩)]

/-- The modifiers that a PACK or UNPACK pair may set: RM, FI, FO together, and SAT; none for a pair not permitted (R140,
R141). DESIGN CHOICE (log 115): R133 has them 0 unless the entry uses them; a pair with q4x may set all four, a float pair
too, an integer pair SAT only. -/
def packMods (wide narrow : Nat) : Option (Bool × Bool) :=
  if wide < 8 && narrow < 8 then (if tyWidth wide = 2 * tyWidth narrow then some (false, true) else none)
  else if narrow == 14 && (wide == 0 || wide == 4 || wide == 8 || wide == 9) then some (true, true)
  else if (wide, narrow) ∈ [(13, 12), (12, 10), (12, 11), (10, 8), (10, 9), (11, 8), (11, 9)] then some (true, true)
  else none

/-- Which of (RM, FI, FO) and of SAT a cross-lane word may set, and the reasons of its op and pair. A PACK or UNPACK with
TK = 0 has no FN to name a pair. -/
def xMods (opc : Nat) (w : LaneW) : (Bool × Bool) × List Nat :=
  if opc = 0x43 || opc = 0x44 then
    let op := w.xf % 8
    ((tyFloat w.t, tyFloat w.t || (op == 0 && w.t != 15)),
     why 12 (6 ≤ op) ++ why 3 ((op ≤ 2 && w.t == 15) || (3 ≤ op && op ≤ 5 && tyFloat w.t)))
  else if (opc = 0x46 || opc = 0x47) && !w.tk then ((true, true), [])
  else if opc = 0x46 then
    match packMods (w.fn % 16) w.t with
    | some m => (m, [])
    | none => ((false, false), [3])
  else if opc = 0x47 then
    match packMods w.t (w.fn % 16) with
    | some m => (m, [])
    | none => ((false, false), [3])
  else if opc = 0x45 then
    ((false, false), if w.xf % 4 < 2 then why 4 (4 ≤ w.xf) else why 12 (tyCount w.t ≤ w.xf / 4))
  else if opc = 0x42 then
    ((false, false), why 4 ((w.xf % 4 != 3 && 8 ≤ w.vd.toNat) || 8 ≤ w.va.toNat))
  else if opc = 0x49 then ((false, false), why 12 (w.xf % 8 == 7))
  else ((false, false), [])

/-- Reasons of a cross-lane word (R98, R113, R133, R134, R374). -/
def xReasons (opc : Nat) (f : XForm) (w : LaneW) : List Nat :=
  let readsB := f.b || (opc == 0x45 && w.xf % 4 == 0)
  let m := xMods opc w
  why 3 (!f.tys.contains w.t || (w.t == 14 && !w.tk)) ++ why 5 (5 ≤ w.rm) ++ why 12 (!w.tk) ++ why 4 w.longImm8 ++
  why 4 (w.tk && (w.vc != 0 || w.fn &&& f.fn != w.fn)) ++ why 4 (w.tc || w.xf &&& f.xf != w.xf) ++
  why 4 (!f.a && w.ta) ++ why 4 (!f.a && opc != 0x42 && w.va != 0) ++
  why 4 (!readsB && (w.vb != 0 || w.tb)) ++
  why 4 (f.pred && 8 ≤ w.vd.toNat) ++
  why 4 (!m.1.1 && (w.rm != 0 || w.fi || w.fo)) ++ why 4 (!m.1.2 && w.sat) ++ m.2

/-- What a memory entry uses (R143): types, whether vd and vb are registers, whether the vc field is used, the
permitted ORD values, whether REM and HINT are permitted. -/
structure MemForm where
  tys : List Nat
  d : Bool
  b : Bool
  c : Bool
  ords : List Nat
  rem : Bool
  hint : Bool
  deriving DecidableEq, Repr

/-- The memory entries by opcode (R143). -/
def memForms : AMap MemForm :=
  [(0x50, ⟨tysMove, true, false, false, [0, 1, 2], true, true⟩), (0x51, ⟨tysMove, false, true, false, [0, 1, 3], false, true⟩),
   (0x52, ⟨tysMove, true, false, false, [0, 1, 2], false, false⟩), (0x53, ⟨tysMove, false, true, false, [0, 1, 3], false, false⟩),
   (0x54, ⟨tysMove, true, false, false, [0, 1, 2], true, false⟩), (0x55, ⟨tysMove, false, true, false, [0, 1, 3], false, false⟩),
   (0x56, ⟨[2, 3, 6, 7, 15], true, true, true, [1, 2, 3, 4], true, true⟩),
   (0x57, ⟨[2, 3, 6, 7, 15], true, true, true, [1, 2, 3, 4], true, true⟩),
   (0x58, ⟨[10, 11, 12], false, true, false, [1, 3], false, true⟩)] ++
  [(0x59, ⟨[10, 11, 12], false, true, false, [1, 3], false, true⟩), (0x5A, ⟨[15], false, false, false, [0], false, true⟩),
   (0x5B, ⟨[15], true, false, false, [0], false, false⟩), (0x5C, ⟨[15], false, true, false, [0], false, false⟩),
   (0x5D, ⟨[15], false, false, false, [0], false, false⟩), (0x5E, ⟨[15], false, false, false, [0], false, false⟩)]

/-- Reasons of a memory word (R96, R113, R143, R146, R376). -/
def memReasons (opc : Nat) (f : MemForm) (w : LaneW) : List Nat :=
  why 3 (!f.tys.contains w.t) ++
  why 7 (!f.ords.contains w.ord || 5 ≤ w.scp || (w.ord == 0 && w.scp != 0)) ++
  why 7 (w.rem && (!f.rem || !(w.ord == 2 || w.ord == 4))) ++ why 7 (w.hint != 0 && !f.hint) ++
  why 4 (bits w.tl 3 1 != 0) ++ why 4 (!f.d && w.vd != 0) ++ why 4 (!f.b && (w.vb != 0 || w.tb)) ++
  why 4 (w.tc && opc != 0x57) ++
  (if opc = 0x56 || opc = 0x57 then
     if !w.tk then [12]
     else if opc = 0x56 then
       why 12 (w.atomNr && w.atomOp == 6) ++ why 4 (w.atomNr && w.vd != 0) ++
       why 3 (w.t == 15 && (w.atomOp ≤ 2 || w.atomOp == 7))
     else []
   else why 4 (w.tk && w.vc != 0))

/-- Reasons of a control-class word (R98, R152, R378). DEDUCED (log 146): va of SPAWN and SPAWNT, and TA, are used with a payload
count of 0 too, and may hold anything. -/
def ctlReasons (opc : Nat) (w : LaneW) : List Nat :=
  let tk0 := w.tail.isSome && !w.tk
  why 3 (w.t != 15) ++ why 4 (w.tl &&& 0xFC7E != 0) ++
  (if opc = 0x60 then why 4 (!tk0 || w.ta || w.tb || w.tc)
   else if opc = 0x63 then why 4 (w.tail.isSome || w.vd != 0 || w.va != 0 || w.vb != 0)
   else
     why 4 ((opc == 0x61 && !tk0) || (opc == 0x62 && (!w.tk || 64 ≤ w.fn))) ++
     why 4 (8 ≤ w.vb.toNat || w.tb || (opc == 0x61 && w.tc)) ++ why 12 (5 ≤ w.vb.toNat % 8))

/-- Reasons of a lane word (R113). -/
def laneReasons (opc : Nat) (w : LaneW) : List Nat :=
  why 1 (opc == 0) ++ why 2 (w.gn && w.gp == 7) ++
  match AMap.find? arithForms opc with
  | some f => arithReasons opc f w
  | none =>
  match AMap.find? xForms opc with
  | some f => xReasons opc f w
  | none =>
  match AMap.find? memForms opc with
  | some f => memReasons opc f w
  | none => if 0x60 ≤ opc && opc ≤ 0x63 then ctlReasons opc w else []

/-- What a UREG entry uses (R158, R165, R173, R188): its register fields, its F5 bits, and how it takes E = 1: 0 not
at all, 1 in place of kb, 2 as the control word of R163. -/
structure UForm where
  d : Bool
  a : Bool
  b : Bool
  f5 : Nat
  lit : Nat
  deriving DecidableEq, Repr

/-- kd, ka and kb or a literal, with F5 bits. -/
def uDAB (f5 : Nat) : UForm := ⟨true, true, true, f5, 1⟩

/-- The UREG entries by opcode. -/
def uForms : AMap UForm :=
  [(0x01, uDAB 0), (0x02, uDAB 0), (0x03, uDAB 0), (0x04, uDAB 1), (0x05, uDAB 1), (0x06, uDAB 1), (0x07, uDAB 0),
   (0x08, uDAB 0), (0x09, uDAB 0), (0x0A, uDAB 0), (0x0B, uDAB 0), (0x0C, uDAB 0), (0x0D, ⟨true, true, false, 0, 0⟩),
   (0x0E, ⟨true, true, false, 0, 0⟩), (0x0F, uDAB 1), (0x10, uDAB 0), (0x11, ⟨true, false, true, 0, 1⟩), (0x12, uDAB 0),
   (0x13, uDAB 0), (0x14, uDAB 0xF), (0x15, uDAB 1), (0x16, uDAB 1), (0x17, ⟨true, false, false, 0x1F, 0⟩)] ++
  [(0x18, ⟨true, true, true, 0, 2⟩), (0x19, ⟨true, true, true, 0, 2⟩), (0x1A, ⟨true, true, true, 0x1F, 2⟩),
   (0x24, ⟨true, true, false, 0, 0⟩), (0x25, ⟨false, false, false, 0, 0⟩), (0x26, ⟨true, false, false, 0, 0⟩),
   (0x29, ⟨false, false, false, 0, 0⟩), (0x2A, ⟨false, false, false, 0x1F, 0⟩), (0x2B, ⟨false, false, false, 0x1F, 0⟩),
   (0x2C, ⟨false, false, false, 0, 0⟩), (0x2D, ⟨false, true, false, 0, 0⟩)] ++
  [(0x30, ⟨false, false, false, 0, 0⟩), (0x31, ⟨false, false, false, 0x1F, 0⟩), (0x32, ⟨false, false, false, 0x1F, 0⟩),
   (0x33, ⟨true, false, false, 0, 0⟩), (0x34, ⟨false, false, true, 0, 1⟩), (0x35, ⟨false, true, false, 0, 0⟩),
   (0x36, ⟨false, true, true, 0, 1⟩), (0x37, ⟨true, false, false, 0, 0⟩), (0x38, ⟨false, false, false, 1, 0⟩),
   (0x39, ⟨false, true, false, 0xF, 0⟩), (0x3A, ⟨true, false, false, 0xF, 0⟩)] ++
  [(0x40, ⟨false, true, true, 3, 1⟩), (0x41, ⟨false, true, true, 3, 1⟩), (0x42, ⟨false, true, false, 0, 0⟩),
   (0x43, ⟨false, true, false, 0, 0⟩), (0x44, ⟨false, true, false, 0, 0⟩), (0x45, uDAB 0), (0x46, uDAB 7), (0x47, uDAB 7),
   (0x48, uDAB 0xF), (0x49, uDAB 0xF), (0x4A, ⟨true, false, true, 7, 1⟩), (0x4B, ⟨false, false, true, 0, 1⟩),
   (0x4C, ⟨false, true, true, 1, 1⟩), (0x4D, ⟨false, false, true, 7, 1⟩), (0x4E, ⟨false, true, true, 1, 1⟩),
   (0x4F, ⟨false, false, false, 0, 0⟩), (0x50, ⟨false, false, false, 0, 0⟩), (0x51, ⟨false, true, true, 0, 1⟩)] ++
  [(0x52, ⟨false, false, false, 0, 0⟩), (0x53, ⟨true, true, true, 7, 0⟩), (0x54, ⟨false, true, false, 0, 0⟩),
   (0x55, ⟨true, true, false, 0, 0⟩), (0x56, ⟨false, true, false, 0, 0⟩), (0x57, ⟨true, false, false, 0, 0⟩),
   (0x58, ⟨true, false, true, 0, 1⟩), (0x59, ⟨true, true, true, 0, 0⟩), (0x64, ⟨false, true, true, 3, 1⟩)]

/-- Reasons of the control word of R163 (R379). -/
def ctlWordReasons (opc : Nat) (w : UniW) : List Nat :=
  let cw := w.cw
  let o := bits cw 15 13; let scp := bits cw 12 10; let sz := bits cw 9 8; let sx := bit cw 7
  let rem := bit cw 6; let hint := bits cw 5 4; let sp := bits cw 3 2
  let ords := if opc = 0x18 then [0, 1, 2] else if opc = 0x19 then [0, 1, 3] else [1, 2, 3, 4]
  why 7 (!ords.contains o || 5 ≤ scp || (o == 0 && scp != 0)) ++
  why 7 (rem && (opc == 0x19 || !(o == 2 || o == 4))) ++
  why 12 (sp == 3 || (hint != 0 && sp != 0) || (sx && opc != 0x18) || (opc == 0x1A && (sp == 1 || sz == 1 || sz == 2))) ++
  why 4 (bits cw 1 0 != 0)

/-- The operand limits of the UREG entries. -/
def uLimits (opc : Nat) (w : UniW) : List Nat :=
  let f := w.f5.toNat; let d := w.kd.toNat; let a := w.ka.toNat
  if opc = 0x14 then why 12 (6 ≤ f % 8)
  else if opc = 0x17 then why 12 (6 ≤ f)
  else if opc = 0x1A then why 12 (f % 8 == 6 && bit f 3) ++ why 4 (bit f 3 && d != 0)
  else if opc = 0x24 then why 12 (33 ≤ d)
  else if opc = 0x26 then why 12 (d % 4 != 0 || d < 4 || 32 < d)
  else if opc = 0x32 then why 12 (5 ≤ f % 8 || f / 8 == 3)
  else if opc = 0x41 then why 12 (bit f 0)
  else if opc = 0x48 || opc = 0x49 then why 4 (bit f 3 && (32 ≤ d || a != 0))
  else if opc = 0x4D then
    if bit f 2 then [] else why 8 w.lit.isSome ++ why 4 (w.kb != 0)
  else if opc = 0x57 || opc = 0x58 then why 12 (d == 0 || 57 ≤ d)
  else if opc = 0x59 then why 12 (a == 0 || 57 ≤ a)
  else if opc = 0x64 then why 12 (f % 4 == 3)
  else []

/-- Reasons of a UREG word (R104, R157, R158, R165, R173, R188). -/
def uniReasons (opc : Nat) (w : UniW) : List Nat :=
  if opc = 0 then why 1 (w.lit.isSome || w.kd != 0 || w.ka != 0 || w.kb != 0 || w.f5 != 0)
  else
    let f := (AMap.find? uForms opc).getD ⟨true, true, true, 0x1F, 1⟩
    why 8 (w.lit.isSome && (f.lit == 0 || (f.lit == 1 && w.kb != 0))) ++
    why 4 ((!f.d && w.kd != 0) || (!f.a && w.ka != 0) || (!f.b && w.kb != 0)) ++
    why 4 (w.f5.toNat &&& f.f5 != w.f5.toNat) ++ uLimits opc w ++
    (if f.lit = 2 then ctlWordReasons opc w else [])

/-- The user CSRs of R58 and the trap and debug CSRs of R354 that software may write. -/
def csrRW : List Nat :=
  [0x010, 0x020, 0x021, 0x100, 0x102, 0x103, 0x108, 0x109, 0x10A, 0x10B, 0x110, 0x111, 0x112, 0x113, 0x118, 0x119,
   0x11A, 0x11B, 0x1F0]

/-- The CSRs that software may only read (R58, R354). -/
def csrRO : List Nat :=
  [0x000, 0x001, 0x002, 0x003, 0x004, 0x005, 0x006, 0x007, 0x008, 0x030, 0x031, 0x032, 0x040, 0x050, 0x060, 0x101,
   0x104, 0x105, 0x106, 0x107]

/-- A Stoker-privileged CSR number (R58, R113). -/
def csrPriv (n : Nat) : Bool := 0x200 ≤ n && n ≤ 0x3FF

/-- Reasons of a UCSR word (R104, R113, R185, R354). -/
def csrReasons (opc : Nat) (w : CsrW) : List Nat :=
  let n := w.csr.toNat
  why 4 (w.low != 0) ++ why 8 (w.lit.isSome && (opc == 0x60 || w.r != 0)) ++
  why 10 (!csrPriv n && !(csrRW.contains n || (opc == 0x60 && csrRO.contains n)))

/-- Reasons of a UBRK word (R104, R165). -/
def brkReasons (opc : Nat) (w : BrkW) : List Nat :=
  let off := w.off.toInt
  why 8 (w.lit.isSome && (opc != 0x27 || w.r != 0)) ++ why 12 (opc == 0x23 && 33 ≤ w.r.toNat) ++
  why 12 (opc == 0x27 && off < (if w.lit.isSome then 2 else 1))

/-- Reasons of an instruction's own words. -/
def formReasons : Form → List Nat
  | .lane opc w => laneReasons opc w
  | .uni opc w => uniReasons opc w
  | .br _ w => why 8 w.lit.isSome
  | .brk opc w => brkReasons opc w
  | .rep w => why 9 (w.lit.isSome || w.low != 0)
  | .csr opc w => csrReasons opc w
  | .step => []

/-- The ILLEGAL reason of an instruction's words, whatever the state, or none (R113, R370). -/
def illegalReason (i : Instr) : Option Nat := lowest (formReasons i.form)

/-- The instructions reserved to launches with ENG (R389). -/
def needsEng : Form → Bool
  | .lane opc _ => opc == 0x2D || opc == 0x5E
  | .uni opc _ => (0x45 ≤ opc && opc ≤ 0x52) || opc == 0x54
  | .csr opc w => opc != 0x60 && w.csr.toNat == 0x1F0
  | _ => false

/-- MBRECV, MBFWD and BLKGO run only in a Hearth context (R113, R207). -/
def hearthOnly : Form → Bool
  | .uni opc _ => 0x57 ≤ opc && opc ≤ 0x59
  | _ => false

/-- The PRIV trap's DETAIL2 of an instruction, if it raises one: 0xFFF for a Hearth command outside a Hearth
context, or the number of a Stoker-privileged CSR (R113, R357). -/
def privDetail (i : Instr) (hearth : Bool) : Option Nat :=
  match i.form with
  | .csr _ w => if csrPriv w.csr.toNat then some w.csr.toNat else none
  | f => if hearthOnly f && !hearth then some 0xFFF else none

end Sys2Proof.Machine
end

