-- ==== Sys2Proof/WellFormed.lean ====
section
/-! DEFINITION. Well-formed instructions: those whose words break no rule of R113 (the limits of every field are in
Machine/Legal.lean). A step of another agent has no words and is well formed. -/
namespace Sys2Proof

/-- Whether an instruction's words raise no ILLEGAL by themselves (R113, R370). -/
def WellFormed (i : Instr) : Bool := (Machine.illegalReason i).isNone

end Sys2Proof
end

