-- ==== Sys2Proof/Machine/Ops.lean ====
section
/-! DEFINITION. The named operations on the state: cores, warps and registers, physical memory, events, taking a trap
(R349 to R362) and returning from one (R360), completing an instruction (R56, R169), and the gate that every
instruction passes at issue (R113, R351, R364). -/
namespace Sys2Proof.Machine

/-! ## Cores, dies and warps -/

/-- The core of a global number, 192·die + in-die number (R9). -/
def State.core (s : State) (c : Nat) : Core := AMap.get Core.reset s.cores c
def State.setCore (s : State) (c : Nat) (x : Core) : State := { s with cores := s.cores.set c x }
/-- The die of a number (R8). -/
def State.die (s : State) (d : Nat) : Die := AMap.get Die.reset s.dies d
def State.setDie (s : State) (d : Nat) (x : Die) : State := { s with dies := s.dies.set d x }
/-- The warp in a slot of a core. -/
def State.warpAt (s : State) (c k : Nat) : Warp := AMap.get Warp.free (s.core c).warps k
def State.setWarpAt (s : State) (c k : Nat) (w : Warp) : State :=
  s.setCore c { s.core c with warps := (s.core c).warps.set k w }
/-- The warp that issues. -/
def State.w (s : State) : Warp := s.warpAt s.curCore s.curSlot
def State.setW (s : State) (w : Warp) : State := s.setWarpAt s.curCore s.curSlot w
/-- The core that issues. -/
def State.co (s : State) : Core := s.core s.curCore
def State.setCo (s : State) (c : Core) : State := s.setCore s.curCore c
/-- The launch of a number. -/
def State.launch? (s : State) (n : Nat) : Option Launch := AMap.find? s.launches n
def State.setLaunch (s : State) (n : Nat) (l : Launch) : State := { s with launches := s.launches.set n l }
/-- The launch of the issuing warp; none in a Hearth context. -/
def State.curLaunch? (s : State) : Option Launch :=
  if s.w.kind = .hearth then none else s.launch? s.w.launch
def State.setQueue (s : State) (n : Nat) (q : Queue) : State := { s with queues := s.queues.set n q }

/-- The die of a core, its in-die number, and its channel group (R9, R143). -/
def dieOf (c : Nat) : Nat := c / 192
def inDie (c : Nat) : Nat := c % 192
def groupOf (c : Nat) : Nat := inDie c / 12
/-- COREID: die in [10:8], group in [7:4], core in group in [3:0] (R9, R20). -/
def coreId (c : Nat) : Nat := 256 * dieOf c + 16 * groupOf c + inDie c % 12

/-- Draw n free values: where they start, and the state behind them (log 11). -/
def State.draw (s : State) (n : Nat) : Nat × State := (s.freeCtr, { s with freeCtr := s.freeCtr + n })

/-! ## Registers -/

/-- k register r: k0 reads 0 (R44). -/
def Warp.k (w : Warp) (r : Nat) : Word := if r = 0 then 0 else AMap.get 0 w.kregs r
/-- Write k register r, and clear its poison; a write to k0 is discarded (R44, R394). -/
def Warp.setK (w : Warp) (r : Nat) (x : Word) : Warp :=
  if r = 0 then w else { w with kregs := w.kregs.set r x, kPoison := w.kPoison.filter fun p => p.reg ≠ r }
/-- v register r of the current frame (R45, R46). -/
def Warp.v (w : Warp) (r : Nat) : Lanes := AMap.get zeroLanes w.vregs (w.base + r)
/-- Write whole lanes of the v register at a stack offset, and clear the poison of those lanes (R394). -/
def Warp.setOff (w : Warp) (off : Nat) (m : LaneMask) (x : Lanes) : Warp :=
  { w with vregs := w.vregs.set off (Lanes.merge m x (AMap.get zeroLanes w.vregs off)),
           vPoison := w.vPoison.filter fun p => !(p.reg == off && m.getLsbD p.lane) }
/-- Write whole lanes of v register r of the current frame. -/
def Warp.setV (w : Warp) (r : Nat) (m : LaneMask) (x : Lanes) : Warp := w.setOff (w.base + r) m x
/-- Predicate p: p7 reads true in every lane (R44). -/
def Warp.p (w : Warp) (r : Nat) : LaneMask := if r = 7 then 0xFFFFFFFF else AMap.get 0 w.preds r
/-- Write lanes of predicate p; a write to p7 is discarded (R44). -/
def Warp.setP (w : Warp) (r : Nat) (m x : LaneMask) : Warp :=
  if r = 7 then w else { w with preds := w.preds.set r ((w.p r &&& ~~~m) ||| (x &&& m)) }
/-- Whether a v register of the current frame is empty (R50). -/
def Warp.vIsEmpty (w : Warp) (r : Nat) : Bool := w.vEmpty.contains (w.base + r)
def Warp.kIsEmpty (w : Warp) (r : Nat) : Bool := w.kEmpty.contains r

/-- The lanes that act in a lane instruction (R89). -/
def Warp.acts (w : Warp) (i : LaneW) : LaneMask :=
  w.active &&& (if i.gn then ~~~(w.p i.gp.toNat) else w.p i.gp.toNat)

/-- Whether the warp is in a trap handler (R355). -/
def Warp.inTrap (w : Warp) : Bool := w.tstat.getLsbD 0

/-- The number of frame registers resident below the top of the current frame, from the oldest resident frame (R47).
Spilled frames are the oldest ones: the resident stack starts at the base of the oldest frame not spilled. -/
def frameBases (base m : Nat) : List Link → List (Nat × Nat)
  | [] => [(base, m)]
  | l :: ls => (base, m) :: frameBases (base - (l.callerM - l.n)) l.callerM ls

/-- Bases and sizes of the frames, newest first (R46). -/
def Warp.frames (w : Warp) : List (Nat × Nat) := frameBases w.base w.m w.links

/-- Bottom of the oldest resident frame (R47). -/
def Warp.bottom (w : Warp) : Nat :=
  match (w.frames.take (w.frames.length - w.spilled.length)).getLast? with
  | some f => f.1
  | none => w.base + w.m

/-- Occupancy of the register stack (R47). -/
def Warp.occupancy (w : Warp) : Nat := w.base + w.m - w.bottom

/-! ## Physical memory and events -/

/-- REGION of a physical address (R209). -/
def regionOf (pa : Nat) : Nat := bits pa 45 44
/-- The die and the channel group that own a physical address of region 00 (R209). -/
def paDie (pa : Nat) : Nat := bits pa 39 37
def paGroup (pa : Nat) : Nat := bits pa 36 33

/-- The 64-byte granules that n bytes from an address touch. -/
def granules (a n : Nat) : List Nat := if n = 0 then [] else (List.range ((a + n - 1) / 64 - a / 64 + 1)).map (a / 64 + ·)

/-- The granules that n bytes from an address cover whole. -/
def wholeGranules (a n : Nat) : List Nat := (granules a n).filter fun g => a ≤ 64 * g && 64 * g + 64 ≤ a + n

/-- Read n bytes of device memory, or of host or peer memory as the outside answers (log 9). -/
def State.readPhys (s : State) (pa n : Nat) : List Byte × State :=
  if regionOf pa = 0 then (s.mem.bytes pa n, s)
  else
    let d := s.draw n
    ((List.range n).map fun i => Config.busByte (d.1 + i), d.2)

/-- Write bytes of device memory, clearing the poison of granules written whole (R394), or send them to a port. -/
def State.writePhys (s : State) (pa : Nat) (b : List Byte) : State :=
  if regionOf pa = 0 then
    { s with mem := s.mem.writeBytes pa b,
             memPoison := s.memPoison.filter fun g => !(wholeGranules pa b.length).contains g,
             dirtyPoison := s.dirtyPoison.filter fun g => !(wholeGranules pa b.length).contains g }
  else { s with busWrites := s.busWrites ++ [(pa, b)] }

/-- Whether a byte range of device memory holds poison (R393). -/
def State.poisoned (s : State) (pa n : Nat) : Bool := (granules pa n).any fun g => s.memPoison.contains g

/-- QSTATE as the status block shows it (R424). -/
def Queue.qstate (q : Queue) : Nat := q.state + 2 ^ 32 * q.evlost.toNat

/-- Whether a physical address lies on an isolated die, or on one that has fenced itself and so counts as isolated
(R438, R439). -/
def State.onLostDie (s : State) (pa : Nat) : Bool :=
  regionOf pa == 0 && ((s.die (paDie pa)).isolated || (s.die (paDie pa)).fenced)

/-- The die that a host port sits on (R335, R437). -/
def portDie (port : Nat) : Nat := if port = 0 then 0 else 7

/-- Whether the port that an address of region 01 or 10 names answers: one on an isolated or fenced die does not (R209, R437,
R439). -/
def State.portAnswers (s : State) (pa : Nat) : Bool :=
  let d := s.die (portDie (bits pa 43 43))
  regionOf pa != 3 && !d.isolated && !d.fenced

/-- The same bus address by the other host port (R209). -/
def otherPort (pa : Nat) : Nat := if bits pa 43 43 = 0 then pa + 2 ^ 43 else pa - 2 ^ 43

/-- The address by which the Stoker reaches memory: the host's memory through the other port where the one that it names does
not answer, DEDUCED (log 130) from R335 and R437. -/
def State.byLivePort (s : State) (pa : Nat) : Nat := if regionOf pa = 1 && !s.portAnswers pa then otherPort pa else pa

/-- Whether an address takes a write that the Stoker or another unit sends: one on a lost die does not (R437, R439, log
130). -/
def State.takes (s : State) (pa : Nat) : Bool := if regionOf pa = 0 then !s.onLostDie pa else s.portAnswers pa

/-- A write that the Stoker or another unit sends to memory, if it takes one. -/
def State.sendWrite (s : State) (pa : Nat) (b : List Byte) : State :=
  if s.takes (s.byLivePort pa) then s.writePhys (s.byLivePort pa) b else s

/-- Write one 8-byte field of a queue's status block (R325). -/
def State.writeStatus (s : State) (q : Queue) (off x : Nat) : State := s.sendWrite (q.status + off) (leBytes 8 x)

/-- Write a queue's QSTATE (R424). -/
def State.writeQState (s : State) (n : Nat) : State :=
  match AMap.find? s.queues n with
  | some q => s.writeStatus q 16 q.qstate
  | none => s

/-- The 32 bytes of an event (R325): type, kind or flags, queue, packet number, TIME and a last word. -/
def eventBytes (type kind queue num time last : Nat) : List Byte :=
  leBytes 2 type ++ leBytes 2 kind ++ leBytes 4 queue ++ leBytes 8 num ++ leBytes 8 time ++ leBytes 8 last

/-- The die that rejects a stale request (R347, R392): the one that owns the address, or that of the host port it names. -/
def rejectDie (pa : Nat) : Nat := if regionOf pa = 0 then paDie pa else portDie (bits pa 43 43)

/-- Whether an event write of the Stoker at an address is performed: a host port may fail it, by a free status (R429, log
16). -/
def State.takesWrite (s : State) (pa : Nat) : Bool × State :=
  if regionOf pa = 0 || !s.takes pa then (s.takes pa, s) else (Config.portStatus s.freeCtr == 0, (s.draw 1).2)

/-- EVLOST one higher, or saturated (R429). -/
def Queue.loseEvent (q : Queue) : Queue := { q with evlost := if q.evlost = 0xFFFFFFFF then q.evlost else q.evlost + 1 }

/-- An event of a queue is lost (R429). -/
def State.loseEvent (s : State) (n : Nat) (q : Queue) : State := (s.setQueue n q.loseEvent).writeStatus q 16 q.loseEvent.qstate

/-- Where a queue's next event goes (R429). -/
def Queue.eventPa (q : Queue) : Nat := q.evring + q.evw.toNat % q.evsize

/-- Post an event to a queue's event ring (R429): the bytes, then EVW, then MSI-X; an event that meets a full ring, or that
the host port cannot write, is lost. -/
def State.postEvent (s : State) (n : Nat) (b : List Byte) : State :=
  match AMap.find? s.queues n with
  | none => s
  | some q =>
    if (q.evw - q.evr).toNat = q.evsize then s.loseEvent n q
    else
      let pa := s.byLivePort q.eventPa
      let t := s.takesWrite pa
      if !t.1 then t.2.loseEvent n q
      else
        let s := t.2.writePhys pa b
        let q' := { q with evw := q.evw + 32 }
        let s := (s.setQueue n q').writeStatus q' 24 q'.evw.toNat
        { s with msix := s.msix ++ [n % 64] }

/-! ## Traps -/

/-- A trap: its group and detail (R356, R357). -/
structure Trap where
  group : Nat
  d0 : BitVec 32
  d1 : BitVec 32
  d2 : BitVec 32
  unif : Bool
  async : Bool
  /-- The resume address of BRK and TRAP, the following instruction (R350). -/
  next : Option Word
  /-- For XLATE: whether the access writes. -/
  wr : Bool
  deriving DecidableEq, Repr

/-- Why an instruction does not complete at this issue: it stalls and nothing changes (R51, R52, R177, R187), or it
traps. -/
inductive Stop where
  | stall
  | trap (t : Trap)
  deriving DecidableEq, Repr

/-- A trap of a group with three detail words, for a lane or uniform instruction. -/
def trapOf (unif : Bool) (group : Nat) (d0 d1 d2 : Nat) : Trap :=
  ⟨group, BitVec.ofNat 32 d0, BitVec.ofNat 32 d1, BitVec.ofNat 32 d2, unif, false, none, false⟩

/-- The cause groups (R356). -/
def gFETCH : Nat := 1
def gXLATE : Nat := 2
def gPERM : Nat := 3
def gGEN : Nat := 4
def gALIGN : Nat := 5
def gILLEGAL : Nat := 6
def gPRIV : Nat := 7
def gEMPTY : Nat := 8
def gWINDOW : Nat := 9
def gLOOP : Nat := 10
def gACCBUSY : Nat := 11
def gMATRIX : Nat := 12
def gSORT : Nat := 13
def gCOPY : Nat := 14
def gSTACKENG : Nat := 15
def gSPAWN : Nat := 16
def gJOIN : Nat := 17
def gTASK : Nat := 18
def gBATCH : Nat := 19
def gBREAK : Nat := 20
def gWATCH : Nat := 21
def gSWTRAP : Nat := 22
def gHWERR : Nat := 23
def gLINK : Nat := 24

/-- DETAIL2 of the memory form: reason, access, space and address bits [51:32] (R357). -/
def memDetail2 (reason access space va : Nat) : Nat := 2 ^ 28 * reason + 2 ^ 24 * access + 2 ^ 20 * space + bits va 51 32

/-- A trap in the memory form: the lanes, and the reported lane's address (R357). -/
def memTrap (unif : Bool) (group reason access space lanes va : Nat) (wr : Bool) : Trap :=
  { trapOf unif group lanes (va % 2 ^ 32) (memDetail2 reason access space va) with wr := wr }

/-- The address a trap resumes at: the instruction, or its REP prefix (R350). -/
def Warp.resume (w : Warp) (t : Trap) : Word :=
  match t.next with
  | some a => a
  | none => match w.rep with | some r => r.pc | none => w.pc

/-- TCAUSE of a trap: UNIF, ASYNC, GROUP (R355). -/
def Trap.cause (t : Trap) : BitVec 7 :=
  BitVec.ofNat 7 (t.group + (if t.async then 32 else 0) + (if t.unif then 64 else 0))

/-- Whether a trap sets TSTAT.SUPP: WATCH, or BREAK from a breakpoint address (R359). -/
def Trap.supp (t : Trap) : Bool := t.group == gWATCH || (t.group == gBREAK && t.d0.getLsbD 31)

/-- The handler's address (R355, R359). -/
def Warp.handler (w : Warp) (g : Nat) : Word :=
  let base := w.tvec &&& 0x000FFFFFFFFFFFFC
  if w.tvec.getLsbD 0 then (base &&& ~~~0x7FF#64) + BitVec.ofNat 64 (64 * g) else base

/-- Trap entry to the warp's handler (R359): the saved registers, the trap frame and the next address. -/
def Warp.enterTrap (w : Warp) (t : Trap) : Warp :=
  let rep := w.rep
  { w with
    tmask := w.active
    tepc := BitVec.setWidth 52 (w.resume t)
    tcause := t.cause
    detail0 := t.d0
    detail1 := t.d1
    detail2 := t.d2
    tstat := BitVec.ofNat 9 (1 + (if t.supp then 2 else 0) +
               match rep with | some r => 4 + 8 * r.next | none => 0)
    rep := none
    suppress := false
    links := ⟨BitVec.setWidth 64 (BitVec.setWidth 52 (w.resume t)), w.m, 0, w.entered, true⟩ :: w.links
    base := w.base + w.m
    m := 0
    entered := false
    pc := w.handler t.group }

/-- Whether a trap goes to the active Stoker: its group (R352), a handler already running (R361), no handler, or a
Hearth context. -/
def Warp.toStoker (w : Warp) (t : Trap) : Bool :=
  t.group == gFETCH || t.group == gGEN || t.group == gHWERR || t.group == gLINK || t.group == gJOIN ||
  w.tvec == 0 || w.inTrap || w.kind == .hearth

/-- The record of a warp's trap (R372). -/
def trapRec (c k : Nat) (w : Warp) (t : Trap) : TrapRec where
  addr := w.resume t
  coreid := coreId c
  d0 := t.d0
  d1 := t.d1
  d2 := t.d2
  mask := w.active
  cause := t.cause
  slot := k
  idx := w.idx
  flags := BitVec.ofNat 8 ((if w.inTrap then 1 else 0) + (if w.kind = .hearth then 2 else 0))

/-- Whether a record comes before another of the same cycle (R373): a warp's before a stop without a raising warp, then
the lower die and COREID, then the lower slot. -/
def TrapRec.before (a b : TrapRec) : Bool :=
  let none := fun (r : TrapRec) => r.flags.getLsbD 2
  (!none a && none b) || (none a == none b && (a.coreid < b.coreid || (a.coreid == b.coreid && a.slot < b.slot)))

/-- A launch records the first trap that reaches the Stoker, and among those of one cycle the first in the order of
R373. -/
def Launch.record (l : Launch) (r : TrapRec) (now : Nat) : Launch :=
  match l.trap with
  | none => { l with trap := some r, trapAt := now }
  | some x => if l.trapAt = now && r.before x then { l with trap := some r } else l

/-- Record a stop for a launch (R372, R443). -/
def State.recordTrap (s : State) (n : Nat) (r : TrapRec) : State :=
  match s.launch? n with
  | some l => s.setLaunch n (l.record r s.clock)
  | none => s

/-- Whether R396 handles an HWERR of a launch: a tensor launch whose policy is SKIP or WAIT. -/
def Launch.discardsTile (l : Launch) : Bool :=
  l.hdr.kind == 0 && (bits l.hdr.walk.toNat 12 11 == 1 || bits l.hdr.walk.toNat 12 11 == 2)

/-- An HWERR 2 counts against its core (R436). -/
def State.countHwerr (s : State) (c group reason : Nat) : State :=
  if group = gHWERR && reason = 2 then s.setCore c { s.core c with hwerr2 := (s.core c).hwerr2 ++ [s.time] } else s

/-- Deliver a trap of the warp in a slot to the active Stoker (R352, R372): the warp stops, and its launch records
the trap; a Hearth context's is the launch of the packet that it received last (log 56). A GEN trap adds no record
(R392), an HWERR 1 or 3 in a block of a tensor launch under SKIP or WAIT discards the tile (R396), and an HWERR 2 counts
against the core (R436). -/
def State.stokerTrap (s : State) (c k : Nat) (t : Trap) : State :=
  let w := s.warpAt c k
  let reason := t.d2.toNat / 2 ^ 28
  let s2 := (s.setWarpAt c k { w with park := some .stoker }).countHwerr c t.group reason
  if t.group = gGEN then s2
  else match s2.launch? w.launch with
    | none => s2
    | some l =>
      if t.group = gHWERR && (reason = 1 || reason = 3) && w.kind = .block && l.discardsTile then
        s2.setLaunch w.launch { l with discards := l.discards ++ [(c, w.block)] }
      else s2.setLaunch w.launch (l.record (trapRec c k w t) s.clock)

/-- The faulting address of a memory-form trap (R357). -/
def Trap.va (t : Trap) : Nat := t.d1.toNat + 2 ^ 32 * (t.d2.toNat % 2 ^ 20)

/-- A recoverable translation fault (R362, R363): the warp parks without writing a trap CSR, and the Stoker posts an
XFAULT event whose REPLAY flag tells a fault met again. -/
def State.parkXlate (s : State) (t : Trap) : State :=
  let w := s.w
  let iter := match w.rep with | some r => r.next | none => 0
  let here : Replay := ⟨w.pc, iter, t.va / 2 ^ 16⟩
  let again := w.replay == some here
  let flags := (if t.wr then 1 else 0) + (if again then 2 else 0) +
               (if bits t.d2.toNat 26 24 = 4 then 4 else 0)
  let s := s.setW { w with park := some (.xlate (BitVec.ofNat 64 t.va)), replay := some here }
  match s.launch? w.launch with
  | none => s
  | some l => s.postEvent l.queue
      (eventBytes 2 flags l.queue l.num s.time (t.va + 2 ^ 53 * coreId s.curCore))

/-- The detail of a trap names the word as encoded, also under REP (R107, R357). -/
def Warp.plainTrap (w : Warp) (t : Trap) : Trap :=
  match w.rep with
  | none => t
  | some r =>
    if t.group = gILLEGAL then
      { t with d0 := r.word, d1 := r.tail }
    else if t.group = gEMPTY then { t with d1 := r.word }
    else t

/-- Take a trap of the issuing warp (R350 to R362). -/
def State.takeTrap (s : State) (t : Trap) : State :=
  let t := s.w.plainTrap t
  if t.group = gXLATE then s.parkXlate t
  else if s.w.toStoker t then s.stokerTrap s.curCore s.curSlot t
  else s.setW (s.w.enterTrap t)

/-- Frames above and including the newest trap frame, discarded by TRET: the trap link and the links below it. -/
def dropToTrap : List Link → Nat → Option (Link × List Link × Nat)
  | [], _ => none
  | l :: ls, n => if l.trap then some (l, ls, n) else dropToTrap ls (n + 1)

/-- The base of a frame's caller (R46). -/
def callerBase (base : Nat) (l : Link) : Nat := base - (l.callerM - l.n)

/-- The base of the newest trap frame. -/
def trapBase (base : Nat) : List Link → Nat
  | [] => base
  | l :: ls => if l.trap then base else trapBase (callerBase base l) ls

/-- The return from a trap once the caller's frame is resident (R360): every frame from the trap frame up is
discarded, INTRAP clears, and the warp goes on at TEPC, at iteration REPJ of a REP when REPV = 1, once without
breakpoint and watchpoint checks when SUPP = 1. -/
def Warp.trapReturn (w : Warp) : Warp :=
  match dropToTrap w.links 0 with
  | none => { w with tstat := 0, pc := BitVec.setWidth 64 w.tepc }
  | some (l, ls, _) =>
    { w with
      links := ls
      base := trapBase w.base w.links - l.callerM
      m := l.callerM
      entered := l.callerEntered
      repFrom := if w.tstat.getLsbD 2 then (w.tstat.extractLsb' 3 6).toNat else 0
      suppress := w.tstat.getLsbD 1
      tstat := 0
      pc := BitVec.setWidth 64 w.tepc }

/-! ## Completing an instruction -/

/-- Process the loop frames that end at the address just completed, inner frames first (R169): the frames that
remain, and the first address of a frame that goes round again. -/
def loopFrames (x : Word) : List LoopFrame → List LoopFrame × Option Word
  | [] => ([], none)
  | f :: fs =>
    if f.last = x then
      if f.count - 1 = 0 then loopFrames x fs
      else ({ f with count := f.count - 1 } :: fs, some f.first)
    else (f :: fs, none)

/-- The warp after it completes the instruction at its pc, going on at next unless a loop frame ends there (R169). -/
def Warp.advance (w : Warp) (next : Word) : Warp :=
  let r := loopFrames w.pc w.loops
  { w with loops := r.1, pc := r.2.getD next, rep := none, repFrom := 0, replay := none, suppress := false }

/-- The warp after it completes an instruction or an iteration of a REP (R56, R107). -/
def Warp.complete (w : Warp) (next : Word) : Warp :=
  match w.rep with
  | some r =>
    if r.next + 1 < r.count then { w with rep := some { r with next := r.next + 1 }, replay := none, suppress := false }
    else w.advance r.after
  | none => w.advance next

/-- Complete the issuing warp's instruction. -/
def State.finish (s : State) (next : Word) : State := s.setW (s.w.complete next)

/-- Complete the issuing warp's instruction with a changed warp. -/
def State.finishW (s : State) (w : Warp) (next : Word) : State := s.setW (w.complete next)

/-- An instruction that stalls leaves everything as it was; the model notes that its warp stalled (R51, log 20). -/
def State.noteStall (s : State) : State := { s with stalled := (s.curCore, s.curSlot) :: s.stalled }

/-- The state an instruction leaves: its own, or the one before it when it stalls, or the one of its trap (R369). -/
def State.settle (s : State) : Except Stop State → State
  | .ok t => t
  | .error .stall => s.noteStall
  | .error (.trap t) => s.takeTrap t

/-! ## The gate at issue -/

/-- The instruction word and its second word, 0 if it has none (R357). -/
def wordsOf (i : Instr) : Nat × Nat :=
  match i.form.words with
  | some (w, some t) => (w.toNat, t.toNat)
  | some (w, none) => (w.toNat, 0)
  | none => (0, 0)

/-- Bytes of an instruction (R87). -/
def lenOf (i : Instr) : Word :=
  match i.form.words with
  | some (_, some _) => 8
  | _ => 4

/-- Whether the word's bit 31 is set (R31). -/
def isUni (i : Instr) : Bool := match i.form with | .lane _ _ => false | _ => true

/-- An ILLEGAL trap (R357). -/
def illegal (i : Instr) (reason : Nat) : Trap := trapOf (isUni i) gILLEGAL (wordsOf i).1 (wordsOf i).2 reason

/-- The reasons of ILLEGAL that depend on the state: TRET outside a handler, CHIM on a channel not armed at its level,
and an engine-state instruction in a launch without ENG (R360, R382, R389). DESIGN CHOICE (log 119): in a Hearth context,
which belongs to no launch, an engine-state instruction raises 13 too. -/
def stateReasons (i : Instr) (s : State) : List Nat :=
  (match i.form with
   | .uni 0x2C _ => why 11 (!s.w.inTrap)
   | .uni 0x31 w =>
     match AMap.find? (s.die (dieOf s.curCore)).chimney (w.f5.toNat % 16) with
     | none => [12]
     | some c => why 12 (c.module != bit w.f5.toNat 4 || c.launch != s.w.launch)
   | _ => []) ++
  why 13 (needsEng i.form && !(match s.curLaunch? with | some l => l.eng | none => false))

/-- The breakpoint that the instruction about to issue matches (R364). -/
def breakMatch (w : Warp) : Option Nat :=
  if w.suppress || w.rep.isSome || w.repFrom != 0 || w.active == 0 then none
  else (List.range 4).find? fun n =>
    let b := AMap.get 0 w.bpaddr n
    b.getLsbD 0 && b &&& 0x000FFFFFFFFFFFFC == w.pc &&& 0x000FFFFFFFFFFFFC && w.pc.toNat < 2 ^ 52

/-- Instructions that a warp waiting for a token may not issue: memory accesses, engine commands and synchronisation
(R184). -/
def afterToken : Form → Bool
  | .lane opc _ => (0x50 ≤ opc && opc ≤ 0x5E) || opc == 0x61 || opc == 0x62
  | .uni opc _ => (0x18 ≤ opc && opc ≤ 0x1A) || (0x30 ≤ opc && opc ≤ 0x3A) || (0x40 ≤ opc && opc ≤ 0x59)
  | _ => false

/-- The conditions that come before an instruction's own: ILLEGAL, PRIV, BREAK (R113, R351), and a pending token. -/
def gate (i : Instr) (s : State) : Except Stop Unit :=
  match lowest (formReasons i.form ++ stateReasons i s) with
  | some r => .error (.trap (illegal i r))
  | none =>
  match privDetail i (s.w.kind == .hearth) with
  | some d => .error (.trap (trapOf (isUni i) gPRIV (wordsOf i).1 (wordsOf i).2 d))
  | none =>
  match breakMatch s.w with
  | some n => .error (.trap (trapOf (isUni i) gBREAK (2 ^ 31 + n) (s.w.pc.toNat % 2 ^ 32) 0))
  | none => if afterToken i.form && s.w.vtokWaits != 0 then .error .stall else .ok ()

/-- Issue an instruction for the current warp: the gate, then the instruction's own meaning. -/
def issue (i : Instr) (s : State) (body : State → Except Stop State) : Host.Outcome State Fault Refusal :=
  if s.w.status = .live then
    .next (s.settle (match gate i s with | .error e => .error e | .ok () => body s))
  else .fault .noWarp

end Sys2Proof.Machine
end

