-- ==== Sys2Proof/Machine/Operands.lean ====
section
/-! DEFINITION. Operand forms: full/empty checks (R50 to R52, R366), poisoned sources (R394), lane patterns and the
Benes network (R99, R100, R136), immediates (R95), memory addresses (R97), and the frame that every lane instruction
of the arithmetic and cross-lane classes shares (R89, R101, R118, R133). -/
namespace Sys2Proof.Machine

/-- A register source of an instruction: its file and number, its trap bit, its operand position (0 a, 1 b, 2 c),
and which lanes of it an acting lane reads. -/
structure Src where
  isK : Bool
  reg : Nat
  trap : Bool
  pos : Nat
  reads : Nat → List Nat

/-- A v register that each lane reads for itself. -/
def vSrc (r : Nat) (t : Bool) (pos : Nat) : Src := ⟨false, r, t, pos, fun l => [l]⟩
/-- A k register of a uniform instruction, or the uniform register of an address. -/
def kSrc (r : Nat) : Src := ⟨true, r, false, 0, fun _ => [0]⟩

/-- Whether a source is empty (R50). -/
def Src.isEmpty (w : Warp) (x : Src) : Bool := if x.isK then w.kIsEmpty x.reg else w.vIsEmpty x.reg

/-- The full/empty check: a trapped empty source raises EMPTY at once, in operand order; otherwise an empty source or
destination stalls (R51, R52, R366). -/
def readyCheck (w : Warp) (i : Instr) (xs : List Src) (vd kd : Option Nat) : Except Stop Unit :=
  match xs.find? fun x => x.trap && x.isEmpty w with
  | some x => .error (.trap (trapOf (isUni i) gEMPTY (x.reg % 32 + (if x.isK then 32 else 0) + 64 * x.pos) (wordsOf i).1 0))
  | none =>
    if xs.any (fun x => x.isEmpty w) || (match vd with | some r => w.vIsEmpty r | none => false) ||
       (match kd with | some r => w.kIsEmpty r | none => false) then .error .stall
    else .ok ()

/-- The poison that an acting lane reads in a source (R394). -/
def Src.poison (w : Warp) (x : Src) (l : Nat) : Option RegPoison :=
  if x.isK then w.kPoison.find? fun p => p.reg == x.reg
  else w.vPoison.find? fun p => p.reg == w.base + x.reg && (x.reads l).contains p.lane

/-- The HWERR detail of a poisoned source (R394, R357). -/
def poisonTrap (unif : Bool) (lanes : LaneMask) (x : Src) (p : RegPoison) : Trap :=
  if p.reason = 2 then trapOf unif gHWERR lanes.toNat (x.reg + if x.isK then 64 else 0) (2 ^ 28 * 2)
  else if p.reason = 4 then trapOf unif gHWERR lanes.toNat (x.reg + 2 ^ 8 * p.tile + 2 ^ 11 * p.row) (2 ^ 28 * 4)
  else memTrap unif gHWERR p.reason 0 p.space lanes.toNat p.addr.toNat false

/-- The poisoned-source check over the acting lanes: the lowest-numbered lane's first poisoned source is reported
(R351, R394). -/
def poisonCheck (w : Warp) (unif : Bool) (m : LaneMask) (xs : List Src) : Except Stop Unit :=
  let bad := fun l => xs.findSome? fun x => (x.poison w l).map fun p => (x, p)
  let lanes := maskOf fun l => m.getLsbD l && (bad l).isSome
  match (lanesOf lanes).head? with
  | none => .ok ()
  | some l =>
    match bad l with
    | none => .ok ()
    | some (x, p) => .error (.trap (poisonTrap unif (if unif then 1 else lanes) x p))

/-- The checks of a uniform instruction's k sources and destination (R51, R52, R394). -/
def kCheck (w : Warp) (i : Instr) (ks : List Nat) (kd : Option Nat) : Except Stop Unit :=
  readyCheck w i (ks.map kSrc) none kd

/-- The poisoned k sources of a uniform instruction, checked last (R351, R394). -/
def kPoisonCheck (w : Warp) (ks : List Nat) : Except Stop Unit := poisonCheck w true 1 (ks.map kSrc)

/-! ## Lane patterns -/

/-- Exchange the values at two positions. -/
def swapAt (l : List Nat) (i j : Nat) : List Nat := (l.set i (l.getD j 0)).set j (l.getD i 0)

/-- Distance d of a Benes stage (R136). -/
def benesDist (s : Nat) : Nat := if s ≤ 4 then 4 - s else s - 4

/-- Lower position of switch j in a stage of distance d (R136). -/
def benesPos (d j : Nat) : Nat := ((j >>> d) <<< (d + 1)) ||| (j % 2 ^ d)

/-- One stage of the Benes network: each switch whose control bit is 1 exchanges its pair (R136). -/
def benesStage (c : BitVec 144) (s : Nat) (l : List Nat) : List Nat :=
  (List.range 16).foldl (fun l j =>
    if c.getLsbD (16 * s + j) then swapAt l (benesPos (benesDist s) j) (benesPos (benesDist s) j + 2 ^ benesDist s) else l) l

/-- The lane whose value each lane receives from the Benes network (R100, R136). -/
def benesFrom (c : BitVec 144) : List Nat := (List.range 9).foldl (fun l s => benesStage c s l) (List.range 32)

/-- The lane that lane l reads under a lane pattern (R99): 000 itself, 001 :rot, 010 :rev, 011 :p8, 100 :bcl,
110 :net. -/
def patLane (w : Warp) (code l : Nat) : Nat :=
  if code = 1 then (l + bits w.lpcfg0.toNat 4 0) % 32
  else if code = 2 then 31 - l
  else if code = 3 then 8 * (l / 8) + (w.lpcfg1.toNat >>> (3 * (l % 8))) % 8
  else if code = 4 then bits w.lpcfg0.toNat 9 5
  else if code = 6 then (benesFrom (AMap.get 0 w.benes (bits w.lpcfg0.toNat 12 10))).getD l 0
  else l

/-- The source of an operand under a lane pattern: a v register, or with 101 a k register (R99). -/
def patSrc (w : Warp) (r code : Nat) (t : Bool) (pos : Nat) : Src :=
  if code = 5 then ⟨true, r, t, pos, fun _ => [0]⟩ else ⟨false, r, t, pos, fun l => [patLane w code l]⟩

/-- The operand's value in lane l under a lane pattern (R99). -/
def patVal (w : Warp) (r code l : Nat) : Word := if code = 5 then w.k r else (w.v r).getD (patLane w code l) 0

/-- The element that IMM16 stands for in a type (R95). -/
def immElem (ty imm : Nat) : Nat :=
  if ty < 4 then (signExt 16 imm).toNat % 2 ^ tyWidth ty
  else if ty < 8 || ty = 15 then imm % 2 ^ tyWidth ty
  else if ty = 8 || ty = 9 then imm % 256
  else if ty = 12 || ty = 13 then (cvtF 10 ty 0 imm).pat
  else imm

/-- Operand b of an immediate form: the same element in every sub-element (R95). -/
def immVal (ty imm : Nat) : Word := packElems (tyWidth ty) (tyCount ty) fun _ => immElem ty imm

/-- SrcA(l) of an arithmetic-class instruction. -/
def srcA (w : Warp) (i : LaneW) (l : Nat) : Word := patVal w i.va.toNat i.lpa l
/-- SrcB(l): the register under its pattern, or the immediate with TK = 0. -/
def srcB (w : Warp) (i : LaneW) (l : Nat) : Word :=
  if i.tk then patVal w i.vb.toNat i.lpb l else immVal i.t i.imm16
/-- SrcC(l). -/
def srcC (w : Warp) (i : LaneW) (l : Nat) : Word := (w.v i.vc).getD l 0

/-- The register sources of an arithmetic-class instruction that reads operands a, b, c as told. -/
def arithSrcs (w : Warp) (i : LaneW) (a b c : Bool) : List Src :=
  (if a then [patSrc w i.va.toNat i.lpa i.ta 0] else []) ++
  (if b && i.tk then [patSrc w i.vb.toNat i.lpb i.tb 1] else []) ++
  (if c then [vSrc i.vc i.tc 2] else [])

/-! ## The frame of lane arithmetic -/

/-- Write lanes of a v register and merge flags into FPSR (R60, R118). -/
def Warp.putV (w : Warp) (vd : Nat) (m : LaneMask) (x : Lanes) (fl : FFlags) : Warp :=
  { w.setV vd m x with fpsr := w.fpsr ||| fl }

/-- The address of the next instruction. -/
def State.nextPc (s : State) (i : Instr) : Word := s.w.pc + lenOf i

/-- A lane instruction without memory effects that writes vd: no effect when no lane acts (R89); the full/empty and
poison checks of its sources; then every source is read before vd is written, in the acting lanes (R101, R118).
f gives the value of a lane and its flags. rdOld: the old vd is a source (R132). -/
def laneWrite (i : Instr) (lw : LaneW) (srcs : Warp → List Src) (rdOld : Bool) (f : Warp → LaneMask → Nat → Word × FFlags)
    (s : State) : Except Stop State :=
  let w := s.w
  let m := w.acts lw
  if m = 0 then .ok (s.finish (s.nextPc i))
  else
    match readyCheck w i (srcs w) (some lw.vd.toNat) none with
    | .error e => .error e
    | .ok () =>
    match poisonCheck w false m (srcs w ++ if rdOld then [vSrc lw.vd.toNat false 0] else []) with
    | .error e => .error e
    | .ok () =>
      let r := (List.range 32).map fun l => if m.getLsbD l then f w m l else (0, 0)
      .ok (s.finishW (w.putV lw.vd.toNat m (r.map Prod.fst) ((r.map Prod.snd).foldl (· ||| ·) 0)) (s.nextPc i))

/-- A lane instruction that writes predicate pd, held in vd[2:0] (R124, R138). -/
def lanePred (i : Instr) (lw : LaneW) (srcs : Warp → List Src) (f : Warp → LaneMask → Nat → Bool × FFlags)
    (s : State) : Except Stop State :=
  let w := s.w
  let m := w.acts lw
  if m = 0 then .ok (s.finish (s.nextPc i))
  else
    match readyCheck w i (srcs w) none none with
    | .error e => .error e
    | .ok () =>
    match poisonCheck w false m (srcs w) with
    | .error e => .error e
    | .ok () =>
      let r := (List.range 32).map fun l => if m.getLsbD l then f w m l else (false, 0)
      let w' := w.setP (lw.vd.toNat % 8) m (maskOf fun l => (r.getD l (false, 0)).1)
      .ok (s.finishW { w' with fpsr := w.fpsr ||| (r.map Prod.snd).foldl (· ||| ·) 0 } (s.nextPc i))

/-- An arithmetic-class instruction that works sub-element by sub-element (R119): g takes elements a, b, c. -/
def elemwise (i : Instr) (lw : LaneW) (a b c : Bool) (g : Nat → Nat → Nat → Nat × FFlags) (s : State) : Except Stop State :=
  laneWrite i lw (fun w => arithSrcs w lw a b c) false (fun w _ l =>
    let wd := tyWidth lw.t
    let xa := if a then srcA w lw l else 0
    let xb := if b then srcB w lw l else 0
    let xc := if c then srcC w lw l else 0
    let r := (List.range (tyCount lw.t)).map fun j => g (elem wd xa j) (elem wd xb j) (elem wd xc j)
    (BitVec.ofNat 64 (packFrom wd (r.map Prod.fst)), (r.map Prod.snd).foldl (· ||| ·) 0)) s

/-- The same for integer instructions, which raise no flag (R117). -/
def elemwiseI (i : Instr) (lw : LaneW) (a b c : Bool) (g : Nat → Nat → Nat → Nat) (s : State) : Except Stop State :=
  elemwise i lw a b c (fun x y z => (g x y z, 0)) s

/-- The uniform register and the offset of a lane memory address (R97). -/
def addrK (i : LaneW) : Nat := if i.tk then bits i.fn 10 5 else 0
def addrOff (i : LaneW) : Word := if i.tk then signExt 5 (i.fn % 32) * 8 else signExt 16 i.imm16
/-- The address of lane l (R97). -/
def laneAddr (w : Warp) (i : LaneW) (l : Nat) : Word := (w.v i.va.toNat).getD l 0 + w.k (addrK i) + addrOff i

/-- Operand b of a uniform instruction: kb, or the sign-extended literal (R104). -/
def uB (w : Warp) (i : UniW) : Word :=
  match i.lit with
  | some t => BitVec.signExtend 64 t
  | none => w.k i.kb.toNat

/-- The k registers a uniform instruction reads as operands a and b. -/
def uSrcs (i : UniW) (a b : Bool) : List Nat :=
  (if a then [i.ka.toNat] else []) ++ (if b && i.lit.isNone then [i.kb.toNat] else [])

end Sys2Proof.Machine
end

