-- ==== Sys2Proof/Machine/LaneFloat.lean ====
section
/-! DEFINITION. The lane floating-point instructions (R77, R124 to R132): FlushIn of each source, one rounding of the
exact result, FlushOut, Sat. -/
namespace Sys2Proof.Machine

/-- FlushIn of an element by the word's FI (R75). -/
def LaneFlush (w : LaneW) (x : Nat) : Nat := flushIn w.t w.fi x

/-- An instruction of R77 with one source. -/
def float1 (i : Instr) (w : LaneW) (g : Nat → FRes) (s : State) : Except Stop State :=
  elemwise i w true false false (fun a _ _ => deliver w.t w.fo w.sat (g (LaneFlush w a))) s
/-- An instruction of R77 with two float sources. -/
def float2 (i : Instr) (w : LaneW) (g : Nat → Nat → FRes) (s : State) : Except Stop State :=
  elemwise i w true true false (fun a b _ => deliver w.t w.fo w.sat (g (LaneFlush w a) (LaneFlush w b))) s

/-- FADD (R125). -/
def execFadd (w : LaneW) (s : State) : Host.Outcome State Fault Refusal :=
  issue (.fadd w) s (float2 (.fadd w) w (addF w.t w.rm false))
/-- FSUB (R125). -/
def execFsub (w : LaneW) (s : State) : Host.Outcome State Fault Refusal :=
  issue (.fsub w) s (float2 (.fsub w) w (addF w.t w.rm true))
/-- FMUL (R125). -/
def execFmul (w : LaneW) (s : State) : Host.Outcome State Fault Refusal :=
  issue (.fmul w) s (float2 (.fmul w) w (mulF w.t w.rm))
/-- FFMA (R126). -/
def execFfma (w : LaneW) (s : State) : Host.Outcome State Fault Refusal :=
  issue (.ffma w) s (elemwise (.ffma w) w true true true fun a b c =>
    deliver w.t w.fo w.sat (fmaF w.t w.rm (LaneFlush w a) (LaneFlush w b) (LaneFlush w c)))
/-- FMIN (R80, R125). -/
def execFmin (w : LaneW) (s : State) : Host.Outcome State Fault Refusal :=
  issue (.fmin w) s (float2 (.fmin w) w (minMaxF w.t false))
/-- FMAX (R80, R125). -/
def execFmax (w : LaneW) (s : State) : Host.Outcome State Fault Refusal :=
  issue (.fmax w) s (float2 (.fmax w) w (minMaxF w.t true))
/-- FSETP (R124): NV when a compared sub-element is a signalling NaN. -/
def execFsetp (w : LaneW) (s : State) : Host.Outcome State Fault Refusal :=
  issue (.fsetp w) s (lanePred (.fsetp w) w (fun x => arithSrcs x w true true false) fun x _ l =>
    let wd := tyWidth w.t
    let a := fun i => LaneFlush w (elem wd (srcA x w l) i)
    let b := fun i => LaneFlush w (elem wd (srcB x w l) i)
    let t := fun i => cmpF w.t (w.fn % 8) (a i) (b i)
    (if bit w.fn 3 then (List.range (tyCount w.t)).any t else (List.range (tyCount w.t)).all t,
     if (List.range (tyCount w.t)).any fun i => isSNaN w.t (a i) || isSNaN w.t (b i) then flNV else 0))
/-- FCLASS (R124): no flag. -/
def execFclass (w : LaneW) (s : State) : Host.Outcome State Fault Refusal :=
  issue (.fclass w) s (lanePred (.fclass w) w (fun x => arithSrcs x w true false false) fun x _ l =>
    let t := fun i => w.fn.testBit (classF w.t (LaneFlush w (elem (tyWidth w.t) (srcA x w l) i)))
    (if bit w.fn 10 then (List.range (tyCount w.t)).any t else (List.range (tyCount w.t)).all t, 0))
/-- FRCP (R127). -/
def execFrcp (w : LaneW) (s : State) : Host.Outcome State Fault Refusal :=
  issue (.frcp w) s (float1 (.frcp w) w (rcpF w.t w.rm))
/-- FRSQ (R127). -/
def execFrsq (w : LaneW) (s : State) : Host.Outcome State Fault Refusal :=
  issue (.frsq w) s (float1 (.frsq w) w (rsqF w.t w.rm))
/-- FSQRT (R127). -/
def execFsqrt (w : LaneW) (s : State) : Host.Outcome State Fault Refusal :=
  issue (.fsqrt w) s (float1 (.fsqrt w) w (sqrtF w.t w.rm))
/-- FEXP2 (R127). -/
def execFexp2 (w : LaneW) (s : State) : Host.Outcome State Fault Refusal :=
  issue (.fexp2 w) s (float1 (.fexp2 w) w (exp2F w.t w.rm))
/-- FLOG2 (R127). -/
def execFlog2 (w : LaneW) (s : State) : Host.Outcome State Fault Refusal :=
  issue (.flog2 w) s (float1 (.flog2 w) w (log2F w.t w.rm))

/-- An F32 value of an activation-table bank (R130). -/
def bankF32 (b : Memory) (off : Nat) : Nat := b.readN off 4

/-- The exact product (x − lo) × inv, rounded once to F32; 0 when it is no number (R131). The difference of finite
values is exact here: num · 2^k. -/
def tabInput (x lo inv : Nat) : Nat :=
  let p : PTerm :=
    match fVal 12 x, fVal 12 lo with
    | .nan, _ => .nan
    | _, .nan => .nan
    | .inf s, .inf t => if s = t then .bad else prodF (.inf s) (fVal 12 inv)
    | .inf s, _ => prodF (.inf s) (fVal 12 inv)
    | _, .inf t => prodF (.inf (!t)) (fVal 12 inv)
    | .fin s m e, .fin t n f =>
      let d := sumTerms [(s, m, e), (!t, n, f)]
      prodF (.fin (d.1 < 0) d.1.natAbs d.2) (fVal 12 inv)
  match p with
  | .nan => 0
  | .bad => 0
  | q => if fVal 12 inv = .nan then 0 else (sumF 12 0 [q]).pat

/-- FTAB of one element (R131): only the last rounding and a signalling input set flags. DESIGN CHOICE (log 117): where a
table coefficient is a NaN, the result is that NaN, of c0 before y1, quietened and converted to the type by R81, and a
signalling c0 raises NV. -/
def tabF (b : Memory) (ty rm fnum a : Nat) : FRes :=
  match nanOf ty [a] with
  | some r => r
  | none =>
    let base := 4112 * fnum
    let x := (cvtF ty 12 0 a).pat
    -- u clamped to [0, 256], as num · 2^k
    let u := match fVal 12 (tabInput x (bankF32 b base) (bankF32 b (base + 4))) with
      | .nan => (0, 0)
      | .inf s => (if s then 0 else 256, 0)
      | .fin s m e => if s then (0, 0) else if 0 ≤ e then (min 256 (m * 2 ^ e.toNat), 0)
                      else if 256 ≤ m / 2 ^ (-e).toNat then (256, 0) else (m, (-e).toNat)
    let seg := min (u.1 / 2 ^ u.2) 255
    let t : FVal := .fin false (u.1 - seg * 2 ^ u.2) (-(u.2 : Int))
    let c := fun j => bankF32 b (base + 16 + 16 * seg + 4 * j)
    let fma := fun (ty' rm' y c : Nat) =>
      match nanOf 12 [c, y] with
      | some r => ⟨(cvtF 12 ty' 0 r.pat).pat, r.fl ||| (if prodF (fVal 12 y) t = .bad then flNV else 0), none⟩
      | none => sumF ty' rm' [prodF (fVal 12 y) t, (fVal 12 c).toProd]
    fma ty rm (fma 12 0 (c 2) (c 1)).pat (c 0)

/-- FTAB (R131): the bank is the one TABBANK names at issue; a poisoned bank raises HWERR 2 (R394). -/
def execFtab (w : LaneW) (s : State) : Host.Outcome State Fault Refusal :=
  issue (.ftab w) s fun s =>
    let co := s.co
    let bank := if co.tabBank then co.bank1 else co.bank0
    match float1 (.ftab w) w (tabF bank w.t w.rm (w.fn % 8)) s with
    | .error e => .error e
    | .ok t =>
      if (if co.tabBank then co.bankPoison1 else co.bankPoison0) && s.w.acts w != 0 then
        .error (.trap (trapOf false gHWERR (s.w.acts w).toNat 0 (2 ^ 28 * 2)))
      else .ok t

/-! ## Conversions -/

/-- Conv of one element between types other than q4x (R64, R81, R141). -/
def conv1 (w : LaneW) (sf dt x : Nat) : Nat × FFlags :=
  if tyFloat sf then
    let a := flushIn sf w.fi x
    if tyFloat dt then deliver dt w.fo w.sat (cvtF sf dt w.rm a) else f2I sf dt w.rm a
  else if tyFloat dt then deliver dt w.fo w.sat (i2F dt w.rm (intVal sf x))
  else (fit dt w.sat (intVal sf x), 0)

/-- Conv of a pair of elements into a q4x byte's two elements (R70). -/
def convToQ4 (w : LaneW) (sf : Nat) : List Nat → List (Nat × FFlags)
  | x :: y :: t =>
    let r := q4Encode (elemQ sf (if tyFloat sf then flushIn sf w.fi x else x)) (elemQ sf (if tyFloat sf then flushIn sf w.fi y else y))
    (r.1 % 16, r.2) :: (r.1 / 16, r.2) :: convToQ4 w sf t
  | _ => []

/-- Conv of the two elements of each q4x byte (R69, R71, R81). -/
def convFromQ4 (w : LaneW) (dt : Nat) : List Nat → List (Nat × FFlags)
  | x :: y :: t =>
    let v := q4Decode (x + 16 * y)
    let one := fun u => if tyFloat dt then deliver dt w.fo w.sat (q4ToF dt w.rm u) else (fit dt w.sat (q4Int u), 0)
    one v.1 :: one v.2 :: convFromQ4 w dt t
  | _ => []

/-- Conv of n elements from sub-element at onwards of a lane value. A lone q4x element is decoded within its byte. -/
def convList (w : LaneW) (sf dt : Nat) (x : Word) (first n : Nat) : List (Nat × FFlags) :=
  let ws := tyWidth sf
  if sf = 14 then
    let lo := first / 2 * 2
    let hi := (first + n + 1) / 2 * 2
    ((convFromQ4 w dt ((List.range (hi - lo)).map fun i => elem 4 x (lo + i))).drop (first - lo)).take n
  else
    let xs := (List.range n).map fun i => elem ws x (first + i)
    if dt = 14 then convToQ4 w sf xs else xs.map (conv1 w sf dt)

/-- A conversion's lane value from part c of a, into old (R132). -/
def convLane (w : LaneW) (sf dt c : Nat) (a old : Word) : Word × FFlags :=
  let ws := tyWidth sf
  let wd := tyWidth dt
  let nd := 64 / wd
  let ns := 64 / ws
  let r := if ws < wd then convList w sf dt a (c * nd) nd else convList w sf dt a 0 ns
  let fl := (r.map Prod.snd).foldl (· ||| ·) 0
  if wd < ws then
    (packElems wd nd fun i =>
      if c * ns ≤ i && i < c * ns + ns then (r.getD (i - c * ns) (0, 0)).1 else elem wd old i, fl)
  else (BitVec.ofNat 64 (packFrom wd (r.map Prod.fst)), fl)

/-- FCVT, I2F and F2I (R132): a narrowing conversion reads the old vd. -/
def convert (i : Instr) (w : LaneW) (s : State) : Except Stop State :=
  let sf := w.fn % 16
  laneWrite i w (fun x => arithSrcs x w true false false) (tyWidth w.t < tyWidth sf)
    (fun x _ l => convLane w sf w.t (bits w.fn 6 4) (srcA x w l) ((x.v w.vd.toNat).getD l 0)) s

/-- FCVT (R132). -/
def execFcvt (w : LaneW) (s : State) : Host.Outcome State Fault Refusal := issue (.fcvt w) s (convert (.fcvt w) w)
/-- I2F (R132). -/
def execI2f (w : LaneW) (s : State) : Host.Outcome State Fault Refusal := issue (.i2f w) s (convert (.i2f w) w)
/-- F2I (R132). -/
def execF2i (w : LaneW) (s : State) : Host.Outcome State Fault Refusal := issue (.f2i w) s (convert (.f2i w) w)
/-- FRND (R129): FN[0] is .exact. -/
def execFrnd (w : LaneW) (s : State) : Host.Outcome State Fault Refusal :=
  issue (.frnd w) s (float1 (.frnd w) w (rndF w.t w.rm (bit w.fn 0)))
/-- FDOT2 (R126): the 2n source elements pair up inside each element of ty. -/
def execFdot2 (w : LaneW) (s : State) : Host.Outcome State Fault Refusal :=
  issue (.fdot2 w) s (elemwise (.fdot2 w) w true true true fun a b c =>
    let sf := w.fn % 16
    let ws := tyWidth sf
    let lo := fun x => flushIn sf w.fi (x % 2 ^ ws)
    let hi := fun x => flushIn sf w.fi (x >>> ws)
    deliver w.t w.fo w.sat (dot2F w.t sf w.rm (LaneFlush w c) (lo a) (lo b) (hi a) (hi b)))
/-- FLDEXP (R125): operand b is a signed integer of the type's width. -/
def execFldexp (w : LaneW) (s : State) : Host.Outcome State Fault Refusal :=
  issue (.fldexp w) s (elemwise (.fldexp w) w true true false fun a b _ =>
    deliver w.t w.fo w.sat (ldexpF w.t w.rm (LaneFlush w a) (toSigned (tyWidth w.t) b)))

end Sys2Proof.Machine
end

