-- ==== Sys2Proof/Machine/CrossLane.lean ====
section
/-! DEFINITION. The cross-lane instructions (R133 to R141): permutations, votes, reductions and scans over the fixed
tree of R84, and packing. A source lane is read whatever its state. -/
namespace Sys2Proof.Machine

/-- The element an LPERM position names, or none for one that :zr zeroes (R135). -/
def lpermIndex (w : LaneW) (b : Word) (i : Nat) : Option Nat :=
  let e := elem (tyWidth w.t) b i
  let big := 32 * tyCount w.t
  if bit w.xf 0 && big ≤ e then none else some (e % big)

/-- LPERM (R135): each lane reads of va only the lanes its indices name. -/
def execLperm (w : LaneW) (s : State) : Host.Outcome State Fault Refusal :=
  let n := tyCount w.t
  let idx := fun (x : Warp) l i => lpermIndex w ((x.v w.vb.toNat).getD l 0) i
  issue (.lperm w) s (laneWrite (.lperm w) w
    (fun x => [⟨false, w.va.toNat, w.ta, 0, fun l => (List.range n).filterMap fun i => (idx x l i).map (· / n)⟩,
               vSrc w.vb.toNat w.tb 1])
    false fun x _ l =>
      (packElems (tyWidth w.t) n fun i =>
        match idx x l i with
        | none => 0
        | some e => elem (tyWidth w.t) ((x.v w.va.toNat).getD (e / n) 0) (e % n), 0))

/-- BENES (R136): control word N of XF[2:0]. -/
def execBenes (w : LaneW) (s : State) : Host.Outcome State Fault Refusal :=
  let from' := fun (x : Warp) => benesFrom (AMap.get 0 x.benes (w.xf % 8))
  issue (.benes w) s (laneWrite (.benes w) w
    (fun x => [⟨false, w.va.toNat, w.ta, 0, fun l => [(from' x).getD l 0]⟩])
    false fun x _ l => ((x.v w.va.toNat).getD ((from' x).getD l 0) 0, 0))

/-- The vote of each lane: p[X] XOR negate (R138). -/
def voteMask (x : Warp) (w : LaneW) : LaneMask :=
  if bit w.xf 2 then ~~~(x.p (w.va.toNat % 8)) else x.p (w.va.toNat % 8)

/-- VOTE (R138): .all, .any and .uni write a predicate, .ballot a register. -/
def execVote (w : LaneW) (s : State) : Host.Outcome State Fault Refusal :=
  issue (.vote w) s fun s =>
    if w.xf % 4 = 3 then
      laneWrite (.vote w) w (fun _ => []) false
        (fun x m _ => (BitVec.setWidth 64 (voteMask x w &&& m), 0)) s
    else
      lanePred (.vote w) w (fun _ => []) (fun x m _ =>
        let t := voteMask x w &&& m
        (if w.xf % 4 = 0 then t == m else if w.xf % 4 = 1 then t != 0 else t == m || t == 0, 0)) s

/-- ELECT (R138). -/
def execElect (w : LaneW) (s : State) : Host.Outcome State Fault Refusal :=
  issue (.elect w) s (lanePred (.elect w) w (fun _ => []) fun _ m l => (decide ((lanesOf m).head? = some l), 0))

/-- The value of R61 for a selector, in sub-element i of lane l. -/
def lsrValue (x : Warp) (n sel l i : Nat) : Nat :=
  if sel = 0 then l
  else if sel = 1 then i
  else if sel = 2 then l * n + i
  else if sel = 3 then 2 ^ l - 1
  else if sel = 4 then 2 ^ l
  else if sel = 5 then x.active.toNat
  else x.launchMask.toNat

/-- LSR (R61, R138). -/
def execLsr (w : LaneW) (s : State) : Host.Outcome State Fault Refusal :=
  issue (.lsr w) s (laneWrite (.lsr w) w (fun _ => []) false fun x _ l =>
    (packElems (tyWidth w.t) (tyCount w.t) (lsrValue x (tyCount w.t) (w.xf % 8) l), 0))

/-- SUBX (R137). -/
def execSubx (w : LaneW) (s : State) : Host.Outcome State Fault Refusal :=
  let n := tyCount w.t
  let wd := tyWidth w.t
  issue (.subx w) s (laneWrite (.subx w) w
    (fun _ => vSrc w.va.toNat w.ta 0 :: if w.xf % 4 = 0 then [vSrc w.vb.toNat w.tb 1] else [])
    false fun x _ l =>
      (packElems wd n fun i =>
        let j := if w.xf % 4 = 0 then elem wd ((x.v w.vb.toNat).getD l 0) i % n
                 else if w.xf % 4 = 1 then n - 1 - i
                 else if w.xf % 4 = 2 then w.xf / 4
                 else (i + w.xf / 4) % n
        elem wd ((x.v w.va.toNat).getD l 0) j, 0))

/-! ## Reductions and scans -/

/-- A present position's value with the flags raised so far; none where a node is absent. -/
abbrev Node := Option Nat

/-- Combine two nodes (R84): one present child passes unchanged. -/
def combine (op : Nat → Nat → Nat × FFlags) : Node → Node → Node × FFlags
  | none, y => (y, 0)
  | x, none => (x, 0)
  | some x, some y => let r := op x y; (some r.1, r.2)

/-- The next level of the tree: node j combines nodes 2j and 2j + 1 (R84). -/
def nextLevel (op : Nat → Nat → Nat × FFlags) : List Node → List (Node × FFlags)
  | x :: y :: t => combine op x y :: nextLevel op t
  | _ => []

/-- The levels above a level, lowest first, and their flags; fuel is the number of levels to form. -/
def levelsAbove (op : Nat → Nat → Nat × FFlags) : Nat → List Node → List (List Node) × FFlags
  | 0, _ => ([], 0)
  | fuel + 1, l =>
    let r := nextLevel op l
    let u := levelsAbove op fuel (r.map Prod.fst)
    (r.map Prod.fst :: u.1, (r.map Prod.snd).foldl (· ||| ·) 0 ||| u.2)

/-- The combination of the first len positions from the tree's aligned blocks, largest first (R84). top is the number
of the level at the head of the list, highest level first; start is where the next block begins. -/
def blockNode (op : Nat → Nat → Nat × FFlags) (len : Nat) : List (List Node) → Nat → Node × FFlags → Node × FFlags
  | [], _, acc => acc
  | l :: ls, start, acc =>
    let lv := ls.length
    if len.testBit lv then
      let r := combine op acc.1 (l.getD (start >>> lv) none)
      blockNode op len ls (start + 2 ^ lv) (r.1, acc.2 ||| r.2)
    else blockNode op len ls start acc

/-- What one fold needs: the combination of two elements, the identity, and how a written value is delivered (R139). -/
structure FoldOp where
  op : Nat → Nat → Nat × FFlags
  ident : Nat
  out : Nat → Nat × FFlags

/-- The float fold (R84, R139): every node is a complete operation. -/
def floatFold (w : LaneW) (op : Nat) : FoldOp where
  op := fun a b => deliver w.t w.fo w.sat (if op = 0 then addF w.t w.rm false a b else minMaxF w.t (op = 2) a b)
  ident := if op = 0 then 0 else if w.t = 8 then maxPat 8 (op = 2) else infPat w.t (op = 2)
  out := fun x => deliver w.t w.fo w.sat ⟨x, 0, match fVal w.t x with | .inf s => some s | _ => none⟩

/-- The results of a float LRED (one value) or LSCAN (a value for each position) over a sequence of 2^k positions. -/
def foldFloat (f : FoldOp) (k : Nat) (scan excl : Bool) (xs : List Node) : List Nat × FFlags :=
  let up := levelsAbove f.op k xs
  let levels := (xs :: up.1).reverse
  let give := fun (n : Node × FFlags) => let r := f.out (n.1.getD f.ident); (r.1, r.2 ||| n.2)
  let rs := if scan then
      (List.range xs.length).map fun e =>
        match xs.getD e none with
        | none => (0, 0)
        | some _ => give (blockNode f.op (if excl then e else e + 1) levels 0 (none, 0))
    else [give ((levels.headD []).getD 0 none, 0)]
  (rs.map Prod.fst, (rs.map Prod.snd).foldl (· ||| ·) up.2)

/-- The exact combination of two integers (R139): .add, .min, .max on values, .and, .or, .xor on patterns. -/
def intCombine (op : Nat) (x y : Int) : Int :=
  if op = 0 then x + y
  else if op = 1 then min x y
  else if op = 2 then max x y
  else if op = 3 then ((x.toNat &&& y.toNat : Nat) : Int)
  else if op = 4 then ((x.toNat ||| y.toNat : Nat) : Int)
  else ((x.toNat ^^^ y.toNat : Nat) : Int)

/-- Integer identities (R139). -/
def intIdent (op ty : Nat) : Int :=
  if op = 1 then intMax ty else if op = 2 then intMin ty else if op = 3 then (2 : Int) ^ tyWidth ty - 1 else 0

/-- The value before each position and the value of the whole sequence. -/
def intScan (op : Nat) : Int → List (Option Int) → List Int × Int
  | acc, [] => ([], acc)
  | acc, none :: t => let r := intScan op acc t; (acc :: r.1, r.2)
  | acc, some x :: t => let r := intScan op (intCombine op acc x) t; (acc :: r.1, r.2)

/-- The results of an integer LRED or LSCAN (R139): exact, the written value by Fit for .add. -/
def foldInt (w : LaneW) (op : Nat) (scan excl : Bool) (xs : List Node) : List Nat × FFlags :=
  let vals := xs.map fun x => x.map fun v => if op ≤ 2 then intVal w.t v else (v : Int)
  let r := intScan op (intIdent op w.t) vals
  let put := fun v => if op ≤ 2 then fit w.t (op = 0 && w.sat) v else v.toNat
  (if scan then
     (List.range xs.length).map fun e =>
       let before := r.1.getD e 0
       put (if excl then before else match vals.getD e none with | none => before | some v => intCombine op before v)
   else [put r.2], 0)

/-- LSCAN and LRED (R139): with COL = 0 one sequence of 32n positions, with COL = 1 n sequences of 32. -/
def foldLanes (x : Warp) (m : LaneMask) (w : LaneW) (scan : Bool) : Lanes × FFlags :=
  let n := tyCount w.t
  let wd := tyWidth w.t
  let op := w.xf % 8
  let col := bit w.xf 3
  let excl := bit w.xf 4
  let seqs := if col then n else 1
  let len := if col then 32 else 32 * n
  let at' := fun (i e : Nat) => if col then (e, i) else (e / n, e % n)
  let posOf := fun (l j : Nat) => if col then (j, l) else (0, l * n + j)
  let rs := (List.range seqs).map fun i =>
    let xs : List Node := (List.range len).map fun e =>
      let q := at' i e
      if m.getLsbD q.1 then
        let v := elem wd ((x.v w.va.toNat).getD q.1 0) q.2
        some (if tyFloat w.t then LaneFlush w v else v)
      else none
    if tyFloat w.t then foldFloat (floatFold w op) len.log2 scan excl xs else foldInt w op scan excl xs
  (Lanes.of fun l => packElems wd n fun j =>
     let q := posOf l j
     (rs.getD q.1 ([], 0)).1.getD (if scan then q.2 else 0) 0,
   (rs.map Prod.snd).foldl (· ||| ·) 0)

/-- LSCAN (R139). -/
def execLscan (w : LaneW) (s : State) : Host.Outcome State Fault Refusal :=
  let r := foldLanes s.w (s.w.acts w) w true
  issue (.lscan w) s (laneWrite (.lscan w) w (fun _ => [vSrc w.va.toNat w.ta 0]) false fun _ _ l => (r.1.getD l 0, r.2))
/-- LRED (R139). -/
def execLred (w : LaneW) (s : State) : Host.Outcome State Fault Refusal :=
  let r := foldLanes s.w (s.w.acts w) w false
  issue (.lred w) s (laneWrite (.lred w) w (fun _ => [vSrc w.va.toNat w.ta 0]) false fun _ _ l => (r.1.getD l 0, r.2))

/-- PACK (R140, R141): va fills the lower half of vd, vb the upper half. -/
def execPack (w : LaneW) (s : State) : Host.Outcome State Fault Refusal :=
  let sf := w.fn % 16
  let ns := tyCount sf
  issue (.pack w) s (laneWrite (.pack w) w (fun _ => [vSrc w.va.toNat w.ta 0, vSrc w.vb.toNat w.tb 1]) false fun x _ l =>
    let r := convList w sf w.t ((x.v w.va.toNat).getD l 0) 0 ns ++ convList w sf w.t ((x.v w.vb.toNat).getD l 0) 0 ns
    (BitVec.ofNat 64 (packFrom (tyWidth w.t) (r.map Prod.fst)), (r.map Prod.snd).foldl (· ||| ·) 0))

/-- UNPACK (R140, R141): the half of va that HI names. -/
def execUnpack (w : LaneW) (s : State) : Host.Outcome State Fault Refusal :=
  let nd := tyCount w.t
  issue (.unpack w) s (laneWrite (.unpack w) w (fun _ => [vSrc w.va.toNat w.ta 0]) false fun x _ l =>
    let r := convList w (w.fn % 16) w.t ((x.v w.va.toNat).getD l 0) (if bit w.xf 0 then nd else 0) nd
    (BitVec.ofNat 64 (packFrom (tyWidth w.t) (r.map Prod.fst)), (r.map Prod.snd).foldl (· ||| ·) 0))

end Sys2Proof.Machine
end

