-- ==== Sys2Proof/Machine/LaneInt.lean ====
section
/-! DEFINITION. The lane integer instructions (R116 to R124). Results are patterns of the sub-element's width. -/
namespace Sys2Proof.Machine

/-! ## Operations on w-bit patterns, shared with the uniform set -/

/-- SHL (R119): 0 once the amount reaches the width. -/
def shlN (w a b : Nat) : Nat := if w ≤ b then 0 else (a <<< b) % 2 ^ w
/-- SHR (R119). -/
def shrN (w a b : Nat) : Nat := if w ≤ b then 0 else a >>> b
/-- SAR (R119). -/
def sarN (w a b : Nat) : Nat := modN w (toSigned w a / (2 : Int) ^ min b (w - 1))
/-- ROL (R119). -/
def rolN (w a b : Nat) : Nat := ((a <<< (b % w)) ||| (a >>> (w - b % w))) % 2 ^ w
/-- ANDN (R119): a AND NOT b. -/
def andnN (w a b : Nat) : Nat := a &&& (2 ^ w - 1 - b % 2 ^ w)
/-- CLZ (R120). -/
def clzN (w a : Nat) : Nat := if a = 0 then w else w - 1 - a.log2
/-- POPC (R120). -/
def popcN (w a : Nat) : Nat := (List.range w).foldl (fun n i => if a.testBit i then n + 1 else n) 0
/-- BREV (R120). -/
def brevN (w a : Nat) : Nat := (List.range w).foldl (fun x i => if a.testBit i then x + 2 ^ (w - 1 - i) else x) 0

/-- The length of the field a control value names, cut at the width (R122). -/
def fieldLen (w ctl : Nat) : Nat :=
  let pos := bits ctl 5 0
  if w ≤ pos then 0 else min (bits ctl 12 6) (w - pos)
/-- BFX (R122). -/
def bfxN (w : Nat) (signed : Bool) (a ctl : Nat) : Nat :=
  let len := fieldLen w ctl
  let f := (a >>> bits ctl 5 0) % 2 ^ len
  if signed && len != 0 then modN w (toSigned len f) else f
/-- BFI (R122). -/
def bfiN (w a b ctl : Nat) : Nat :=
  let pos := bits ctl 5 0
  let m := (2 ^ fieldLen w ctl - 1) <<< pos
  andnN w a m ||| ((b <<< pos) &&& m)

/-- Byte m of a pattern, read as s8 or n8 (R121). -/
def byteOf (signed : Bool) (x m : Nat) : Int :=
  let b := (x >>> (8 * m)) % 256
  if signed then toSigned 8 b else b

/-! ## The instructions -/

/-- IADD (R119). -/
def execIadd (w : LaneW) (s : State) : Host.Outcome State Fault Refusal :=
  issue (.iadd w) s (elemwiseI (.iadd w) w true true false fun a b _ => fit w.t w.sat (intVal w.t a + intVal w.t b))
/-- ISUB (R119). -/
def execIsub (w : LaneW) (s : State) : Host.Outcome State Fault Refusal :=
  issue (.isub w) s (elemwiseI (.isub w) w true true false fun a b _ => fit w.t w.sat (intVal w.t a - intVal w.t b))
/-- IMUL (R119). -/
def execImul (w : LaneW) (s : State) : Host.Outcome State Fault Refusal :=
  issue (.imul w) s (elemwiseI (.imul w) w true true false fun a b _ => fit w.t w.sat (intVal w.t a * intVal w.t b))
/-- IMULH (R119): the high half of the exact product. -/
def execImulh (w : LaneW) (s : State) : Host.Outcome State Fault Refusal :=
  issue (.imulh w) s (elemwiseI (.imulh w) w true true false fun a b _ =>
    fit w.t false (intVal w.t a * intVal w.t b / (2 : Int) ^ tyWidth w.t))
/-- IMAD (R121). -/
def execImad (w : LaneW) (s : State) : Host.Outcome State Fault Refusal :=
  issue (.imad w) s (elemwiseI (.imad w) w true true true fun a b c =>
    fit w.t w.sat (intVal w.t a * intVal w.t b + intVal w.t c))
/-- IMIN (R119). -/
def execImin (w : LaneW) (s : State) : Host.Outcome State Fault Refusal :=
  issue (.imin w) s (elemwiseI (.imin w) w true true false fun a b _ => if intVal w.t b < intVal w.t a then b else a)
/-- IMAX (R119). -/
def execImax (w : LaneW) (s : State) : Host.Outcome State Fault Refusal :=
  issue (.imax w) s (elemwiseI (.imax w) w true true false fun a b _ => if intVal w.t a < intVal w.t b then b else a)
/-- IABS (R120). -/
def execIabs (w : LaneW) (s : State) : Host.Outcome State Fault Refusal :=
  issue (.iabs w) s (elemwiseI (.iabs w) w true false false fun a _ _ => fit w.t w.sat (absI (intVal w.t a)))
/-- INEG (R120). -/
def execIneg (w : LaneW) (s : State) : Host.Outcome State Fault Refusal :=
  issue (.ineg w) s (elemwiseI (.ineg w) w true false false fun a _ _ => fit w.t w.sat (-intVal w.t a))
/-- AND (R119). -/
def execAnd (w : LaneW) (s : State) : Host.Outcome State Fault Refusal :=
  issue (.and w) s (elemwiseI (.and w) w true true false fun a b _ => a &&& b)
/-- OR (R119). -/
def execOr (w : LaneW) (s : State) : Host.Outcome State Fault Refusal :=
  issue (.or w) s (elemwiseI (.or w) w true true false fun a b _ => a ||| b)
/-- XOR (R119). -/
def execXor (w : LaneW) (s : State) : Host.Outcome State Fault Refusal :=
  issue (.xor w) s (elemwiseI (.xor w) w true true false fun a b _ => a ^^^ b)
/-- ANDN (R119). -/
def execAndn (w : LaneW) (s : State) : Host.Outcome State Fault Refusal :=
  issue (.andn w) s (elemwiseI (.andn w) w true true false fun a b _ => andnN (tyWidth w.t) a b)
/-- SHL (R119). -/
def execShl (w : LaneW) (s : State) : Host.Outcome State Fault Refusal :=
  issue (.shl w) s (elemwiseI (.shl w) w true true false fun a b _ => shlN (tyWidth w.t) a b)
/-- SHR (R119). -/
def execShr (w : LaneW) (s : State) : Host.Outcome State Fault Refusal :=
  issue (.shr w) s (elemwiseI (.shr w) w true true false fun a b _ => shrN (tyWidth w.t) a b)
/-- SAR (R119). -/
def execSar (w : LaneW) (s : State) : Host.Outcome State Fault Refusal :=
  issue (.sar w) s (elemwiseI (.sar w) w true true false fun a b _ => sarN (tyWidth w.t) a b)
/-- ROL (R119). -/
def execRol (w : LaneW) (s : State) : Host.Outcome State Fault Refusal :=
  issue (.rol w) s (elemwiseI (.rol w) w true true false fun a b _ => rolN (tyWidth w.t) a b)
/-- CLZ (R120). -/
def execClz (w : LaneW) (s : State) : Host.Outcome State Fault Refusal :=
  issue (.clz w) s (elemwiseI (.clz w) w true false false fun a _ _ => clzN (tyWidth w.t) a)
/-- POPC (R120). -/
def execPopc (w : LaneW) (s : State) : Host.Outcome State Fault Refusal :=
  issue (.popc w) s (elemwiseI (.popc w) w true false false fun a _ _ => popcN (tyWidth w.t) a)
/-- BREV (R120). -/
def execBrev (w : LaneW) (s : State) : Host.Outcome State Fault Refusal :=
  issue (.brev w) s (elemwiseI (.brev w) w true false false fun a _ _ => brevN (tyWidth w.t) a)
/-- BFX (R122). -/
def execBfx (w : LaneW) (s : State) : Host.Outcome State Fault Refusal :=
  issue (.bfx w) s (elemwiseI (.bfx w) w true true false fun a b _ => bfxN (tyWidth w.t) (tySigned w.t) a b)
/-- BFI (R122). -/
def execBfi (w : LaneW) (s : State) : Host.Outcome State Fault Refusal :=
  issue (.bfi w) s (elemwiseI (.bfi w) w true true true fun a b c => bfiN (tyWidth w.t) a b c)
/-- SEL (R123): both operands are sources; the selector predicate picks all 64 bits. -/
def execSel (w : LaneW) (s : State) : Host.Outcome State Fault Refusal :=
  issue (.sel w) s (laneWrite (.sel w) w (fun x => arithSrcs x w true true false) false fun x _ l =>
    (if (x.p (w.fn % 8)).getLsbD l != bit w.fn 3 then srcA x w l else srcB x w l, 0))
/-- ISETP (R124). -/
def execIsetp (w : LaneW) (s : State) : Host.Outcome State Fault Refusal :=
  issue (.isetp w) s (lanePred (.isetp w) w (fun x => arithSrcs x w true true false) fun x _ l =>
    let wd := tyWidth w.t
    let t := fun i => cmpI (w.fn % 8) (intVal w.t (elem wd (srcA x w l) i)) (intVal w.t (elem wd (srcB x w l) i))
    (if bit w.fn 3 then (List.range (tyCount w.t)).any t else (List.range (tyCount w.t)).all t, 0))
/-- MOV (R123): all 64 bits of a register, or the immediate in every sub-element. -/
def execMov (w : LaneW) (s : State) : Host.Outcome State Fault Refusal :=
  issue (.mov w) s (laneWrite (.mov w) w (fun x => arithSrcs x w false true false) false fun x _ l => (srcB x w l, 0))
/-- MOVLO (R123). -/
def execMovlo (w : LaneW) (s : State) : Host.Outcome State Fault Refusal :=
  issue (.movlo w) s (elemwiseI (.movlo w) w true true false fun a b _ => (a &&& 0xFFFF0000) ||| (b &&& 0xFFFF))
/-- MOVHI (R123). -/
def execMovhi (w : LaneW) (s : State) : Host.Outcome State Fault Refusal :=
  issue (.movhi w) s (elemwiseI (.movhi w) w true true false fun a b _ => (a &&& 0xFFFF) ||| ((b &&& 0xFFFF) <<< 16))
/-- IDOT4 (R121): the sum is exact before Fit. -/
def execIdot4 (w : LaneW) (s : State) : Host.Outcome State Fault Refusal :=
  issue (.idot4 w) s (elemwiseI (.idot4 w) w true true true fun a b c =>
    fit w.t w.sat ((List.range 4).foldl
      (fun x k => x + byteOf (bit w.fn 0) a k * byteOf (bit w.fn 1) b k) (intVal w.t c)))
/-- ISAT (R120): clamp to the range of the target type in FN[3:0]. -/
def execIsat (w : LaneW) (s : State) : Host.Outcome State Fault Refusal :=
  issue (.isat w) s (elemwiseI (.isat w) w true false false fun a _ _ =>
    fit w.t false (clampTo (w.fn % 16) (intVal w.t a)))

end Sys2Proof.Machine
end

