-- ==== Sys2Proof/Machine/Flue.lean ====
section
/-! DEFINITION. The Flue as packets and children cross it (R318, R319, R321, R434): link directions and their lanes,
routes, and what the slots of a frame carry. -/
namespace Sys2Proof.Machine

/-! ## Link directions -/

/-- A link direction (R318). -/
def State.dir (s : State) (k : Nat) : FlueDir := AMap.get FlueDir.fresh s.flue k
def State.setDir (s : State) (k : Nat) (d : FlueDir) : State := { s with flue := s.flue.set k d }

/-- The two dies of link ℓ, the lower-numbered first (R318). -/
def linkEnds (l : Nat) : Nat × Nat := if l < 6 then (4 * (l / 3) + l % 3, 4 * (l / 3) + l % 3 + 1) else (l - 6, l - 2)

/-- Whether a link can be used: neither direction is lost (R435). -/
def State.linkUp (s : State) (l : Nat) : Bool := !(s.dir (2 * l)).lost && !(s.dir (2 * l + 1)).lost

/-- The link direction from a die to a neighbour (R318). -/
def dirOf (d e : Nat) : Nat :=
  ((List.range 20).find? fun k => linkEnds (k / 2) == if k % 2 = 0 then (d, e) else (e, d)).getD 20

/-- The die at which a link direction starts (R318). -/
def dirFrom (k : Nat) : Nat := if k % 2 = 0 then (linkEnds (k / 2)).1 else (linkEnds (k / 2)).2

/-- Lanes that carry flits: the first 32 that no spare has replaced (R434). -/
def FlueDir.carrying (d : FlueDir) : List Nat := ((List.range 34).filter fun x => !d.failed.contains x).take 32

/-- Lanes of a direction that have failed (R434). -/
def FlueDir.failures (d : FlueDir) : Nat := d.failed.length + d.due.length

/-- A lane fails (R434): a lane that has failed before does not fail again. -/
def FlueDir.fail (d : FlueDir) (lane : Nat) : FlueDir :=
  if 34 ≤ lane || d.failed.contains lane || d.due.contains lane then d else { d with due := d.due ++ [lane] }

/-! ## Routes -/

/-- The die behind an output port, none when the port leaves the mesh (R319). -/
def portTo (d port : Nat) : Option Nat :=
  if port = 0 then (if d % 4 = 0 then none else some (d - 1))
  else if port = 1 then (if d % 4 = 3 then none else some (d + 1))
  else if port = 2 then some (if d < 4 then d + 4 else d - 4) else none

/-- The default output port from a die toward another (R319): along the row, then along the column. -/
def defaultPort (d j : Nat) : Nat := if j % 4 < d % 4 then 0 else if d % 4 < j % 4 then 1 else if d = j then 0 else 2

/-- The output port from a die toward another as the routing entries stand (R319). -/
def State.portOf (s : State) (d j : Nat) : Nat := AMap.get (defaultPort d j) s.routes (8 * d + j)

/-- The link directions that a packet crosses to a die from another; fuel bounds the hops. -/
def State.pathTo (s : State) (j : Nat) : Nat → Nat → List Nat
  | 0, _ => []
  | fuel + 1, d =>
    if d = j then []
    else match portTo d (s.portOf d j) with
    | none => []
    | some e => dirOf d e :: State.pathTo s j fuel e

/-- The link directions from a die to another (R319). -/
def State.path (s : State) (d j : Nat) : List Nat := s.pathTo j 8 d

/-- Whether a die is isolated, or has fenced itself and so counts as isolated (R437, R439). -/
def State.dieLost (s : State) (d : Nat) : Bool := (s.die d).isolated || (s.die d).fenced

/-- Whether a die is live. -/
def State.dieLive (s : State) (d : Nat) : Bool := !s.dieLost d

/-- The live neighbours of a die over links that are up. -/
def State.neighbours (s : State) (d : Nat) : List Nat :=
  ((List.range 10).filter s.linkUp).filterMap fun l =>
    let e := linkEnds l
    let o := if e.1 = d then some e.2 else if e.2 = d then some e.1 else none
    match o with | some x => if s.dieLive x then some x else none | none => none

/-- The dies that a set reaches, itself included; fuel bounds the hops. -/
def State.reach (s : State) : Nat → List Nat → List Nat
  | 0, l => l
  | fuel + 1, l => State.reach s fuel ((List.range 8).filter fun d => l.contains d || (s.neighbours d).any l.contains)

/-- Number of hops from a die to another over live links, 8 when there is no way. -/
def State.hops (s : State) (a b : Nat) : Nat := (List.range 8).find? (fun k => (s.reach k [a]).contains b) |>.getD 8

/-- The route from a die toward another around lost links (R319, R435): the plain default where its next hop is on a
shortest way, else the first port that is. -/
def State.liveRoute (s : State) (d j : Nat) : Nat :=
  let good := fun p => match portTo d p with
    | some e => (s.neighbours d).contains e && s.hops e j + 1 = s.hops d j
    | none => false
  if d = j || good (defaultPort d j) then defaultPort d j else ((List.range 3).find? good).getD (defaultPort d j)

/-- A die's routing entry, whose bytes are listed where they differ from the plain default. -/
def State.setEntry (s : State) (d : Nat) (f : Nat → Nat) : State :=
  { s with routes := (List.range 8).foldl (fun (m : AMap Nat) j =>
      if f j = defaultPort d j then m.erase (8 * d + j) else m.set (8 * d + j) (f j)) s.routes }

/-- Default routes of a die that avoid lost links (R435). -/
def State.liveEntry (s : State) (d : Nat) : State := s.setEntry d (s.liveRoute d)

/-- Default routes of every die that avoid lost links (R435). -/
def State.liveRoutes (s : State) : State := (List.range 8).foldl State.liveEntry s

/-- Packets and children on their way take the routes as they stand now, from the die that each has reached (R435). -/
def State.reroute (s : State) : State :=
  let again := fun (hops : List Nat) (j : Nat) => match hops with | [] => [] | k :: _ => s.path (dirFrom k) j
  { s with
    dies := s.dies.map fun d => (d.1, { d.2 with incoming := d.2.incoming.map fun m => { m with hops := again m.hops d.1 } })
    travel := s.travel.map fun c => { c with hops := again c.hops (dieOf c.core) } }

/-! ## The slots of a frame -/

/-- A flit of class 2 of R321 that waits at a link direction: when it was sent, and which one it is. -/
inductive FlitAt where
  | mail (die index : Nat)
  | child (index : Nat)
  deriving DecidableEq, Repr

/-- Hearth packets, walker deliveries and spawned children that wait at a link direction, with their ages. -/
def State.waitingAt (s : State) (k : Nat) : List (Nat × FlitAt) :=
  (s.dies.flatMap fun d => d.2.incoming.zipIdx.filterMap fun m =>
    if m.1.hops.head? = some k then some (m.1.sent, .mail d.1 m.2) else none) ++
  s.travel.zipIdx.filterMap fun c => if c.1.hops.head? = some k then some (c.1.sent, .child c.2) else none

/-- Put a flit behind those that are as old or older. -/
def insertByAge (x : Nat × FlitAt) : List (Nat × FlitAt) → List (Nat × FlitAt)
  | [] => [x]
  | y :: ys => if x.1 < y.1 then x :: y :: ys else y :: insertByAge x ys

/-- Flits in the order in which slots serve them: the oldest first (R321). -/
def byAge (l : List (Nat × FlitAt)) : List FlitAt := (l.foldl (fun acc x => insertByAge x acc) []).map Prod.snd

/-- A packet or a child after a link direction, when it is one of those that crossed it: an MBFWD that stalled for the
packet's leaving goes on (R207). -/
def Mail.hop (m : Mail) (crossed : Bool) : Mail := if crossed then { m with hops := m.hops.drop 1, fwd := none } else m
def Child.hop (c : Child) (crossed : Bool) : Child := if crossed then { c with hops := c.hops.drop 1 } else c

/-- A die's packets on their way after some flits have crossed a link direction. -/
def Die.cross (d : Die) (die : Nat) (moved : List FlitAt) : Die :=
  { d with incoming := d.incoming.zipIdx.map fun m => m.1.hop (moved.contains (FlitAt.mail die m.2)) }

/-- The flits cross their next link direction. -/
def State.cross (s : State) (moved : List FlitAt) : State :=
  { s with
    dies := s.dies.map fun d => (d.1, d.2.cross d.1 moved)
    travel := s.travel.zipIdx.map fun c => c.1.hop (moved.contains (FlitAt.child c.2)) }

/-- Best-effort slots and residue of a direction in a frame (R321, R345): the slots that no stream fills, without those
that a calibration in the frame takes. A slot's stream has something ready or not, by a free value (log 108). -/
def FlueDir.openSlots (d : FlueDir) (frame draw : Nat) : Nat :=
  let used := ((List.range d.slots.length).filter fun i => Config.streamReady (draw + i)).length
  1024 - used - match d.calibrated with | some t => if t / 512 = frame then 64 else 0 | none => 0

/-- A frame of one link direction (R321): scheduled slots carry their streams; best-effort slots and the residue carry
control, then the oldest packets and children, and with what is left the memory traffic, which the model performs at
once. One slot carries one packet or child (log 108). -/
def State.serveDir (s : State) (k : Nat) : State :=
  let d := s.dir k
  match s.waitingAt k with
  | [] => s
  | w :: ws =>
    if !s.linkUp (k / 2) then s
    else
      let r := s.draw (d.slots.length + 1)
      let n := d.openSlots s.frames r.1 - Config.controlFlits (r.1 + d.slots.length)
      r.2.cross ((byAge (w :: ws)).take n)

/-- A frame of every link direction (R321). -/
def State.serveFrame (s : State) : State := (List.range 20).foldl State.serveDir s

end Sys2Proof.Machine
end

