-- ==== Sys2Proof/Machine/Access.lean ====
section
/-! DEFINITION. Memory accesses: page-table walks and translation caches (R210 to R215), the checks of an access in
the order of R351 (R371, R376, R390, R392), the L1 data cache (R218), the scratchpads (R220, R221), and reading and
writing the place an access names. -/
namespace Sys2Proof.Machine

/-! ## Translation -/

/-- A leaf of the page table: page start, size and rights (R212). -/
structure Leaf where
  pa : Nat
  size : Nat
  r : Bool
  w : Bool
  x : Bool
  deriving DecidableEq, Repr

/-- What a walk finds (R213, R362, R390). -/
inductive Walk where
  | absent
  | malformed
  | leaf (l : Leaf)
  deriving DecidableEq, Repr

/-- Index of a virtual address at a level (R211). -/
def vaIndex (level va : Nat) : Nat :=
  if level = 0 then bits va 51 39 else if level = 1 then bits va 38 30 else if level = 2 then bits va 29 21
  else bits va 20 16
/-- Bytes a leaf at a level maps (R211). -/
def leafSize (level : Nat) : Nat := if level = 1 then 2 ^ 30 else if level = 2 then 2 ^ 21 else 2 ^ 16
/-- Alignment of a table at a level (R211). -/
def tableAlign (level : Nat) : Nat := if level = 0 then 2 ^ 16 else if level = 3 then 256 else 4096

/-- Whether a physical address is one that R209's layout has: bits [43:40] are 0 in region 00. -/
def paExists (pa : Nat) : Bool := !(regionOf pa == 0 && bits pa 43 40 != 0)

/-- The walk from a table at the first of the levels that remain (R213). -/
def walkFrom (m : Memory) (va : Nat) : List Nat → Nat → Walk
  | [], _ => .malformed
  | l :: ls, table =>
    let e := m.readN (table + 8 * vaIndex l va) 8
    let addr := 256 * bits e 45 8
    if !bit e 0 then .absent
    else if bits e 63 46 != 0 || bits e 7 5 != 0 || !paExists addr then .malformed
    else if bit e 1 then
      if l = 0 || addr % leafSize l != 0 then .malformed
      else .leaf ⟨addr, leafSize l, bit e 2, bit e 3, bit e 4⟩
    else if l = 3 || addr % tableAlign (l + 1) != 0 || regionOf addr != 0 then .malformed
    else walkFrom m va ls addr

/-- A walk from a root (R213). -/
def State.walk (s : State) (root va : Nat) : Walk := walkFrom s.mem va [0, 1, 2, 3] root

/-- The entry of a translation cache that holds an address (R214). -/
def tlbFind (l : List TlbEntry) (asid : Nat) (gen : BitVec 16) (va : Nat) : Option TlbEntry :=
  l.find? fun e => e.asid == asid && e.gen == gen && e.va ≤ va && va < e.va + e.size

/-- Enter a translation in a cache of n entries; a full one drops an entry that no rule names (log 7). -/
def tlbPut (n choice : Nat) (l : List TlbEntry) (e : TlbEntry) : List TlbEntry :=
  if l.length < n then l ++ [e] else l.eraseIdx (Config.victim choice % n) ++ [e]

def TlbEntry.leaf (e : TlbEntry) : Leaf := ⟨e.pa, e.size, e.r, e.w, e.x⟩

/-- The leaf for an address of an address space, through the core's and the die's translation caches (R214, R215). A
cached entry may have been displaced before it is looked up (log 7). -/
def State.lookup (s : State) (core asid : Nat) (gen : BitVec 16) (root va : Nat) : Walk × State :=
  let d := dieOf core
  let n := s.freeCtr
  let s1 := { s with freeCtr := n + 4 }
  let putCore := fun (s : State) (e : TlbEntry) =>
    let c := s.core core
    s.setCore core { c with tlb := tlbPut 128 (n + 2) c.tlb e }
  match tlbFind (s.core core).tlb asid gen va, Config.keeps n with
  | some e, true => (.leaf e.leaf, s1)
  | _, _ =>
  match tlbFind (s.die d).tlb asid gen va, Config.keeps (n + 1) with
  | some e, true => (.leaf e.leaf, putCore s1 e)
  | _, _ =>
  match s.walk root va with
  | .leaf l =>
    let e : TlbEntry := ⟨asid, gen, va - va % l.size, l.size, l.pa, l.r, l.w, l.x⟩
    let s2 := putCore s1 e
    (.leaf l, s2.setDie d { s2.die d with tlb := tlbPut 8192 (n + 3) (s2.die d).tlb e })
  | r => (r, s1)

/-! ## The checks of an access -/

/-- Why an access does not happen, in the memory form of R357. -/
structure MemErr where
  group : Nat
  reason : Nat
  access : Nat
  space : Nat
  va : Nat
  wr : Bool
  deriving DecidableEq, Repr

/-- Where an access lands: device, host or peer memory by physical address, or a core's scratchpad. -/
inductive Place where
  | mem (pa : Nat)
  | spad (core off : Nat)
  deriving DecidableEq, Repr

/-- What an access asks for: its space (0 device virtual, 1 own-core scratchpad, 2 cluster window), its access code
(R357), the rights it needs, its bytes, the log₂ of its alignment, whether regions 01 and 10 carry it out (R219), and
whether watchpoints see it (R365). -/
structure Req where
  space : Nat
  access : Nat
  needR : Bool
  needW : Bool
  size : Nat
  align : Nat
  bus : Bool
  watch : Bool
  deriving DecidableEq, Repr

/-- A request of an ordinary access of 2^lg bytes: read, write, or read-modify-write. -/
def reqOf (space access lg : Nat) (bus : Bool) : Req :=
  ⟨space, access, access != 1, access != 0, 2 ^ lg, lg, bus, true⟩

/-- The order of R351 among the groups that an access meets. -/
def memRank (g : Nat) : Nat :=
  if g = gALIGN then 5 else if g = gWATCH then 6 else if g = gXLATE then 7 else if g = gPERM then 8
  else if g = gGEN then 9 else 10

/-- The space of an access as a trap reports it (R357): 4 for a Hearth's physical one. -/
def Req.spaceFor (q : Req) (w : Warp) : Nat := if w.kind = .hearth && q.space = 0 then 4 else q.space

/-- The watchpoint that an access matches, lowest first (R355, R365). A Hearth's physical access is in no space that a
WPCTL can name. -/
def watchMatch (w : Warp) (q : Req) (a : Nat) : Option Nat :=
  if w.suppress || !q.watch then none
  else (List.range 2).find? fun n =>
    let c := (AMap.get 0 w.wpctl n).toNat
    let lg := bits c 5 2
    let first := (AMap.get 0 w.wpaddr n).toNat >>> lg <<< lg
    bits c 7 6 == q.spaceFor w && ((bit c 0 && q.access != 1) || (bit c 1 && q.access != 0)) &&
      a < first + 2 ^ lg && first < a + q.size

/-- The launch number under which a warp's scratchpad units are owned; a Hearth owns none (R220). -/
def Warp.owner (w : Warp) : Nat := if w.kind = .hearth then 0 else w.launch

/-- Whether a scratchpad unit of a core belongs to an owner (R220). -/
def State.ownsUnit (s : State) (owner core off : Nat) : Bool :=
  owner != 0 && AMap.find? (s.core core).units (off / 4096) == some owner

/-- One access of a warp on a core: the place it names, or the first condition of R351 that it meets. The Hearth
addresses device memory by physical address (log 10). -/
def State.resolve (s : State) (core : Nat) (w : Warp) (q : Req) (a : Nat) : Except MemErr Place × State :=
  let err := fun (g reason access space : Nat) =>
    ((.error ⟨g, reason, access, space, a % 2 ^ 64, q.needW⟩ : Except MemErr Place), s)
  let space := q.spaceFor w
  if a % 2 ^ q.align ≠ 0 then err gALIGN q.align q.access space
  else match watchMatch w q a with
  | some n => err gWATCH n q.access space
  | none =>
  if q.space = 1 then
    if 2 ^ 20 ≤ a then err gPERM 5 q.access 1
    else if s.ownsUnit w.owner core a then (.ok (.spad core a), s) else err gPERM 4 q.access 1
  else if q.space = 2 then
    let c := bits a 27 20
    let target := 192 * dieOf core + c
    if 2 ^ 28 ≤ a || 192 ≤ c then err gPERM 5 q.access 2
    else if s.ownsUnit w.owner target (a % 2 ^ 20) then (.ok (.spad target (a % 2 ^ 20)), s)
    else err gPERM 4 q.access 2
  else if w.kind = .hearth then
    if 2 ^ 46 ≤ a || !paExists a then err gPERM 5 q.access 4
    else if regionOf a = 3 || (regionOf a != 0 && !q.bus) then err gPERM 6 q.access 4
    else if s.onLostDie a then err gLINK 4 q.access 4
    else (.ok (.mem a), s)
  else if 2 ^ 52 ≤ a then err gPERM 5 q.access 0
  else match s.launch? w.launch with
  | none => err gGEN 0 q.access 0
  | some l =>
  match AMap.find? s.aspaces l.asid with
  | none => err gGEN 0 q.access 0
  | some sp =>
    let r := s.lookup core l.asid l.gen sp.root a
    match r.1 with
    | .absent => err gXLATE 0 q.access 0
    | .malformed => err gPERM 8 6 0
    | .leaf p =>
      let pa := p.pa + a % p.size
      if q.needR && !p.r then err gPERM 1 q.access 0
      else if q.needW && !p.w then err gPERM 2 q.access 0
      else if regionOf pa = 3 || (regionOf pa != 0 && !q.bus) then err gPERM 6 q.access 0
      else if sp.gen != l.gen then err gGEN 0 q.access 0
      else if s.onLostDie pa then err gLINK 4 q.access 0
      else (.ok (.mem pa), r.2)

/-- The trap of a failed access: the memory form of R357, or LINK's form. -/
def MemErr.trap (e : MemErr) (unif : Bool) (lanes : Nat) : Trap :=
  if e.group = gLINK then trapOf unif gLINK e.reason 0 0 else memTrap unif e.group e.reason e.access e.space lanes e.va e.wr

/-- The condition to raise among those that lanes meet: the first in the order of R351, of the lowest-numbered lane that
meets it, with every lane that meets its group (R349, R351, R376). -/
def worstErr (errs : List (Nat × MemErr)) : Option (Nat × MemErr) :=
  errs.foldl (fun best x =>
    match best with
    | none => some x
    | some b =>
      if memRank x.2.group < memRank b.2.group || (memRank x.2.group == memRank b.2.group && x.1 < b.1) then some x
      else some b) none

/-- The trap for the conditions that lanes meet, if any. -/
def errTrap (unif : Bool) (errs : List (Nat × MemErr)) : Option Trap :=
  (worstErr errs).map fun b =>
    b.2.trap unif (if unif then 1 else (maskOf fun l => errs.any fun x => x.1 == l && x.2.group == b.2.group).toNat)

/-- Resolve accesses one after the other: lane, request, address. -/
def State.resolveList (s : State) (core : Nat) (w : Warp) : List (Nat × Req × Nat) → List (Nat × Except MemErr Place) × State
  | [] => ([], s)
  | (l, q, a) :: t =>
    let r := s.resolve core w q a
    let u := State.resolveList r.2 core w t
    ((l, r.1) :: u.1, u.2)

/-- The places of the accesses, all of them, or the condition to raise. -/
def State.resolveReqs (s : State) (core : Nat) (w : Warp) (unif : Bool) (la : List (Nat × Req × Nat)) :
    Except Stop (List (Nat × Place) × State) :=
  let r := s.resolveList core w la
  match errTrap unif (r.1.filterMap fun x => match x.2 with | .error e => some (x.1, e) | .ok _ => none) with
  | some t => .error (.trap t)
  | none => .ok (r.1.filterMap fun x => match x.2 with | .ok p => some (x.1, p) | .error _ => none, r.2)

/-- The places of several lanes' accesses of one kind. -/
def State.resolveAll (s : State) (core : Nat) (w : Warp) (q : Req) (unif : Bool) (la : List (Nat × Nat)) :
    Except Stop (List (Nat × Place) × State) :=
  s.resolveReqs core w unif (la.map fun x => (x.1, q, x.2))

/-- One access that is its instruction's only one: a uniform instruction's. -/
def State.resolveOne (s : State) (q : Req) (a : Word) : Except Stop (Place × State) :=
  match s.resolveAll s.curCore s.w q true [(0, a.toNat)] with
  | .error e => .error e
  | .ok (ps, t) => match ps with | (_, p) :: _ => .ok (p, t) | [] => .error .stall

/-! ## Reading and writing a place -/

/-- Drop a core's L1 lines that a test selects. -/
def State.dropL1 (s : State) (core : Nat) (f : L1Line → Bool) : State :=
  s.setCore core { s.core core with l1 := (s.core core).l1.filter fun x => !f x }

/-- AcquireAt of a scope code on a core: at .c or wider it discards every L1 line (R218). -/
def State.acquireAt (s : State) (core scope : Nat) : State := if 2 ≤ scope then s.dropL1 core fun _ => true else s

/-- The scratchpad after a write: its bytes, and the poison of granules written whole (R394). -/
def State.writeSpad (s : State) (core off : Nat) (b : List Byte) : State :=
  let c := s.core core
  s.setCore core { c with spad := c.spad.writeBytes off b,
                          spadPoison := c.spadPoison.filter fun g => !(wholeGranules off b.length).contains g }

/-- Bytes that the core reads at the memory side: its L1 keeps no line of them, so that its next load of one reads nothing
older (R229). -/
def State.readSide (s : State) (core pa n : Nat) : List Byte × State :=
  (s.dropL1 core fun x => 256 * x.line < pa + n && pa < 256 * x.line + 256).readPhys pa n

/-- Whether a line may answer an access of n bytes at an offset (R228): an atomic one gets the bytes of one moment, so none
of the core's own stores since the line was brought has written only part of them, or the newest that did wrote them all
(log 103). -/
def L1Line.serves (x : L1Line) (off n : Nat) (atom : Bool) : Bool :=
  !atom || match x.own.find? fun r => r.1 < off + n && off < r.1 + r.2 with
    | some r => r.1 ≤ off && off + n ≤ r.1 + r.2
    | none => true

/-- A line after a store of the core to it: its bytes, and the store among its own ones (R218). -/
def L1Line.store (x : L1Line) (off : Nat) (b : List Byte) : L1Line :=
  { x with bytes := x.bytes.writeBytes off b
           own := (off, b.length) :: x.own.filter fun r => !(off ≤ r.1 && r.1 + r.2 ≤ off + b.length) }

/-- A load of device memory through a core's L1 (R218): a line it holds answers, unless it has been displaced (log 6) or may
not answer an atomic access (R228); otherwise memory answers, and the line is allocated unless the hint is .nl (3). A full
L1 replaces a line that .ef (1) brought before any other. Regions 01 and 10 bypass it (R219). -/
def State.loadPhys (s : State) (core pa n hint : Nat) (atom : Bool) : List Byte × State :=
  if regionOf pa ≠ 0 then s.readPhys pa n
  else
    let c := s.core core
    let line := pa / 256
    let k := s.freeCtr
    let s1 := { s with freeCtr := k + 2 }
    match c.l1.find? (fun x => x.line == line && x.serves (pa % 256) n atom), Config.keeps k with
    | some x, true => (x.bytes.bytes (pa % 256) n, s1)
    | _, _ =>
      let kept := c.l1.filter fun x => x.line != line
      let out := if kept.any (·.first) then kept.findIdx (·.first) else Config.victim (k + 1) % 256
      let room := if kept.length < 256 then kept else kept.eraseIdx out
      let l1 := if hint = 3 then kept else room ++ [⟨line, s.mem.slice (256 * line) 256, hint == 1, []⟩]
      (s.mem.bytes pa n, s1.setCore core { c with l1 := l1 })

/-- A store from a core: memory takes the bytes, and a line of the core's own L1 is updated (R218). -/
def State.storePhys (s : State) (core pa : Nat) (b : List Byte) : State :=
  let s1 := s.writePhys pa b
  if regionOf pa ≠ 0 then s1
  else
    let c := s1.core core
    s1.setCore core { c with l1 := c.l1.map fun x =>
      if x.line = pa / 256 then x.store (pa % 256) b else x }

/-- Read n bytes at a place, from a core; atom tells an atomic access (R227). -/
def State.readPlace (s : State) (core : Nat) (p : Place) (n hint : Nat) (atom : Bool) : List Byte × State :=
  match p with
  | .mem pa => s.loadPhys core pa n hint atom
  | .spad c off => ((s.core c).spad.bytes off n, s)

/-- Write bytes at a place, from a core. -/
def State.writePlace (s : State) (core : Nat) (p : Place) (b : List Byte) : State :=
  match p with
  | .mem pa => s.storePhys core pa b
  | .spad c off => s.writeSpad c off b

/-- Whether the bytes at a place hold poison (R393). -/
def State.placePoison (s : State) (p : Place) (n : Nat) : Bool :=
  match p with
  | .mem pa => s.poisoned pa n
  | .spad c off => (granules off n).any fun g => (s.core c).spadPoison.contains g

/-- The cores whose parked JOINW waits on a counter's physical address get a notification (R302). -/
def State.notifyJoin (s : State) (pa : Nat) : State :=
  let mark := fun (w : Warp) =>
    match w.park with
    | some (.join va p true _) => if p = pa then { w with park := some (.join va p true true) } else w
    | _ => w
  { s with cores := s.cores.map fun c =>
      (c.1, { c.2 with warps := c.2.warps.map fun x => (x.1, mark x.2) }) }

/-- After an atomic write of at most 8 aligned bytes: a counter that it leaves at 0 notifies its waiters (R302). -/
def State.notifyZero (s : State) (pa : Nat) : State :=
  if regionOf pa = 0 && s.mem.readN (pa / 8 * 8) 8 = 0 then s.notifyJoin (pa / 8 * 8) else s

/-- An atomic read-modify-write of n bytes at a place (R145, R147, R218): the old value; nothing is written when the
new value is none. It is performed at the memory side, so the core drops its L1 copy; a write that leaves a 64-bit
location at 0 wakes the JOINW that wait on it (R302). -/
def State.rmwPlace (s : State) (core : Nat) (p : Place) (n : Nat) (f : Nat → Option Nat) : Nat × State :=
  match p with
  | .spad c off =>
    let old := (s.core c).spad.readN off n
    match f old with
    | none => (old, s)
    | some x => (old, s.writeSpad c off (leBytes n x))
  | .mem pa =>
    let s1 := s.dropL1 core fun x => x.line == pa / 256
    let r := s1.readPhys pa n
    let old := leNat r.1
    match f old with
    | none => (old, r.2)
    | some x =>
      (old, (r.2.writePhys pa (leBytes n x)).notifyZero pa)

/-! ## Instruction fetch -/

/-- The physical address that instruction fetch of a launch reads for a virtual address (R87, R213), or none when the
word cannot be fetched: outside the space, unmapped, X clear, or outside region 00. It inserts nothing in a
translation cache (log 7). -/
def State.fetchPa (s : State) (l : Launch) (va : Nat) : Except Trap Nat :=
  let fail := memTrap false gFETCH 0 3 0 1 va false
  if 2 ^ 52 ≤ va then .error fail
  else match AMap.find? s.aspaces l.asid with
  | none => .error fail
  | some sp =>
    match s.walk sp.root va with
    | .absent => .error fail
    | .malformed => .error (memTrap false gPERM 8 6 0 1 va false)
    | .leaf p =>
      let pa := p.pa + va % p.size
      if !p.x || regionOf pa ≠ 0 || s.poisoned pa 4 then .error fail
      else if s.onLostDie pa then .error (trapOf false gLINK 4 0 0) else .ok pa

/-- The word that the warp's fetch finds at an address: a launch's code is memory as it stood when the launch started
(R87); a Hearth context fetches physical memory (log 10), but not that of an isolated die (R438). -/
def State.fetchWord (s : State) (w : Warp) (va : Nat) : Except Trap (List Byte) :=
  let fail := memTrap false gFETCH 0 3 (if w.kind = .hearth then 4 else 0) 1 va false
  if w.kind = .hearth then
    if regionOf va ≠ 0 || 2 ^ 40 ≤ va || s.poisoned va 4 then .error fail
    else if s.onLostDie va then .error (trapOf false gLINK 4 0 0) else .ok (s.mem.bytes va 4)
  else match s.launch? w.launch with
  | none => .error fail
  | some l =>
    match s.fetchPa l va with
    | .error t => .error t
    | .ok pa => .ok (l.code.bytes pa 4)

end Sys2Proof.Machine
end

