-- ==== Sys2Proof/Machine/Frames.lean ====
section
/-! DEFINITION. What lies in a warp's spill area (R47 to R49, R53, R54): spill records of frames, and divergence
entries; pushing and popping the divergence stack, and the pops of R154. -/
namespace Sys2Proof.Machine

/-- A spill-area access: access code 5, device virtual, not watched, not carried out in regions 01 and 10 (R48, R219,
R365). An area that is not aligned to 256 is reached unit by unit through the page of the unit's first byte (log 21). -/
def spillReq (needW : Bool) (size : Nat) : Req := ⟨0, 5, !needW, needW, size, 0, false, false⟩

/-- A WINDOW trap (R357, R367): reason, the n or m named, the word and the occupancy. -/
def windowTrap (i : Instr) (reason named occ : Nat) : Trap :=
  trapOf (isUni i) gWINDOW (reason + 16 * (named % 64)) (wordsOf i).1 (occ % 2 ^ 24)

/-! ## Frames -/

/-- A resident frame below the current one: base, m, the overlap of its call into the next frame, its own link. -/
structure Resident where
  base : Nat
  m : Nat
  n : Nat
  link : Option Link
  deriving DecidableEq, Repr

/-- The number of resident frames, the current one included. -/
def Warp.residents (w : Warp) : Nat := w.frames.length - w.spilled.length

/-- The resident frames below the current one, oldest first. -/
def Warp.below (w : Warp) : List Resident :=
  ((List.range (w.residents - 1)).map fun k =>
    let f := w.frames.getD (k + 1) (0, 0)
    (⟨f.1, f.2, (w.links.getD k ⟨0, 0, 0, false, false⟩).n, w.links[k + 1]?⟩ : Resident)).reverse

/-- The frames to spill so that a stack whose top is at a given offset fits the budget (R47). -/
def framesToSpill (budget top : Nat) : List Resident → List Resident
  | [] => []
  | r :: rs => if top - r.base ≤ budget then [] else r :: framesToSpill budget top rs

/-- Where the next spill record goes (R48): above the newest one. -/
def Warp.nextRecord (w : Warp) : Nat :=
  match w.spilled with
  | r :: _ => r.addr + 256 * (r.count + 1)
  | [] => w.spillBase

/-- Where the spilled divergence entries begin (R53). -/
def Warp.divFloor (w : Warp) : Nat := w.spillBase + w.spillSize - 16 * w.divSpilled

/-- The header unit of a spill record (R48, R359). -/
def recordHeader (l : Option Link) : List Byte :=
  (match l with
   | some l => leBytes 8 l.ret.toNat ++ [BitVec.ofNat 8 l.callerM, BitVec.ofNat 8 l.n, 0, if l.trap then 1 else 0]
   | none => leBytes 8 0 ++ [0, 0, 1, 0]) ++ List.replicate 244 0

/-- The poisoned 64-byte granules of a data unit: those that hold a poisoned lane (R394). -/
def poisonedParts (w : Warp) (off : Nat) : List Nat :=
  (List.range 8).filter fun g => w.vPoison.any fun p => p.reg == off && p.lane / 8 == g

/-- Write the units of a spill record whose places are known. -/
def State.writeUnits (s : State) (core : Nat) (w : Warp) (r : Resident) : List (Nat × Place) → State
  | [] => s
  | (j, p) :: ps =>
    let b := if j = 0 then recordHeader r.link
      else (List.range 32).flatMap fun l => leBytes 8 ((AMap.get zeroLanes w.vregs (r.base + j - 1)).getD l 0).toNat
    let s := s.writePlace core p b
    let bad := if j = 0 then [] else poisonedParts w (r.base + j - 1)
    let s := match p with
      | .mem pa => { s with memPoison := s.memPoison ++ (bad.map (pa / 64 + ·)).filter fun g => !s.memPoison.contains g }
      | .spad _ _ => s
    State.writeUnits s core w r ps

/-- Spill one frame of a warp, its first count registers (R48): stalls while a register of it is empty (R49). -/
def State.spillFrame (s : State) (core : Nat) (w : Warp) (unif : Bool) (r : Resident) (count : Nat) :
    Except Stop (State × Warp) :=
  if (List.range r.m).any fun j => w.vEmpty.contains (r.base + j) then .error .stall
  else
    let a := w.nextRecord
    match s.resolveAll core w (spillReq true 256) unif ((List.range (count + 1)).map fun j => (0, a + 256 * j)) with
    | .error e => .error e
    | .ok (ps, s) =>
      let s := s.writeUnits core w r ((List.range (count + 1)).zip (ps.map Prod.snd))
      .ok (s, { w with spilled := ⟨a, count⟩ :: w.spilled,
                       vPoison := w.vPoison.filter fun p => !(r.base ≤ p.reg && p.reg < r.base + count) })

/-- Spill frames, oldest first. -/
def State.spillFrames (s : State) (core : Nat) (w : Warp) (unif : Bool) : List Resident → Except Stop (State × Warp)
  | [] => .ok (s, w)
  | r :: rs =>
    match s.spillFrame core w unif r (r.m - r.n) with
    | .error e => .error e
    | .ok (s, w) => State.spillFrames s core w unif rs

/-- The bytes that spilling frames takes. -/
def spillBytes (rs : List Resident) : Nat := rs.foldl (fun n r => n + 256 * (r.m - r.n + 1)) 0

/-- The lanes of a unit that lie in poisoned granules (R393). -/
def State.unitPoison (s : State) (p : Place) (va off : Nat) : List RegPoison :=
  match p with
  | .spad _ _ => []
  | .mem pa => ((List.range 32).filter fun l => s.poisoned (pa + 8 * l) 8).map fun l =>
      ⟨off, l, 1, BitVec.ofNat 64 (va + 8 * l), 0, 0, 0⟩

/-- Fill the registers of the newest spilled frame, whose base is given, from its record (R49). -/
def State.fillFrame (s : State) (core : Nat) (w : Warp) (unif : Bool) (base : Nat) : Except Stop (State × Warp) :=
  match w.spilled with
  | [] => .ok (s, w)
  | r :: rs =>
    let va := fun j => r.addr + 256 * (j + 1)
    match s.resolveAll core w (spillReq false 256) unif ((List.range r.count).map fun j => (0, va j)) with
    | .error e => .error e
    | .ok (ps, s) =>
      let units := (List.range r.count).zip (ps.map Prod.snd)
      let w := units.foldl (fun (w : Warp) x =>
        let b := match x.2 with | .mem pa => s.mem.bytes pa 256 | .spad _ _ => []
        let v := Lanes.of fun l => BitVec.ofNat 64 (leNat ((b.drop (8 * l)).take 8))
        let w := w.setOff (base + x.1) 0xFFFFFFFF v
        { w with vPoison := w.vPoison ++ s.unitPoison x.2 (va x.1) (base + x.1) }) w
      .ok (s, { w with spilled := rs })

/-- Make the frame at an index resident, discarding the frames above it: frame 0 is the current one. The spill records
of discarded frames go with them (R49, R360). -/
def State.residentAt (s : State) (core : Nat) (w : Warp) (unif : Bool) (idx : Nat) : Except Stop (State × Warp) :=
  let res := w.residents
  if idx < res then .ok (s, w)
  else s.fillFrame core { w with spilled := w.spilled.drop (idx - res) } unif (w.frames.getD idx (0, 0)).1

/-! ## The divergence stack -/

/-- The bytes of a divergence entry (R53). -/
def divBytes (e : DivEntry) : List Byte :=
  leBytes 8 e.addr.toNat ++ leBytes 4 e.mask.toNat ++ [if e.pending then 1 else 0, 0, 0, 0]

/-- The divergence entry of 16 bytes. -/
def divOfBytes (b : List Byte) : DivEntry :=
  ⟨BitVec.ofNat 64 (leNat (b.take 8)), BitVec.ofNat 32 (leNat ((b.drop 8).take 4)), (b.getD 12 0).getLsbD 0⟩

/-- Push an entry (R53): a full on-chip stack first writes its oldest entry to the spill area, or raises WINDOW 6 when
it would meet the spill records (R54, R367). -/
def State.pushDiv (s : State) (core : Nat) (w : Warp) (i : Instr) (e : DivEntry) : Except Stop (State × Warp) :=
  if w.div.length < 16 then .ok (s, { w with div := e :: w.div })
  else
    let a := w.divFloor
    if a < w.nextRecord + 16 then .error (.trap (windowTrap i 6 0 w.occupancy))
    else match s.resolveAll core w (spillReq true 16) (isUni i) [(0, a - 16)] with
    | .error e => .error e
    | .ok (ps, s) =>
      let s := match ps, w.div.getLast? with
        | (_, p) :: _, some old => s.writePlace core p (divBytes old)
        | _, _ => s
      .ok (s, { w with div := e :: w.div.dropLast, divSpilled := w.divSpilled + 1 })

/-- Read the spilled divergence entry number k, the newest being divSpilled − 1 (R53). Lanes that have left the launch
mask have left its mask too (R155). -/
def State.readDiv (s : State) (core : Nat) (w : Warp) (unif : Bool) (k : Nat) : Except Stop (DivEntry × State) :=
  match s.resolveAll core w (spillReq false 16) unif [(0, w.spillBase + w.spillSize - 16 * (k + 1))] with
  | .error e => .error e
  | .ok (ps, s) =>
    match ps with
    | (_, .mem pa) :: _ =>
      let e := divOfBytes (s.mem.bytes pa 16)
      .ok ({ e with mask := e.mask &&& w.launchMask }, s)
    | _ => .error .stall

/-- The address of the newest RECONV entry among the spilled ones below k (R154). -/
def State.spilledReconv (s : State) (core : Nat) (w : Warp) (unif : Bool) : Nat → Except Stop (Option Word × State)
  | 0 => .ok (none, s)
  | k + 1 =>
    match s.readDiv core w unif k with
    | .error e => .error e
    | .ok (e, s) => if e.pending then State.spilledReconv s core w unif k else .ok (some e.addr, s)

/-- The resume address of the newest RECONV entry (R154). -/
def State.newestReconv (s : State) (core : Nat) (w : Warp) (unif : Bool) : Except Stop (Option Word × State) :=
  match w.div.find? fun e => !e.pending with
  | some e => .ok (some e.addr, s)
  | none => s.spilledReconv core w unif w.divSpilled

/-- Pop the top entry (R154): PENDING continues at its address, RECONV where the warp stands, both with the entry's
mask. A pop that empties the on-chip stack reloads the newest spilled entry (R53). -/
def State.popDiv (s : State) (core : Nat) (w : Warp) (unif : Bool) : Except Stop (State × Warp) :=
  match w.div with
  | [] => .ok (s, w)
  | e :: es =>
    let w1 := { w with div := es, active := e.mask &&& w.launchMask, pc := if e.pending then e.addr else w.pc }
    if es.isEmpty && w.divSpilled != 0 then
      match s.readDiv core w1 unif (w.divSpilled - 1) with
      | .error e => .error e
      | .ok (x, s) => .ok (s, { w1 with div := [x], divSpilled := w.divSpilled - 1 })
    else .ok (s, w1)

/-- The pops of R154 before the instruction at the warp's pc issues; fuel bounds the entries. -/
def State.reconverge (s : State) (core : Nat) (unif : Bool) : Nat → Warp → Except Stop (State × Warp)
  | 0, w => .ok (s, w)
  | fuel + 1, w =>
    if w.div.isEmpty then .ok (s, w)
    else match s.newestReconv core w unif with
    | .error e => .error e
    | .ok (a, s1) =>
      if a = some w.pc || (w.active == 0 && w.launchMask != 0) then
        match s1.popDiv core w unif with
        | .error e => .error e
        | .ok (s2, w2) => State.reconverge s2 core unif fuel w2
      else .ok (s1, w)

end Sys2Proof.Machine
end

