-- ==== Sys2Proof/Machine/LaneMem.lean ====
section
/-! DEFINITION. The lane memory instructions (R142 to R151). Every acting lane's checks come before any access (R349);
the lanes then act in increasing order (R145, R147). -/
namespace Sys2Proof.Machine

/-- The register sources of a memory instruction: va, vb, vc and the uniform register of the address. -/
def memSrcs (i : LaneW) (b c : Bool) : List Src :=
  [vSrc i.va.toNat i.ta 0] ++ (if b then [vSrc i.vb.toNat i.tb 1] else []) ++ (if c then [vSrc i.vc i.tc 2] else []) ++
    (if addrK i = 0 then [] else [kSrc (addrK i)])

/-- The acting lanes with their addresses, in increasing order (R97). -/
def laneAddrs (w : Warp) (i : LaneW) (m : LaneMask) : List (Nat × Nat) :=
  (lanesOf m).map fun l => (l, (laneAddr w i l).toNat)

/-- log₂ of the access width of a type in bytes (R142). -/
def tyLog (ty : Nat) : Nat := (tyWidth ty / 8).log2

/-- The frame of a lane memory instruction: no effect when no lane acts (R89); full/empty checks; the checks of every
acting lane's access; poisoned sources last (R351); then the body with the lanes' places. -/
def laneMem (i : Instr) (lw : LaneW) (b c : Bool) (vd : Option Nat) (q : Req)
    (body : State → List (Nat × Place) → State) (s : State) : Except Stop State :=
  let w := s.w
  let m := w.acts lw
  if m = 0 then .ok (s.finish (s.nextPc i))
  else
    match readyCheck w i (memSrcs lw b c) vd none with
    | .error e => .error e
    | .ok () =>
    match s.resolveAll s.curCore w q false (laneAddrs w lw m) with
    | .error e => .error e
    | .ok (ps, t) =>
    match poisonCheck w false m (memSrcs lw b c) with
    | .error e => .error e
    | .ok () => let t := body t ps; .ok (t.finish (t.nextPc i))

/-- A value of a type as a load delivers it: sign- or zero-extended (R144). -/
def loadExt (ty x : Nat) : Word := if tySigned ty then signExt (tyWidth ty) x else zeroExt (tyWidth ty) x

/-- Put a producer in flight: its destination is empty until it completes (R50); k0 never is, DEDUCED (log 137). -/
def Warp.launchLoad (w : Warp) (f : InFlight) : Warp :=
  if f.toK then
    if f.reg = 0 then w else { w with kEmpty := f.reg :: w.kEmpty, inflight := w.inflight ++ [f] }
  else { w with vEmpty := f.reg :: w.vEmpty, inflight := w.inflight ++ [f] }

/-- Whether an access of this ORD acquires; and releases (R96). -/
def ordAcq (o : Nat) : Bool := o = 2 || o = 4
def ordRel (o : Nat) : Bool := o = 3 || o = 4

/-- The scope code at which an acquire acts: with REM it synchronises as though it and the release were at .m; .s stays
(R238). -/
def acqScope (scope : Nat) (rem : Bool) : Nat := if rem && scope < 3 then 3 else scope

/-- The AcquireAt after the read of an instruction with an acquiring ORD (R144, R147, R164, R218). REM widens a narrower
scope (R238). -/
def State.acquireRead (s : State) (o scope : Nat) (rem : Bool) : State :=
  if ordAcq o then s.acquireAt s.curCore (acqScope scope rem) else s

/-- Read each lane's value at its place: lane, bytes as a number, and whether a byte is poisoned (R394). -/
def State.readLanes (s : State) (n hint : Nat) (atom : Bool) : List (Nat × Place) → List (Nat × Nat × Bool) × State
  | [] => ([], s)
  | (l, p) :: ps =>
    let r := s.readPlace s.curCore p n hint atom
    let u := State.readLanes r.2 n hint atom ps
    ((l, leNat r.1, s.placePoison p n) :: u.1, u.2)

/-- A lane load (R144): values are taken at issue (log 4), and the destination fills at LOAD_COMPLETE. -/
def loadBody (lw : LaneW) (space : Nat) (s : State) (ps : List (Nat × Place)) : State :=
  let m := maskOf fun l => ps.any fun x => x.1 == l
  let addr := fun l => laneAddr s.w lw l
  let r := s.readLanes (tyWidth lw.t / 8) lw.hint (lw.ord != 0) ps
  let s := r.2.acquireRead lw.ord lw.scp lw.rem
  let w := s.w
  let off := w.base + lw.vd.toNat
  let poison := (r.1.filter fun x => x.2.2).map fun x =>
    (⟨off, x.1, if space = 0 then 1 else 3, addr x.1, if w.kind = .hearth && space = 0 then 4 else space, 0, 0⟩ : RegPoison)
  let vals := Lanes.of fun l => match r.1.find? fun x => x.1 == l with | some x => loadExt lw.t x.2.1 | none => 0
  s.setW (w.launchLoad ⟨false, off, m, vals, poison⟩)

/-- Write each lane's data at its place, in increasing lane order: the highest lane's value remains (R145). -/
def State.writeLanes (s : State) (n : Nat) (data : Nat → Nat) : List (Nat × Place) → State
  | [] => s
  | (l, p) :: ps => State.writeLanes (s.writePlace s.curCore p (leBytes n (data l))) n data ps

/-- The notifications of atomic stores (R227, R302). -/
def State.notifyStores (s : State) (atomic : Bool) (ps : List (Nat × Place)) : State :=
  if atomic then ps.foldl (fun s p => match p.2 with | .mem pa => s.notifyZero pa | .spad _ _ => s) s else s

/-- A lane store (R144): performed at once (log 5). -/
def storeBody (lw : LaneW) (s : State) (ps : List (Nat × Place)) : State :=
  let v := s.w.v lw.vb.toNat
  (s.writeLanes (tyWidth lw.t / 8) (fun l => (v.getD l 0).toNat) ps).notifyStores (lw.ord != 0) ps

/-- A lane load in a space. -/
def laneLoad (i : Instr) (w : LaneW) (space : Nat) (s : State) : Except Stop State :=
  laneMem i w false false (some w.vd.toNat) (reqOf space 0 (tyLog w.t) true) (loadBody w space) s
/-- A lane store in a space. -/
def laneStore (i : Instr) (w : LaneW) (space : Nat) (s : State) : Except Stop State :=
  laneMem i w true false none (reqOf space 1 (tyLog w.t) true) (storeBody w) s

/-- LD (R144). -/
def execLd (w : LaneW) (s : State) : Host.Outcome State Fault Refusal := issue (.ld w) s (laneLoad (.ld w) w 0)
/-- ST (R144). -/
def execSt (w : LaneW) (s : State) : Host.Outcome State Fault Refusal := issue (.st w) s (laneStore (.st w) w 0)
/-- LDS (R144). -/
def execLds (w : LaneW) (s : State) : Host.Outcome State Fault Refusal := issue (.lds w) s (laneLoad (.lds w) w 1)
/-- STS (R144). -/
def execSts (w : LaneW) (s : State) : Host.Outcome State Fault Refusal := issue (.sts w) s (laneStore (.sts w) w 1)
/-- LDC (R144). -/
def execLdc (w : LaneW) (s : State) : Host.Outcome State Fault Refusal := issue (.ldc w) s (laneLoad (.ldc w) w 2)
/-- STC (R144). -/
def execStc (w : LaneW) (s : State) : Host.Outcome State Fault Refusal := issue (.stc w) s (laneStore (.stc w) w 2)

/-- The new value of an atomic operation (R146). -/
def atomNew (op ty old b : Nat) : Nat :=
  let w := tyWidth ty
  if op = 0 then (old + b) % 2 ^ w
  else if op = 1 then (if intVal ty b < intVal ty old then b else old)
  else if op = 2 then (if intVal ty old < intVal ty b then b else old)
  else if op = 3 then old &&& b
  else if op = 4 then old ||| b
  else if op = 5 then old ^^^ b
  else if op = 6 then b
  else if intVal ty b ≤ intVal ty old then 0 else (old + 1) % 2 ^ w

/-- Each lane's read-modify-write in increasing lane order (R147): the old values and whether each was poisoned. -/
def State.rmwLanes (s : State) (n : Nat) (f : Nat → Nat → Option Nat) : List (Nat × Place) → List (Nat × Nat × Bool) × State
  | [] => ([], s)
  | (l, p) :: ps =>
    let bad := s.placePoison p n
    let r := s.rmwPlace s.curCore p n (f l)
    let u := State.rmwLanes r.2 n f ps
    ((l, r.1, bad) :: u.1, u.2)

/-- ATOM and CAS (R147): the old value is returned unless NR. -/
def atomBody (lw : LaneW) (space : Nat) (nr : Bool) (f : Warp → Nat → Nat → Option Nat) (s : State)
    (ps : List (Nat × Place)) : State :=
  let m := maskOf fun l => ps.any fun x => x.1 == l
  let addr := fun l => laneAddr s.w lw l
  let r := s.rmwLanes (tyWidth lw.t / 8) (f s.w) ps
  let s := r.2.acquireRead lw.ord lw.scp lw.rem
  let w := s.w
  if nr then s
  else
    let off := w.base + lw.vd.toNat
    let poison := (r.1.filter fun x => x.2.2).map fun x =>
      (⟨off, x.1, if space = 0 then 1 else 3, addr x.1, if w.kind = .hearth && space = 0 then 4 else space, 0, 0⟩ : RegPoison)
    let vals := Lanes.of fun l => match r.1.find? fun x => x.1 == l with | some x => loadExt lw.t x.2.1 | none => 0
    s.setW (w.launchLoad ⟨false, off, m, vals, poison⟩)

/-- ATOM (R146, R147): in regions 01 and 10 only .add and .exch, at 32 or 64 bits (R219). -/
def execAtom (w : LaneW) (s : State) : Host.Outcome State Fault Refusal :=
  let space := if w.atomSp then 2 else 0
  let wd := tyWidth w.t
  issue (.atom w) s (laneMem (.atom w) w true false (if w.atomNr then none else some w.vd.toNat)
    (reqOf space 2 (tyLog w.t) (w.atomOp = 0 || w.atomOp = 6))
    (atomBody w space w.atomNr fun x l old =>
      some (atomNew w.atomOp w.t old (((x.v w.vb.toNat).getD l 0).toNat % 2 ^ wd))))

/-- CAS (R147): compared as bits. -/
def execCas (w : LaneW) (s : State) : Host.Outcome State Fault Refusal :=
  let wd := tyWidth w.t
  issue (.cas w) s (laneMem (.cas w) w true true (some w.vd.toNat) (reqOf 0 2 (tyLog w.t) true)
    (atomBody w 0 false fun x l old =>
      if old = ((x.v w.vb.toNat).getD l 0).toNat % 2 ^ wd then some (((x.v w.vc).getD l 0).toNat % 2 ^ wd) else none))

/-- Round(ty, old + x, RNE) as the memory side adds (R148): no flushing; the NaN rule of R79. -/
def memAdd (ty old x : Nat) : Nat := (addF ty 0 false old x).pat

/-- The WID that keys a warp's ordered adds: its block's, or a child's own (R148). -/
def Warp.addKey (w : Warp) : Word := w.wid

/-- FADDO (R148): the core discards its L1 copies (R218), and each lane's contribution is recorded in the launch's
ordered-add queue; a Hearth context belongs to no launch and records none (log 10). A stack that holds 131,072
contributions of open epochs records no more, and the launch stops with STACKENG 10 (R398). -/
def recordAdds (lw : LaneW) (s : State) (ps : List (Nat × Place)) : State :=
  let w := s.w
  let s := ps.foldl (fun s p => match p.2 with | .mem pa => s.dropL1 s.curCore fun y => y.line == pa / 256 | _ => s) s
  match s.curLaunch? with
  | none => s
  | some l =>
    let x := w.v lw.vb.toNat
    let stack := fun pa => pa / 2 ^ 36
    let one := fun (acc : Launch × Option Nat) (p : Nat × Place) =>
      match p.2 with
      | .spad _ _ => acc
      | .mem pa =>
        let held := s.launches.foldl (fun n y =>
          let cs := if y.1 = w.launch then acc.1.contribs else y.2.contribs
          n + (cs.filter fun c => stack c.pa == stack pa).length) 0
        if 131072 ≤ held then (acc.1, acc.2.orElse fun _ => some (laneAddr w lw p.1).toNat)
        else ({ acc.1 with contribs := acc.1.contribs ++
                  [⟨w.epoch, w.addKey, w.idx, p.1, w.faddoCount, pa, lw.t, zeroExt (tyWidth lw.t) (x.getD p.1 0).toNat⟩] },
              acc.2)
    let r := ps.foldl one (l, none)
    let l' := match r.2 with
      | none => r.1
      | some va => r.1.record ⟨0, coreId s.curCore, BitVec.ofNat 32 (2 ^ 16 * 10), BitVec.ofNat 32 va,
          BitVec.ofNat 32 (bits va 51 32), 0, BitVec.ofNat 7 (32 + gSTACKENG), 0xFF, 0xFF, 4⟩ s.clock
    (s.setLaunch w.launch l').setW { s.w with faddoCount := w.faddoCount + 1 }

/-- FADDO (R148, R376): not carried out in regions 01 and 10. -/
def execFaddo (w : LaneW) (s : State) : Host.Outcome State Fault Refusal :=
  issue (.faddo w) s (laneMem (.faddo w) w true false none (reqOf 0 2 (tyLog w.t) false) (recordAdds w))

/-- FADDA (R148): each lane adds atomically at its location. -/
def execFadda (w : LaneW) (s : State) : Host.Outcome State Fault Refusal :=
  let wd := tyWidth w.t
  issue (.fadda w) s (laneMem (.fadda w) w true false none (reqOf 0 2 (tyLog w.t) false) fun s ps =>
    let v := s.w.v w.vb.toNat
    (s.rmwLanes (wd / 8) (fun l old => some (memAdd w.t old ((v.getD l 0).toNat % 2 ^ wd))) ps).2)

/-- A memory-class instruction without traps of its access: full/empty checks, poison, then the body with the acting
lanes' addresses. -/
def laneQuiet (i : Instr) (lw : LaneW) (body : State → List (Nat × Nat) → State) (s : State) : Except Stop State :=
  let w := s.w
  let m := w.acts lw
  if m = 0 then .ok (s.finish (s.nextPc i))
  else
    match readyCheck w i (memSrcs lw false false) none none with
    | .error e => .error e
    | .ok () =>
    match poisonCheck w false m (memSrcs lw false false) with
    | .error e => .error e
    | .ok () => let t := body s (laneAddrs w lw m); .ok (t.finish (t.nextPc i))

/-- PFETCH (R149): the line enters the L1 with hint none or .ef; an address that does not translate has no effect, nor,
DEDUCED (log 139), one whose page lacks R or that a load could not read otherwise. -/
def execPfetch (w : LaneW) (s : State) : Host.Outcome State Fault Refusal :=
  issue (.pfetch w) s (laneQuiet (.pfetch w) w fun s la =>
    la.foldl (fun s x =>
      let r := s.resolve s.curCore s.w { reqOf 0 0 0 true with watch := false } x.2
      match r.1 with
      | .ok (.mem pa) =>
        if regionOf pa = 0 && (w.hint = 0 || w.hint = 1) then
          (r.2.loadPhys s.curCore (256 * (pa / 256)) 1 w.hint false).2
        else r.2
      | _ => s) s)

/-! ## The tag table (R150) -/

/-- The way of a set that is valid with a tag. -/
def tagWay (t : TagMap) (set : Nat) (tag : BitVec 36) : Option Nat :=
  (List.range 8).find? fun y => AMap.find? t (8 * set + y) == some tag

/-- Set and tag of an address: A[15:8] and A[51:16]. -/
def tagSet (a : Nat) : Nat := bits a 15 8
def tagOf (a : Nat) : BitVec 36 := BitVec.ofNat 36 (bits a 51 16)

/-- TLOOK's result for an address (R150): the slot, or bit 63 and the lowest invalid way, or the set's pointer. -/
def tagLook (c : Core) (a : Nat) : Word :=
  let st := tagSet a
  match tagWay c.tags st (tagOf a) with
  | some y => BitVec.ofNat 64 (8 * st + y)
  | none =>
    let v := ((List.range 8).find? fun y => (AMap.find? c.tags (8 * st + y)).isNone).getD (AMap.get 0 c.tagPtr st)
    BitVec.ofNat 64 (2 ^ 63 + 8 * st + v)

/-- TINS of one lane (R150, R377): another way that holds the tag is cleared in the same step. -/
def tagInsert (c : Core) (a slot : Nat) : Core :=
  let st := tagSet a
  let tags := match tagWay c.tags st (tagOf a) with
    | some y => if 8 * st + y = slot then c.tags else c.tags.erase (8 * st + y)
    | none => c.tags
  { c with tags := AMap.set tags slot (tagOf a), tagPtr := c.tagPtr.set st ((slot % 8 + 1) % 8) }

/-- TINV of one lane (R150). -/
def tagRemove (c : Core) (a : Nat) : Core :=
  match tagWay c.tags (tagSet a) (tagOf a) with
  | some y => { c with tags := c.tags.erase (8 * tagSet a + y) }
  | none => c

/-- The alignment and space checks of the tag-table instructions (R142, R376), and for TINS the slot's set (R377). -/
def tagCheck (w : Warp) (lw : LaneW) (m : LaneMask) (slot : Bool) : Except Stop Unit :=
  let err := fun (x : Nat × Nat) =>
    let e := fun (g r : Nat) => some (x.1, (⟨g, r, if slot then 1 else 0, 3, x.2, false⟩ : MemErr))
    if x.2 % 8 ≠ 0 then e gALIGN 3
    else if 2 ^ 52 ≤ x.2 then e gPERM 5
    else if slot && bits ((w.v lw.vb.toNat).getD x.1 0).toNat 10 3 != tagSet x.2 then e gPERM 7
    else none
  let errs := (laneAddrs w lw m).filterMap err
  match errTrap false errs with
  | none => .ok ()
  | some t => .error (.trap t)

/-- The frame of the tag-table instructions: each acting lane acts on the core in increasing order. -/
def laneTag (i : Instr) (lw : LaneW) (b : Bool) (vd : Option Nat) (body : State → List (Nat × Nat) → State) (s : State) :
    Except Stop State :=
  let w := s.w
  let m := w.acts lw
  if m = 0 then .ok (s.finish (s.nextPc i))
  else
    match readyCheck w i (memSrcs lw b false) vd none with
    | .error e => .error e
    | .ok () =>
    match tagCheck w lw m b with
    | .error e => .error e
    | .ok () =>
    match poisonCheck w false m (memSrcs lw b false) with
    | .error e => .error e
    | .ok () => let t := body s (laneAddrs w lw m); .ok (t.finish (t.nextPc i))

/-- TLOOK (R150): it does not mark vd empty. -/
def execTlook (w : LaneW) (s : State) : Host.Outcome State Fault Refusal :=
  issue (.tlook w) s (laneTag (.tlook w) w false (some w.vd.toNat) fun s la =>
    let x := s.w
    s.setW (x.setV w.vd.toNat (x.acts w) (Lanes.of fun l =>
      match la.find? fun y => y.1 == l with | some y => tagLook s.co y.2 | none => 0)))

/-- TINS (R150, R377). -/
def execTins (w : LaneW) (s : State) : Host.Outcome State Fault Refusal :=
  issue (.tins w) s (laneTag (.tins w) w true none fun s la =>
    let v := s.w.v w.vb.toNat
    s.setCo (la.foldl (fun c x => tagInsert c x.2 (bits (v.getD x.1 0).toNat 10 0)) s.co))

/-- TINV (R150). -/
def execTinv (w : LaneW) (s : State) : Host.Outcome State Fault Refusal :=
  issue (.tinv w) s (laneTag (.tinv w) w false none fun s la => s.setCo (la.foldl (fun c x => tagRemove c x.2) s.co))

/-- RCNT (R151): counter address[5:0] of each acting lane goes up by 1. -/
def execRcnt (w : LaneW) (s : State) : Host.Outcome State Fault Refusal :=
  issue (.rcnt w) s (laneQuiet (.rcnt w) w fun s la =>
    s.setCo (la.foldl (fun c x => { c with routes := c.routes.set (x.2 % 64) (AMap.get 0 c.routes (x.2 % 64) + 1) }) s.co))

end Sys2Proof.Machine
end

