-- ==== Sys2Proof/Machine/Retire.lean ====
section
/-! DEFINITION. Lanes and warps that end (R41, R155, R171, R301), the block barrier and the elected warp (R174, R181),
and the LOOP fault of a loop's last instruction (R368). -/
namespace Sys2Proof.Machine

/-- Lanes leave the active mask, the launch mask and every divergence entry's mask (R155, R171). In a child warp each
of them with a join address owes a decrement, in lane order, behind what the warp has issued (R301); it keeps the slot
that the warp has now (R443). -/
def Warp.leave (w : Warp) (lanes : LaneMask) (unif : Bool) (c : Core) (slot : Nat) : Warp :=
  let gone := lanes &&& w.launchMask
  let decs := if w.kind = .child then
      (lanesOf gone).filterMap fun l =>
        let j := AMap.get 0 w.joins l
        if j = 0 then none else some (⟨l, slot, j, w.pc, w.active, unif, w.inflight.length,
          if w.openLeft = 0 then w.newest else w.newest + 1, c.mseq, c.rIssued, false⟩ : ExitDec)
    else []
  { w with active := w.active &&& ~~~gone, launchMask := w.launchMask &&& ~~~gone,
           div := w.div.map (fun e => { e with mask := e.mask &&& ~~~gone }), exitDecs := w.exitDecs ++ decs }

/-- A warp that goes on behind the join it was parked on. -/
def Warp.wake (w : Warp) : Warp := ({ w with park := none } : Warp).complete w.wakePc

/-- Park a warp on a join whose next instruction is at next. -/
def Warp.parkOn (w : Warp) (p : Park) (next : Word) : Warp := { w with park := some p, wakePc := next }

/-- Whether a warp is one of a block's. -/
def Warp.ofBlock (w : Warp) (n : Nat) : Bool := w.kind == .block && w.block == n && w.status != .free

/-- Wake the warps of a block of a core that are parked in BAR. -/
def Core.wakeBar (c : Core) (n : Nat) : Core :=
  { c with warps := c.warps.map fun x => if x.2.ofBlock n && x.2.park == some .bar then (x.1, x.2.wake) else x }

/-- Complete the barrier of a block when each of its warps has arrived or retired, and some warp has arrived (R174). -/
def Core.barrier (c : Core) (n : Nat) : Core :=
  match AMap.find? c.blocks n with
  | none => c
  | some b =>
    if b.arrived.isEmpty || !((List.range b.slots.length).all fun i => b.arrived.contains i || b.retired.contains i) then c
    else ({ c with blocks := c.blocks.set n { b with arrived := [] } } : Core).wakeBar n

/-- The block when its warp of an index retires: the elected index moves to the lowest that has not (R181). -/
def Block.retire (b : Block) (idx : Nat) : Block :=
  let gone := idx :: b.retired
  { b with retired := gone,
           elected := if b.elected = idx then
               ((List.range b.slots.length).find? fun i => !gone.contains i).getD b.elected else b.elected }

/-- The warp in a slot retires (R41, R171): its masks and stacks are empty, and its slot is held until its operations have
completed. -/
def Core.retireWarp (c : Core) (slot : Nat) (w : Warp) : Core :=
  let w' := { w with status := .retired, park := none, rep := none, active := 0, loops := [], div := [], divSpilled := 0 }
  let c := { c with warps := c.warps.set slot w' }
  if w.kind = .block then
    match AMap.find? c.blocks w.block with
    | none => c
    | some b => ({ c with blocks := c.blocks.set w.block (b.retire w.idx) } : Core).barrier w.block
  else c

/-- The issuing warp after lanes of it have left: it retires when none is left in its launch mask, and else goes on. -/
def State.afterLeave (s : State) (w : Warp) (next : Word) : State :=
  if w.launchMask = 0 then s.setCo (s.co.retireWarp s.curSlot w) else s.finishW w next

/-- The LOOP fault (R368): a control transfer or a REP prefix at a loop frame's last address. -/
def loopCheck (i : Instr) (s : State) (reason : Nat) : Except Stop Unit :=
  match s.w.loops.find? fun f => f.last == s.w.pc with
  | some f => .error (.trap (trapOf (isUni i) gLOOP reason (wordsOf i).1 (f.first.toNat % 2 ^ 32)))
  | none => .ok ()

end Sys2Proof.Machine
end

