-- ==== Sys2Proof/Machine/LaneCtl.lean ====
section
/-! DEFINITION. The lane control instructions (R152 to R156): divergence, the end of lanes, and spawning. -/
namespace Sys2Proof.Machine

/-- An instruction's address plus an offset in words (R105, R152). -/
def offsetPc (a : Word) (bits' off : Nat) : Word := a + 4 * signExt bits' off

/-- JOFF of BRD: the 15-bit field [14:0] (R152). -/
def joff (w : LaneW) : Nat := 1024 * w.vd.toNat + 32 * w.va.toNat + w.vb.toNat

/-- BRD (R153): the guard is the branch condition; with no acting lane it meets no LOOP fault (R351). -/
def brd (w : LaneW) (s : State) : Except Stop State :=
  let i : Instr := .brd w
  let x := s.w
  let t := x.acts w
  let f := x.active &&& ~~~t
  match (if t = 0 then .ok () else loopCheck i s 2) with
  | .error e => .error e
  | .ok () =>
  let target := offsetPc x.pc 16 w.imm16
  if f = 0 then .ok (s.finish target)
  else if t = 0 then .ok (s.finish (x.pc + 8))
  else if x.divFloor < x.nextRecord + 16 * (x.div.length + 2 - 16) then .error (.trap (windowTrap i 6 0 x.occupancy))
  else match s.pushDiv s.curCore x i ⟨offsetPc x.pc 15 (joff w), x.active, false⟩ with
  | .error e => .error e
  | .ok (s1, x1) =>
  match s1.pushDiv s1.curCore x1 i ⟨x.pc + 8, f, true⟩ with
  | .error e => .error e
  | .ok (s2, x2) => .ok (s2.finishW { x2 with active := t } target)

/-- BRD (R153). -/
def execBrd (w : LaneW) (s : State) : Host.Outcome State Fault Refusal := issue (.brd w) s (brd w)

/-- EXITL (R155). -/
def execExitl (w : LaneW) (s : State) : Host.Outcome State Fault Refusal :=
  issue (.exitl w) s fun s =>
    if s.w.acts w = 0 then .ok (s.finish (s.nextPc (.exitl w)))
    else match loopCheck (.exitl w) s 2 with
    | .error e => .error e
    | .ok () => .ok (s.afterLeave (s.w.leave (s.w.acts w) false s.co s.curSlot) (s.nextPc (.exitl w)))

/-! ## Spawning -/

/-- The request of a join counter's atomic update: it needs W only, and regions 01 and 10 do not carry it out (R219,
R378). -/
def joinReq (needR : Bool) : Req := ⟨0, 2, needR, true, 8, 3, false, true⟩
/-- The placement check of SPAWNT: whatever R, W and X (R292). -/
def placeReq : Req := ⟨0, 0, false, false, 1, 0, true, false⟩

/-- The payload registers va, va + 1, … (R152). -/
def payRegs (w : LaneW) : List Nat := (List.range (w.vb.toNat % 8)).map fun j => (w.va.toNat + j) % 32

/-- The core of a channel group of a die that holds the fewest Kindling entries, the lowest on a tie (R292); cores
removed from admission take none (R436). A die outside the launch's rectangle is no exception (DESIGN CHOICE, log 133). -/
def State.spawnCore (s : State) (die group : Nat) : Nat :=
  let load := fun c => (s.core c).kindling.length + (s.core c).overflow.length
  let cs := ((List.range 12).map fun j => 192 * die + 12 * group + j).filter fun c => !(s.core c).removed
  cs.foldl (fun b c => if load c < load b then c else b) (cs.headD (192 * die + 12 * group))

/-- A SPAWN trap (R357). -/
def spawnTrap (reason : Nat) (lanes : LaneMask) (j : Nat) : Trap :=
  trapOf false gSPAWN lanes.toNat (j % 2 ^ 32) (bits j 51 32 + 2 ^ 20 * reason)

/-- One child of an acting lane (R156, R291): the counter goes up, then the entry sets out. DESIGN CHOICE (log 132): in a Hearth
context, which belongs to no launch, its launch is that of the packet that MBRECV received last. -/
def State.spawnOne (s : State) (w : LaneW) (entry : Word) (lane : Nat) (joinAt : Option Place) (target : Nat) : State :=
  let x := s.w
  let s := match joinAt with
    | some p => (s.rmwPlace s.curCore p 8 fun old => some ((old + 1) % 2 ^ 64)).2
    | none => s
  let pay := (payRegs w).map fun r => (x.v r).getD lane 0
  let e : Kindle := ⟨x.launch, entry, (x.v w.vd.toNat).getD lane 0, pay ++ List.replicate (4 - pay.length) 0, pay.length,
    x.budget, x.epoch, coreId s.curCore, lane, 0⟩
  { s with travel := s.travel ++ [⟨target, e, s.path (dieOf s.curCore) (dieOf target), s.clock, x.wid⟩] }

/-- Give each acting lane its child, in increasing lane order. -/
def State.spawnLanes (s : State) (w : LaneW) (entry : Word) (joins places : List (Nat × Place)) : List Nat → State
  | [] => s
  | l :: ls =>
    let at' := fun (t : List (Nat × Place)) => (t.find? fun y => y.1 == l).map Prod.snd
    let target := match at' places with
      | some (.mem pa) => s.spawnCore (paDie pa) (paGroup pa)
      | _ => s.curCore
    State.spawnLanes (s.spawnOne w entry l (at' joins) target) w entry joins places ls

/-- SPAWN and SPAWNT (R156, R378): every lane's checks come before the first increment. place: SPAWNT. -/
def spawn (i : Instr) (w : LaneW) (place : Bool) (s : State) : Except Stop State :=
  let x := s.w
  let m := x.acts w
  if m = 0 then .ok (s.finish (s.nextPc i))
  else
    let kE := bits w.fn 5 0
    let srcs := (payRegs w).map (fun r => vSrc r w.ta 0) ++ [vSrc w.vd.toNat false 1] ++
      (if place then [vSrc w.vc w.tc 2, kSrc kE] else [])
    match readyCheck x i srcs none none with
    | .error e => .error e
    | .ok () =>
    match loopCheck i s 2 with
    | .error e => .error e
    | .ok () =>
    let join := fun l => ((x.v w.vd.toNat).getD l 0).toNat
    let jl := (lanesOf m).filter fun l => join l ≠ 0
    let reqs := jl.map (fun l => (l, joinReq false, join l)) ++
      (if place then (lanesOf m).map (fun l => (l, placeReq, ((x.v w.vc).getD l 0).toNat)) else [])
    match s.resolveReqs s.curCore x false reqs with
    | .error e => .error e
    | .ok (ps, t) =>
    let joins := ps.take jl.length
    let places := ps.drop jl.length
    let entry := if place then x.k kE else offsetPc x.pc 16 w.imm16
    let far := maskOf fun l => places.any fun y =>
      y.1 == l && (match y.2 with | .mem pa => regionOf pa != 0 | .spad _ _ => false)
    if place && (entry.toNat % 4 ≠ 0 || 2 ^ 52 ≤ entry.toNat) then
      .error (.trap (spawnTrap 1 m (join ((lanesOf m).headD 0))))
    else if far ≠ 0 then .error (.trap (spawnTrap 2 far (join ((lanesOf far).headD 0))))
    else match poisonCheck x false m srcs with
    | .error e => .error e
    | .ok () =>
      let t := t.spawnLanes w entry joins places (lanesOf m)
      .ok (t.finish (t.nextPc i))

/-- SPAWN (R156). -/
def execSpawn (w : LaneW) (s : State) : Host.Outcome State Fault Refusal := issue (.spawn w) s (spawn (.spawn w) w false)
/-- SPAWNT (R156, R292). -/
def execSpawnt (w : LaneW) (s : State) : Host.Outcome State Fault Refusal := issue (.spawnt w) s (spawn (.spawnt w) w true)

end Sys2Proof.Machine
end

