-- ==== Sys2Proof/Machine/Uniform.lean ====
section
/-! DEFINITION. The uniform integer and memory instructions (R157 to R164). -/
namespace Sys2Proof.Machine

/-- A uniform instruction that writes kd (R157): checks of its k sources and of kd, then the value f gives. rdKd: kd is
a source too. -/
def uniWrite (i : Instr) (u : UniW) (a b rdKd : Bool) (f : Warp → Word) (s : State) : Except Stop State :=
  let w := s.w
  let srcs := uSrcs u a b ++ if rdKd then [u.kd.toNat] else []
  match kCheck w i srcs (some u.kd.toNat) with
  | .error e => .error e
  | .ok () =>
  match kPoisonCheck w srcs with
  | .error e => .error e
  | .ok () => .ok (s.finishW (w.setK u.kd.toNat (f w)) (s.nextPc i))

/-- An instruction of two operands a and b. -/
def uni2 (i : Instr) (u : UniW) (f : Word → Word → Word) (s : State) : Except Stop State :=
  uniWrite i u true true false (fun w => f (w.k u.ka.toNat) (uB w u)) s

/-- A 64-bit value read as signed or unsigned (R159). -/
def sgVal (signed : Bool) (x : Word) : Int := if signed then x.toInt else x.toNat

/-- UADD (R159). -/
def execUadd (u : UniW) (s : State) : Host.Outcome State Fault Refusal := issue (.uadd u) s (uni2 (.uadd u) u (· + ·))
/-- USUB (R159). -/
def execUsub (u : UniW) (s : State) : Host.Outcome State Fault Refusal := issue (.usub u) s (uni2 (.usub u) u (· - ·))
/-- UMUL (R159). -/
def execUmul (u : UniW) (s : State) : Host.Outcome State Fault Refusal := issue (.umul u) s (uni2 (.umul u) u (· * ·))
/-- UMULH (R159): the high half of the exact product. -/
def execUmulh (u : UniW) (s : State) : Host.Outcome State Fault Refusal :=
  let sg := bit u.f5.toNat 0
  issue (.umulh u) s (uni2 (.umulh u) u fun a b => BitVec.ofInt 64 (sgVal sg a * sgVal sg b / (2 : Int) ^ 64))
/-- UMIN (R159). -/
def execUmin (u : UniW) (s : State) : Host.Outcome State Fault Refusal :=
  let sg := bit u.f5.toNat 0
  issue (.umin u) s (uni2 (.umin u) u fun a b => if sgVal sg b < sgVal sg a then b else a)
/-- UMAX (R159). -/
def execUmax (u : UniW) (s : State) : Host.Outcome State Fault Refusal :=
  let sg := bit u.f5.toNat 0
  issue (.umax u) s (uni2 (.umax u) u fun a b => if sgVal sg a < sgVal sg b then b else a)
/-- UAND (R159). -/
def execUand (u : UniW) (s : State) : Host.Outcome State Fault Refusal := issue (.uand u) s (uni2 (.uand u) u (· &&& ·))
/-- UOR (R159). -/
def execUor (u : UniW) (s : State) : Host.Outcome State Fault Refusal := issue (.uor u) s (uni2 (.uor u) u (· ||| ·))
/-- UXOR (R159). -/
def execUxor (u : UniW) (s : State) : Host.Outcome State Fault Refusal := issue (.uxor u) s (uni2 (.uxor u) u (· ^^^ ·))
/-- USHL (R159). -/
def execUshl (u : UniW) (s : State) : Host.Outcome State Fault Refusal :=
  issue (.ushl u) s (uni2 (.ushl u) u fun a b => BitVec.ofNat 64 (shlN 64 a.toNat b.toNat))
/-- USHR (R159). -/
def execUshr (u : UniW) (s : State) : Host.Outcome State Fault Refusal :=
  issue (.ushr u) s (uni2 (.ushr u) u fun a b => BitVec.ofNat 64 (shrN 64 a.toNat b.toNat))
/-- USAR (R159). -/
def execUsar (u : UniW) (s : State) : Host.Outcome State Fault Refusal :=
  issue (.usar u) s (uni2 (.usar u) u fun a b => BitVec.ofNat 64 (sarN 64 a.toNat b.toNat))
/-- UCLZ (R159). -/
def execUclz (u : UniW) (s : State) : Host.Outcome State Fault Refusal :=
  issue (.uclz u) s (uniWrite (.uclz u) u true false false fun w => BitVec.ofNat 64 (clzN 64 (w.k u.ka.toNat).toNat))
/-- UPOPC (R159). -/
def execUpopc (u : UniW) (s : State) : Host.Outcome State Fault Refusal :=
  issue (.upopc u) s (uniWrite (.upopc u) u true false false fun w => BitVec.ofNat 64 (popcN 64 (w.k u.ka.toNat).toNat))
/-- UBFX (R161). -/
def execUbfx (u : UniW) (s : State) : Host.Outcome State Fault Refusal :=
  issue (.ubfx u) s (uni2 (.ubfx u) u fun a b => BitVec.ofNat 64 (bfxN 64 (bit u.f5.toNat 0) a.toNat b.toNat))
/-- UBFI (R161): kd is the base, read before it is written. -/
def execUbfi (u : UniW) (s : State) : Host.Outcome State Fault Refusal :=
  issue (.ubfi u) s (uniWrite (.ubfi u) u true true true fun w =>
    BitVec.ofNat 64 (bfiN 64 (w.k u.kd.toNat).toNat (w.k u.ka.toNat).toNat (uB w u).toNat))
/-- UMOV (R159). -/
def execUmov (u : UniW) (s : State) : Host.Outcome State Fault Refusal :=
  issue (.umov u) s (uniWrite (.umov u) u false true false fun w => uB w u)
/-- UMOVLO (R159). -/
def execUmovlo (u : UniW) (s : State) : Host.Outcome State Fault Refusal :=
  issue (.umovlo u) s (uni2 (.umovlo u) u fun a b => (a &&& 0xFFFFFFFF00000000) ||| (b &&& 0xFFFFFFFF))
/-- UMOVHI (R159). -/
def execUmovhi (u : UniW) (s : State) : Host.Outcome State Fault Refusal :=
  issue (.umovhi u) s (uni2 (.umovhi u) u fun a b => (a &&& 0xFFFFFFFF) ||| (b <<< 32))
/-- UCMP (R158, R159). -/
def execUcmp (u : UniW) (s : State) : Host.Outcome State Fault Refusal :=
  let f := u.f5.toNat
  issue (.ucmp u) s (uni2 (.ucmp u) u fun a b => if cmpI (f % 8) (sgVal (bit f 3) a) (sgVal (bit f 3) b) then 1 else 0)

/-- Quotient and remainder of R160. -/
def divRem (signed : Bool) (a b : Word) : Word × Word :=
  if b = 0 then (0xFFFFFFFFFFFFFFFF, a)
  else
    let q := (sgVal signed a).tdiv (sgVal signed b)
    (BitVec.ofInt 64 q, BitVec.ofInt 64 (sgVal signed a - q * sgVal signed b))

/-- UDIV (R160). -/
def execUdiv (u : UniW) (s : State) : Host.Outcome State Fault Refusal :=
  issue (.udiv u) s (uni2 (.udiv u) u fun a b => (divRem (bit u.f5.toNat 0) a b).1)
/-- UREM (R160). -/
def execUrem (u : UniW) (s : State) : Host.Outcome State Fault Refusal :=
  issue (.urem u) s (uni2 (.urem u) u fun a b => (divRem (bit u.f5.toNat 0) a b).2)

/-- Width of field i of a WIDFMT (R21). -/
def widWidth (fmt i : Nat) : Nat := bits fmt (6 * i + 5) (6 * i)

/-- Field i of a warp's WID under its WIDFMT (R22); 0 at or above the field count, and for every index in a child warp
(R162). -/
def Warp.widField (w : Warp) (i : Nat) : Nat :=
  let fmt := w.widfmt.toNat
  if w.kind = .child || bits fmt 38 36 ≤ i then 0
  else (w.wid.toNat >>> ((List.range i).foldl (fun n j => n + widWidth fmt j) 0)) % 2 ^ widWidth fmt i

/-- WIDF (R162). -/
def execWidf (u : UniW) (s : State) : Host.Outcome State Fault Refusal :=
  issue (.widf u) s (uniWrite (.widf u) u false false false fun w =>
    BitVec.ofNat 64 (w.widField u.f5.toNat))

/-! ## Uniform memory -/

/-- log₂ of the bytes that SZ of the control word names (R163). -/
def cwLog (cw : Nat) : Nat := if bits cw 9 8 = 0 then 3 else bits cw 9 8 - 1
/-- SPACE of the control word (R163). -/
def cwSpace (cw : Nat) : Nat := bits cw 3 2
/-- The address of a uniform memory instruction (R164). -/
def uniAddr (w : Warp) (u : UniW) (index : Bool) : Word :=
  w.k u.ka.toNat + (if index then w.k u.kb.toNat else 0) + signExt 16 (bits u.cw 31 16)

/-- The frame of the uniform memory instructions: the k sources, the access's checks, poison, then the body. -/
def uniMem (i : Instr) (srcs : List Nat) (kd : Option Nat) (q : Req) (a : Warp → Word)
    (body : State → Place → State) (s : State) : Except Stop State :=
  let w := s.w
  match kCheck w i srcs kd with
  | .error e => .error e
  | .ok () =>
  match s.resolveOne q (a w) with
  | .error e => .error e
  | .ok (p, t) =>
  match kPoisonCheck w srcs with
  | .error e => .error e
  | .ok () => let t := body t p; .ok (t.finish (t.nextPc i))

/-- Put a value on its way to a k register, with its poison (R50, R394). DEDUCED (log 137): k0 is not marked empty. -/
def State.launchK (s : State) (kd : Nat) (x : Word) (bad : Bool) (space : Nat) (a : Word) : State :=
  let w := s.w
  let poison : List RegPoison := if bad then
      [⟨kd, 0, if space = 0 then 1 else 3, a, if w.kind = .hearth && space = 0 then 4 else space, 0, 0⟩] else []
  s.setW (w.launchLoad ⟨true, kd, 1, x :: List.replicate 31 0, poison⟩)

/-- ULD (R164). -/
def uld (u : UniW) (s : State) : Except Stop State :=
  let cw := u.cw
  let n := 2 ^ cwLog cw
  uniMem (.uld u) [u.ka.toNat, u.kb.toNat] (some u.kd.toNat) (reqOf (cwSpace cw) 0 (cwLog cw) true) (uniAddr · u true)
    (fun s p =>
      let a := uniAddr s.w u true
      let r := s.readPlace s.curCore p n (bits cw 5 4) (bits cw 15 13 != 0)
      let bad := s.placePoison p n
      let s := r.2.acquireRead (bits cw 15 13) (bits cw 12 10) (bit cw 6)
      let x := leNat r.1
      s.launchK u.kd.toNat (if bit cw 7 then signExt (8 * n) x else zeroExt (8 * n) x) bad (cwSpace cw) a) s

/-- ULD (R164). -/
def execUld (u : UniW) (s : State) : Host.Outcome State Fault Refusal := issue (.uld u) s (uld u)

/-- UST (R164): kd holds the data. -/
def execUst (u : UniW) (s : State) : Host.Outcome State Fault Refusal :=
  let cw := u.cw
  issue (.ust u) s (uniMem (.ust u) [u.ka.toNat, u.kb.toNat, u.kd.toNat] none (reqOf (cwSpace cw) 1 (cwLog cw) true)
    (uniAddr · u true) fun s p =>
      (s.writePlace s.curCore p (leBytes (2 ^ cwLog cw) (s.w.k u.kd.toNat).toNat)).notifyStores (bits cw 15 13 != 0) [(0, p)])

/-- UATOM (R164): one atomic access, with F5[4] the signedness. -/
def uatom (u : UniW) (s : State) : Except Stop State :=
  let cw := u.cw
  let f := u.f5.toNat
  let n := 2 ^ cwLog cw
  let op := f % 8
  -- the type of R146: s32, n32, s64 or n64
  let ty := (if bit f 4 then 0 else 4) + cwLog cw
  uniMem (.uatom u) [u.ka.toNat, u.kb.toNat] (if bit f 3 then none else some u.kd.toNat)
    (reqOf (cwSpace cw) 2 (cwLog cw) (op = 0 || op = 6)) (uniAddr · u false)
    (fun s p =>
      let a := uniAddr s.w u false
      let bad := s.placePoison p n
      let r := s.rmwPlace s.curCore p n fun old => some (atomNew op ty old ((s.w.k u.kb.toNat).toNat % 2 ^ (8 * n)))
      let s := r.2.acquireRead (bits cw 15 13) (bits cw 12 10) (bit cw 6)
      if bit f 3 then s
      else s.launchK u.kd.toNat (if bit f 4 then signExt (8 * n) r.1 else zeroExt (8 * n) r.1) bad (cwSpace cw) a) s

/-- UATOM (R164). -/
def execUatom (u : UniW) (s : State) : Host.Outcome State Fault Refusal := issue (.uatom u) s (uatom u)

end Sys2Proof.Machine
end

