-- ==== Sys2Proof/Machine/Control.lean ====
section
/-! DEFINITION. NOP, ILL and the uniform control instructions (R46, R49, R106, R107, R165 to R172, R360, R380). -/
namespace Sys2Proof.Machine

/-- ILL (R113): the gate raises ILLEGAL, whatever its bits. -/
def execIll (w : LaneW) (s : State) : Host.Outcome State Fault Refusal :=
  issue (.ill w) s fun _ => .error (.trap (illegal (.ill w) 1))

/-- NOP (R112). -/
def execNop (u : UniW) (s : State) : Host.Outcome State Fault Refusal := issue (.nop u) s fun s => .ok (s.finish (s.nextPc (.nop u)))

/-- The frame of a uniform control transfer: its k sources, then the LOOP fault of a loop's last instruction. -/
def control (i : Instr) (ks : List Nat) (body : State → Except Stop State) (s : State) : Except Stop State :=
  match kCheck s.w i ks none with
  | .error e => .error e
  | .ok () =>
  match loopCheck i s 2 with
  | .error e => .error e
  | .ok () => body s

/-- BRA (R166). -/
def execBra (w : BrW) (s : State) : Host.Outcome State Fault Refusal :=
  issue (.bra w) s (control (.bra w) [] fun s => .ok (s.finish (offsetPc s.w.pc 23 w.off.toNat)))

/-- BRZ and BRNZ (R166). -/
def branchOn (i : Instr) (w : BrkW) (zero : Bool) (s : State) : Except Stop State :=
  control i [w.r.toNat] (fun s =>
    match kPoisonCheck s.w [w.r.toNat] with
    | .error e => .error e
    | .ok () =>
      .ok (s.finish (if (s.w.k w.r.toNat == 0) == zero then offsetPc s.w.pc 17 w.off.toNat else s.w.pc + 4))) s

/-- BRZ (R166). -/
def execBrz (w : BrkW) (s : State) : Host.Outcome State Fault Refusal := issue (.brz w) s (branchOn (.brz w) w true)
/-- BRNZ (R166). -/
def execBrnz (w : BrkW) (s : State) : Host.Outcome State Fault Refusal := issue (.brnz w) s (branchOn (.brnz w) w false)

/-- The window and link of a call with overlap n (R46, R167). -/
def Warp.callFrame (w : Warp) (n : Nat) (ret : Word) : Warp :=
  { w with links := ⟨ret, w.m, n, w.entered, false⟩ :: w.links, base := w.base + (w.m - n), m := n, entered := false }

/-- The checks of a register target (R380): ALIGN 2, then PERM 5, access 3. -/
def targetCheck (a : Nat) : Except Stop Unit :=
  if a % 4 ≠ 0 then .error (.trap (memTrap true gALIGN 2 3 0 1 a false))
  else if 2 ^ 52 ≤ a then .error (.trap (memTrap true gPERM 5 3 0 1 a false))
  else .ok ()

/-- CALL (R46, R167). -/
def execCall (w : BrkW) (s : State) : Host.Outcome State Fault Refusal :=
  issue (.call w) s (control (.call w) [] fun s =>
    if s.w.m < w.r.toNat then .error (.trap (windowTrap (.call w) 1 w.r.toNat s.w.occupancy))
    else .ok (s.finishW (s.w.callFrame w.r.toNat (s.w.pc + 4)) (offsetPc s.w.pc 17 w.off.toNat)))

/-- CALLR (R46, R167). -/
def execCallr (u : UniW) (s : State) : Host.Outcome State Fault Refusal :=
  issue (.callr u) s (control (.callr u) [u.ka.toNat] fun s =>
    let t := s.w.k u.ka.toNat
    if s.w.m < u.kd.toNat then .error (.trap (windowTrap (.callr u) 1 u.kd.toNat s.w.occupancy))
    else match targetCheck t.toNat with
    | .error e => .error e
    | .ok () =>
    match kPoisonCheck s.w [u.ka.toNat] with
    | .error e => .error e
    | .ok () => .ok (s.finishW (s.w.callFrame u.kd.toNat (s.w.pc + 4)) t))

/-- RET (R46, R49, R167). -/
def execRet (u : UniW) (s : State) : Host.Outcome State Fault Refusal :=
  issue (.ret u) s (control (.ret u) [] fun s =>
    match s.w.links with
    | [] => .error (.trap (windowTrap (.ret u) 4 0 s.w.occupancy))
    | l :: ls =>
      match s.residentAt s.curCore s.w true 1 with
      | .error e => .error e
      | .ok (t, w) =>
        .ok (t.finishW { w with links := ls, base := callerBase w.base l, m := l.callerM, entered := l.callerEntered } l.ret))

/-- The registers from a stack offset on, n of them, read 0 and are full (R46): a producer still in flight for one of
them writes nothing. -/
def Warp.freshRegs (w : Warp) (off n : Nat) : Warp :=
  let inside := fun r => off ≤ r && r < off + n
  { w with vregs := w.vregs.filter (fun e => !inside e.1),
           vEmpty := w.vEmpty.filter (fun r => !inside r),
           vPoison := w.vPoison.filter (fun p => !inside p.reg),
           inflight := w.inflight.map fun f => if !f.toK && inside f.reg then { f with toK := true, reg := 0, poison := [] } else f }

/-- ENTER (R46, R47, R367). -/
def enter (u : UniW) (s : State) : Except Stop State :=
  let i : Instr := .enter u
  let w := s.w
  let m := u.kd.toNat
  let n := match w.links with | l :: _ => l.n | [] => 0
  let rs := framesToSpill w.budget (w.base + m) w.below
  if m < n then .error (.trap (windowTrap i 2 m w.occupancy))
  else if w.entered then .error (.trap (windowTrap i 3 m w.occupancy))
  else if w.divFloor < w.nextRecord + spillBytes rs && !rs.isEmpty then .error (.trap (windowTrap i 5 m w.occupancy))
  else match s.spillFrames s.curCore w true rs with
  | .error e => .error e
  | .ok (t, w) =>
    .ok (t.finishW { w.freshRegs (w.base + w.m) (m - w.m) with m := m, entered := true } (t.nextPc i))

/-- ENTER (R46, R47). -/
def execEnter (u : UniW) (s : State) : Host.Outcome State Fault Refusal := issue (.enter u) s (control (.enter u) [] (enter u))

/-- LOOP (R168, R368, R380). -/
def loop (w : BrkW) (s : State) : Except Stop State :=
  let i : Instr := .loop w
  let x := s.w
  let src := if w.lit.isSome then [] else [w.r.toNat]
  let c : BitVec 32 := match w.lit with | some t => t | none => BitVec.setWidth 32 (x.k w.r.toNat)
  let last := offsetPc x.pc 17 w.off.toNat
  let first := s.nextPc i
  if c = 0 then
    match s.fetchWord x last.toNat with
    | .error t => .error (.trap { t with unif := true })
    | .ok b =>
    match kPoisonCheck x src with
    | .error e => .error e
    | .ok () => .ok (s.finish (last + if bit (leNat b) 30 then 8 else 4))
  else if 4 ≤ x.loops.length then
    .error (.trap (trapOf true gLOOP 1 (wordsOf i).1 (first.toNat % 2 ^ 32)))
  else match kPoisonCheck x src with
  | .error e => .error e
  | .ok () => .ok (s.setW { x with loops := ⟨first, last, c⟩ :: x.loops, pc := first, repFrom := 0, replay := none, suppress := false })

/-- LOOP (R168). -/
def execLoop (w : BrkW) (s : State) : Host.Outcome State Fault Refusal :=
  issue (.loop w) s (control (.loop w) (if w.lit.isSome then [] else [w.r.toNat]) (loop w))

/-! ## REP -/

/-- Which of the fields d, a, b, c an instruction uses as register numbers, or none for one that REP may not repeat
(R107). DEDUCED (log 145): ATOM's vc, which holds SP, NR and op, is no field that a step applies to. -/
def repFields : Form → Option (Bool × Bool × Bool × Bool)
  | .lane opc w =>
    match AMap.find? arithForms opc with
    | some f => some (true, f.a, f.b && w.tk, f.c)
    | none =>
    match AMap.find? xForms opc with
    | some f => some (true, f.a || opc == 0x42, f.b || (opc == 0x45 && w.xf % 4 == 0), false)
    | none =>
    match AMap.find? memForms opc with
    | some f => some (f.d && !(opc == 0x56 && w.atomNr), true, f.b, opc == 0x57)
    | none => none
  | .uni opc w =>
    if 0x01 ≤ opc && opc ≤ 0x1A then
      (AMap.find? uForms opc).map fun f =>
        (f.d && !(opc == 0x1A && bit w.f5.toNat 3), f.a, f.b && !(f.lit == 1 && w.lit.isSome), false)
    else none
  | _ => none

/-- Whether a REP prefix may stand before an instruction (R107, R113). -/
def repAllows (r : RepW) (i : Instr) : Bool :=
  match repFields i.form with
  | none => false
  | some (d, a, b, c) => (d || r.sd == 0) && (a || r.sa == 0) && (b || r.sb == 0) && (c || r.sc == 0)

/-- The instruction at an address, as the warp's fetch finds it: its words' bytes, or the trap of the fetch (R87). DESIGN
CHOICE (log 118): R351 does not rank FETCH; a word whose second word cannot be fetched raises FETCH, also when its first
word alone is ILLEGAL. -/
def State.fetchInstr (s : State) (w : Warp) (a : Word) : Except Trap (Except DecodeError Instr × List Byte) :=
  match s.fetchWord w a.toNat with
  | .error t => .error t
  | .ok b =>
    if bit (leNat b) 30 then
      match s.fetchWord w (a + 4).toNat with
      | .error t => .error { t with unif := bit (leNat b) 31 }
      | .ok b' => .ok ((decode (b ++ b')).map Prod.fst, b ++ b')
    else .ok ((decode b).map Prod.fst, b)

/-- ILLEGAL 9 of a prefix whose next word is no instruction, or one that the prefix may not repeat (R107, R113). -/
def repReasons (r : RepW) (s : State) : List Nat :=
  why 9 (match s.fetchInstr s.w (s.w.pc + 4) with
    | .error _ => false
    | .ok (.error _, _) => true
    | .ok (.ok i, _) => !repAllows r i)

/-- REP (R106, R107, R380): the next word's legality and fetch are checked at the prefix; then its iterations follow,
from the one that a TRET named (R360). A TRET that names an iteration beyond the count leaves none to do (log 23). DESIGN CHOICE
(log 118): a FETCH of the next word comes after BREAK and LOOP 3. -/
def rep (r : RepW) (s : State) : Except Stop State :=
  let w := s.w
  match loopCheck (.rep r) s 3 with
  | .error e => .error e
  | .ok () =>
  match s.fetchInstr w (w.pc + 4) with
  | .error t => .error (.trap { t with unif := true })
  | .ok (.error _, _) => .error (.trap (illegal (.rep r) 9))
  | .ok (.ok i, b) =>
    if !repAllows r i then .error (.trap (illegal (.rep r) 9))
    else if r.cnt.toNat < w.repFrom then .ok (s.finish (w.pc + 4 + BitVec.ofNat 64 b.length))
    else .ok (s.setW { w with rep := some ⟨w.pc, r.cnt.toNat + 1, r.sd, r.sa, r.sb, r.sc, w.repFrom,
                                BitVec.ofNat 32 (leNat b), BitVec.ofNat 32 (leNat (b.drop 4)),
                                w.pc + 4 + BitVec.ofNat 64 b.length⟩,
                              repFrom := 0, pc := w.pc + 4 })

/-- REP (R106, R107): ILLEGAL, also that of the next word, comes before a breakpoint and LOOP 3 (R351). -/
def execRep (r : RepW) (s : State) : Host.Outcome State Fault Refusal :=
  match s.w.status, lowest (formReasons (Instr.rep r).form ++ stateReasons (.rep r) s ++ repReasons r s) with
  | .live, some n => .next (s.settle (.error (.trap (illegal (.rep r) n))))
  | _, _ => issue (.rep r) s (rep r)

/-- The step that a REP step code stands for (R106). -/
def repStep (c : BitVec 2) : Nat := if c = 3 then 4 else c.toNat

/-- A field of iteration j (R107). -/
def advanceField {n : Nat} (x : BitVec n) (j : Nat) (c : BitVec 2) : BitVec n := x + BitVec.ofNat n (j * repStep c)

/-- A lane word with the fields of iteration j; a step of vc makes the implicit tail explicit (R92). -/
def RepState.lane (r : RepState) (w : LaneW) : LaneW :=
  let t : IWord := BitVec.ofNat 32 w.tl
  { w with vd := advanceField w.vd r.next r.sd, va := advanceField w.va r.next r.sa, vb := advanceField w.vb r.next r.sb,
           tail := if r.sc = 0 then w.tail else some (advanceField (t.extractLsb' 27 5) r.next r.sc ++ t.extractLsb' 0 27) }

/-- A uniform word with the fields of iteration j. -/
def RepState.uni (r : RepState) (u : UniW) : UniW :=
  { u with kd := advanceField u.kd r.next r.sd, ka := advanceField u.ka r.next r.sa, kb := advanceField u.kb r.next r.sb }

/-- EXIT (R171). -/
def execExit (u : UniW) (s : State) : Host.Outcome State Fault Refusal :=
  issue (.exit u) s (control (.exit u) [] fun s => .ok (s.afterLeave (s.w.leave 0xFFFFFFFF true s.co s.curSlot) s.w.pc))

/-- BRK (R172, R350, R357): resumes at the following instruction. -/
def execBrk (u : UniW) (s : State) : Host.Outcome State Fault Refusal :=
  issue (.brk u) s (control (.brk u) [] fun s =>
    .error (.trap { trapOf true gBREAK u.f5.toNat (s.w.pc.toNat % 2 ^ 32) 0 with next := some (s.w.pc + 4) }))

/-- TRAP (R172, R350, R357). -/
def execTrap (u : UniW) (s : State) : Host.Outcome State Fault Refusal :=
  issue (.trap u) s (control (.trap u) [] fun s =>
    .error (.trap { trapOf true gSWTRAP u.f5.toNat (s.w.pc.toNat % 2 ^ 32) 0 with next := some (s.w.pc + 4) }))

/-- The number of frames above the newest trap frame's caller: links up to and with the trap link (R360). -/
def trapDepth : List Link → Nat
  | [] => 0
  | l :: ls => if l.trap then 1 else trapDepth ls + 1

/-- TRET (R360): the caller's frame is filled first if it was spilled. -/
def execTret (u : UniW) (s : State) : Host.Outcome State Fault Refusal :=
  issue (.tret u) s (control (.tret u) [] fun s =>
    match s.residentAt s.curCore s.w true (trapDepth s.w.links) with
    | .error e => .error e
    | .ok (t, w) => .ok (t.setW w.trapReturn))

/-- JMPR (R166, R380). -/
def execJmpr (u : UniW) (s : State) : Host.Outcome State Fault Refusal :=
  issue (.jmpr u) s (control (.jmpr u) [u.ka.toNat] fun s =>
    let t := s.w.k u.ka.toNat
    match targetCheck t.toNat with
    | .error e => .error e
    | .ok () =>
    match kPoisonCheck s.w [u.ka.toNat] with
    | .error e => .error e
    | .ok () => .ok (s.finish t))

end Sys2Proof.Machine
end

