-- ==== Sys2Proof/Machine/Sync.lean ====
section
/-! DEFINITION. The synchronisation instructions (R173 to R184), and what the completion of a batch, of a Chimney phase
or of an ordered-add epoch does to the warps parked on it. -/
namespace Sys2Proof.Machine

/-- A uniform instruction that writes no register: its k sources are checked for emptiness and poison, then it acts. -/
def uniDo (i : Instr) (ks : List Nat) (body : State → Except Stop State) (s : State) : Except Stop State :=
  match kCheck s.w i ks none with
  | .error e => .error e
  | .ok () =>
  match kPoisonCheck s.w ks with
  | .error e => .error e
  | .ok () => body s

/-- The same for an instruction with a trap of its own, which comes before HWERR (R351). -/
def uniOwn (i : Instr) (ks : List Nat) (own : State → Option Trap) (body : State → State) (s : State) : Except Stop State :=
  match kCheck s.w i ks none with
  | .error e => .error e
  | .ok () =>
  match own s with
  | some t => .error (.trap t)
  | none =>
  match kPoisonCheck s.w ks with
  | .error e => .error e
  | .ok () => .ok (body s)

/-! ## Acting on a warp that is not the issuing one -/

/-- Do something with the warp in a slot as the issuing warp. -/
def State.asWarp (s : State) (core slot : Nat) (f : State → State) : State :=
  { f { s with curCore := core, curSlot := slot } with curCore := s.curCore, curSlot := s.curSlot }

/-- Wake the warp in a slot from the join it is parked on. -/
def State.wakeAt (s : State) (core slot : Nat) : State := s.setWarpAt core slot (s.warpAt core slot).wake

/-- A join reports a failed operation (R358, R446): ASYNC = 1, at the join's address. -/
def State.reportAt (s : State) (core slot : Nat) (f : FailedOp) : State :=
  let s := s.setWarpAt core slot { s.warpAt core slot with park := none }
  s.asWarp core slot fun s => s.takeTrap ⟨f.group, f.d0, f.d1, f.d2, true, true, none, false⟩

/-! ## Barriers and fences -/

/-- BAR (R174): the release and the acquire at .b discard nothing. A child's BAR, and one outside a block, completes
without parking. -/
def bar (u : UniW) (s : State) : Except Stop State :=
  let w := s.w
  match w.kind, AMap.find? s.co.blocks w.block with
  | .block, some b =>
    let s := s.setW (w.parkOn .bar (s.nextPc (.bar u)))
    let c := { s.co with blocks := s.co.blocks.set w.block { b with arrived := w.idx :: b.arrived } }
    .ok (s.setCo (c.barrier w.block))
  | _, _ => .ok (s.finish (s.nextPc (.bar u)))

/-- BAR (R174). -/
def execBar (u : UniW) (s : State) : Host.Outcome State Fault Refusal := issue (.bar u) s (bar u)

/-- Whether a parked warp waits for a phase of a channel that has completed. -/
def chimDone (w : Warp) (module : Bool) (phaseOf : Nat → Nat) : Bool :=
  match w.park with
  | some (.chim ch lv ph) => lv == module && ph < phaseOf ch
  | _ => false

/-- Wake every warp of a die whose channel phase has completed, at one level, with its acquire (R175, R323). -/
def State.wakeChim (s : State) (die : Nat) (module : Bool) : State :=
  let phaseOf := fun ch => match AMap.find? (s.die die).chimney ch with | some c => c.phase | none => 0
  { s with cores := s.cores.map fun x =>
      if dieOf x.1 = die && x.2.warps.any (fun y => chimDone y.2 module phaseOf) then
        (x.1, { x.2 with l1 := [], warps := x.2.warps.map fun y =>
                  if chimDone y.2 module phaseOf then (y.1, y.2.wake) else y })
      else x }

/-- The dies whose copies of a channel form one channel: the rectangle's at module level (R322). -/
def State.chimDies (s : State) (die : Nat) (module : Bool) : List Nat :=
  if module then match s.curLaunch? with | some l => l.dies | none => [die] else [die]

/-- One arrival at a channel (R323): when the phase's count reaches the participant count, every copy goes on to the
next phase. -/
def State.chimArrive (s : State) (die ch : Nat) (c : Channel) : State :=
  let ds := s.chimDies die c.module
  let s := s.setDie die { s.die die with chimney := (s.die die).chimney.set ch { c with count := c.count + 1 } }
  let total := ds.foldl (fun n d => n + match AMap.find? (s.die d).chimney ch with | some x => x.count | none => 0) 0
  if total < c.need then s
  else ds.foldl (fun s d =>
    match AMap.find? (s.die d).chimney ch with
    | some x => s.setDie d { s.die d with chimney := (s.die d).chimney.set ch { x with count := 0, phase := c.phase + 1 } }
    | none => s) s

/-- CHIM (R175, R323): a die-level phase wakes its warps when it completes, a module-level one at the next Chimney
tick, on every die at once. The gate has raised ILLEGAL 12 for a channel that is not armed at the level. -/
def chim (u : UniW) (s : State) : Except Stop State :=
  let die := dieOf s.curCore
  let ch := u.f5.toNat % 16
  match AMap.find? (s.die die).chimney ch with
  | none => .error .stall
  | some c =>
    let s := s.setW (s.w.parkOn (.chim ch c.module c.phase) (s.nextPc (.chim u)))
    let s := s.chimArrive die ch c
    .ok (if c.module then s else s.wakeChim die false)

/-- CHIM (R175). -/
def execChim (u : UniW) (s : State) : Host.Outcome State Fault Refusal := issue (.chim u) s (chim u)

/-- FENCE (R176): kinds .ar and .acq acquire at the scope. -/
def execFence (u : UniW) (s : State) : Host.Outcome State Fault Refusal :=
  issue (.fence u) s fun s =>
    let f := u.f5.toNat
    let t := if f / 8 = 2 then s else s.acquireAt s.curCore (f % 8)
    .ok (t.finish (t.nextPc (.fence u)))

/-! ## Batches -/

/-- BATCHSEQ.OLDEST (R59, R177). -/
def Warp.oldest (w : Warp) : BitVec 16 := match w.batches with | b :: _ => b.num | [] => w.newest + 1

/-- BATCHSEQ: OLDEST and NEWEST (R59). -/
def Warp.batchSeq (w : Warp) : Word := BitVec.setWidth 64 (w.oldest ++ w.newest)

/-- Whether a sequence number lies among the 2¹⁵ up to and with n (R446). -/
def upTo (n x : BitVec 16) : Bool := (n - x).toNat < 2 ^ 15

/-- CLOSEB (R177): stalls while 32 batches are outstanding; an empty batch is complete when it closes. -/
def closeb (u : UniW) (s : State) : Except Stop State :=
  let w := s.w
  match kCheck w (.closeb u) [] (some u.kd.toNat) with
  | .error e => .error e
  | .ok () =>
    if (w.newest - w.oldest + 1).toNat = 32 then .error .stall
    else
      let seq := w.newest + 1
      let w := { w with newest := seq, openLeft := 0,
                        batches := if w.openLeft = 0 then w.batches else w.batches ++ [(⟨seq, w.openLeft⟩ : Batch)] }
      .ok (s.finishW (w.setK u.kd.toNat (BitVec.setWidth 64 seq)) (s.nextPc (.closeb u)))

/-- CLOSEB (R177). -/
def execCloseb (u : UniW) (s : State) : Host.Outcome State Fault Refusal := issue (.closeb u) s (closeb u)

/-- A command of a batch has completed: a closed batch without running commands is complete (R177). -/
def Warp.batchDone (w : Warp) (n : BitVec 16) : Warp :=
  if n = w.newest + 1 && !(w.batches.any fun b => b.num = n) then { w with openLeft := w.openLeft - 1 }
  else { w with batches := (w.batches.map fun b => if b.num = n then { b with left := b.left - 1 } else b).filter
                  fun b => b.left ≠ 0 }

/-- What a WAITB that the warp in a slot is parked on comes to (R178, R358, R400, R446): it stays parked until every
closed batch up to its number has completed; then it reports a failed command that it covers, or it completes with its
Join, which discards the L1 when a joined command wrote device memory (R218). -/
def State.settleBatch (s : State) (core slot : Nat) : State :=
  let w := s.warpAt core slot
  match w.park with
  | some (.batch n) =>
    if w.batches.any fun b => upTo n b.num then s
    else match w.failed.find? fun f => upTo n f.num with
    | some f => (s.setWarpAt core slot { w with failed := w.failed.erase f }).reportAt core slot f
    | none =>
      let s := if w.wrote.any (upTo n ·) then s.dropL1 core fun _ => true else s
      s.setWarpAt core slot ({ w with wrote := w.wrote.filter fun b => !upTo n b } : Warp).wake
  | _ => s

/-- The BATCH trap of a WAITB beyond the newest batch (R178, R382). -/
def waitbOwn (u : UniW) (s : State) : Option Trap :=
  let n := BitVec.setWidth 16 (uB s.w u)
  if 2 ^ 15 ≤ (s.w.newest - n).toNat then
    some (trapOf true gBATCH (n.toNat + 2 ^ 16 * s.w.newest.toNat) (wordsOf (.waitb u)).1 0)
  else none

/-- WAITB (R178, R382). -/
def waitb (u : UniW) (s : State) : Except Stop State :=
  uniOwn (.waitb u) (uSrcs u false true) (waitbOwn u) (fun s =>
    (s.setW (s.w.parkOn (.batch (BitVec.setWidth 16 (uB s.w u))) (s.nextPc (.waitb u)))).settleBatch s.curCore s.curSlot) s

/-- WAITB (R178). -/
def execWaitb (u : UniW) (s : State) : Host.Outcome State Fault Refusal := issue (.waitb u) s (waitb u)

/-! ## Join counters and election -/

/-- The read of JOINW: at the memory side, and not in regions 01 and 10 (R179, R219, R382). -/
def joinRead : Req := ⟨0, 0, true, false, 8, 3, false, true⟩

/-- Park a warp on a join counter: it registers with the die that owns the counter, or polls when that die has
4,096 registrations (R302, R405). -/
def State.parkJoin (s : State) (va : Word) (pa : Nat) (next : Word) : State :=
  let d := s.die (paDie pa)
  let reg := decide (d.waiters < 4096)
  let s := s.setW { s.w.parkOn (.join va pa reg false) next with parkedAt := s.clock }
  if reg then s.setDie (paDie pa) { d with waiters := d.waiters + 1 } else s

/-- JOINW (R179): continues on a read of 0, with AcquireAt(.m); else parks. -/
def joinw (u : UniW) (s : State) : Except Stop State :=
  let i : Instr := .joinw u
  match kCheck s.w i [u.ka.toNat] none with
  | .error e => .error e
  | .ok () =>
  let a := s.w.k u.ka.toNat
  match s.resolveOne joinRead a with
  | .error e => .error e
  | .ok (p, t) =>
  match kPoisonCheck s.w [u.ka.toNat] with
  | .error e => .error e
  | .ok () =>
    match p with
    | .spad _ _ => .error .stall
    | .mem pa =>
      if t.mem.readN pa 8 = 0 then
        let t := t.acquireAt t.curCore 3
        .ok (t.finish (t.nextPc i))
      else .ok (t.parkJoin a pa (t.nextPc i))

/-- JOINW (R179). -/
def execJoinw (u : UniW) (s : State) : Host.Outcome State Fault Refusal := issue (.joinw u) s (joinw u)

/-- The record of a JOIN fault (R405, R443). -/
def joinRec (c k : Nat) (w : Warp) (pc : Word) (mask : LaneMask) (unif : Bool) (reason : Nat) (va : Word) : TrapRec where
  addr := pc
  coreid := coreId c
  d0 := BitVec.ofNat 32 reason
  d1 := BitVec.setWidth 32 va
  d2 := BitVec.ofNat 32 (bits va.toNat 51 32)
  mask := mask
  cause := BitVec.ofNat 7 (gJOIN + 32 + if unif then 64 else 0)
  slot := k
  idx := w.idx
  flags := BitVec.ofNat 8 ((if w.inTrap then 1 else 0) + if w.kind = .hearth then 2 else 0)

/-- JOINA (R180): the atomic update, or JOIN 1 when a negative addend would take the counter below 0 (R405). -/
def joina (u : UniW) (s : State) : Except Stop State :=
  let i : Instr := .joina u
  let ks := uSrcs u true true
  match kCheck s.w i ks none with
  | .error e => .error e
  | .ok () =>
  let a := s.w.k u.ka.toNat
  let b := uB s.w u
  match s.resolveOne (joinReq true) a with
  | .error e => .error e
  | .ok (p, t) =>
  match kPoisonCheck s.w ks with
  | .error e => .error e
  | .ok () =>
    let below := fun (old : Nat) => b.toInt < 0 && (old : Int) + b.toInt < 0
    let r := t.rmwPlace t.curCore p 8 fun old => if below old then none else some ((old + b.toNat) % 2 ^ 64)
    let t := if below r.1 then
        r.2.recordTrap t.w.launch (joinRec t.curCore t.curSlot t.w t.w.pc t.w.active true 1 a)
      else r.2
    .ok (t.finish (t.nextPc i))

/-- JOINA (R180). -/
def execJoina (u : UniW) (s : State) : Host.Outcome State Fault Refusal := issue (.joina u) s (joina u)

/-- The result of WELECT (R181): a warp outside a block receives 1. -/
def electedBit (c : Core) (w : Warp) : Word :=
  match w.kind, AMap.find? c.blocks w.block with
  | .block, some b => if w.idx = b.elected then 1 else 0
  | _, _ => 1

/-- WELECT (R181). -/
def execWelect (u : UniW) (s : State) : Host.Outcome State Fault Refusal :=
  issue (.welect u) s fun s => uniWrite (.welect u) u false false false (electedBit s.co) s

/-! ## Ordered-add epochs -/

/-- Whether every contribution of an epoch of the issuing warp's launch has been applied (R183). A Hearth context has
no launch. -/
def State.epochApplied (s : State) (e : Nat) : Bool :=
  match s.curLaunch? with | some l => e < l.epochsDone | none => true

/-- OFLUSH (R182, R183): the warp goes on to the next epoch; .wait parks it until this one is applied. -/
def execOflush (u : UniW) (s : State) : Host.Outcome State Fault Refusal :=
  issue (.oflush u) s fun s =>
    let w := { s.w with epoch := s.w.epoch + 1 }
    let next := s.nextPc (.oflush u)
    if !bit u.f5.toNat 0 then .ok (s.finishW w next)
    else if s.epochApplied s.w.epoch then .ok ((s.acquireAt s.curCore 3).finishW w next)
    else .ok (s.setW (w.parkOn (.oflush s.w.epoch) next))

/-! ## Token channels -/

/-- PTOK (R184): stalls while the channel holds 8 tokens. -/
def execPtok (u : UniW) (s : State) : Host.Outcome State Fault Refusal :=
  issue (.ptok u) s (uniDo (.ptok u) [u.ka.toNat] fun s =>
    let ch := u.f5.toNat % 16
    let q := AMap.get [] s.co.tokens ch
    if 8 ≤ q.length then .error .stall
    else
      let s := s.setCo { s.co with tokens := s.co.tokens.set ch (q ++ [s.w.k u.ka.toNat]) }
      .ok (s.finish (s.nextPc (.ptok u))))

/-- VTOK (R184): kd is empty until the token arrives. -/
def execVtok (u : UniW) (s : State) : Host.Outcome State Fault Refusal :=
  issue (.vtok u) s fun s =>
    match kCheck s.w (.vtok u) [] (some u.kd.toNat) with
    | .error e => .error e
    | .ok () =>
      let ch := u.f5.toNat % 16
      let s := s.setCo { s.co with vtoks := s.co.vtoks.set ch (AMap.get [] s.co.vtoks ch ++ [(s.curSlot, u.kd.toNat)]) }
      let w := s.w
      .ok (s.finishW { w with vtokWaits := w.vtokWaits + 1,
                              kEmpty := if u.kd = 0 then w.kEmpty else u.kd.toNat :: w.kEmpty } (s.nextPc (.vtok u)))

/-- VTOK_TOKEN_ARRIVAL (R184): the oldest token of a channel goes to its oldest waiting VTOK; the acquire at .b
discards nothing. -/
def execVtokTokenArrival (core channel : Nat) (s : State) : Host.Outcome State Fault Refusal :=
  let c := s.core core
  match AMap.get [] c.tokens channel, AMap.get [] c.vtoks channel with
  | t :: ts, (slot, kd) :: vs =>
    let w := AMap.get Warp.free c.warps slot
    let w := { w.setK kd t with vtokWaits := w.vtokWaits - 1, kEmpty := w.kEmpty.erase kd }
    .next (s.setCore core { c with tokens := c.tokens.set channel ts, vtoks := c.vtoks.set channel vs,
                                   warps := c.warps.set slot w })
  | _, _ => .next s

/-! ## Completion of a producer -/

/-- LOAD_COMPLETE (R50): the oldest producer in flight of a warp writes its lanes with their poison, and its
destination is full. DESIGN CHOICE (log 113): no rule orders the completions of a warp's producers; the model completes
the oldest first. -/
def Warp.complete1 (w : Warp) : Warp :=
  match w.inflight with
  | [] => w
  | f :: fs =>
    let w := { w with inflight := fs, exitDecs := w.exitDecs.map fun (d : ExitDec) => ({ d with loads := d.loads - 1 } : ExitDec) }
    if f.toK then
      let w := w.setK f.reg (f.vals.headD 0)
      { w with kEmpty := w.kEmpty.erase f.reg, kPoison := w.kPoison ++ f.poison }
    else
      let w := w.setOff f.reg f.mask f.vals
      { w with vEmpty := w.vEmpty.erase f.reg, vPoison := w.vPoison ++ f.poison }

/-- LOAD_COMPLETE (R50). -/
def execLoadComplete (core slot : Nat) (s : State) : Host.Outcome State Fault Refusal :=
  .next (s.setWarpAt core slot (s.warpAt core slot).complete1)

end Sys2Proof.Machine
end

