-- ==== Sys2Proof/Machine/Csr.lean ====
section
/-! DEFINITION. The control and status registers (R58 to R60, R185, R273, R354, R355) and XLINV (R186). -/
namespace Sys2Proof.Machine

/-- SORTPROG (R59, R283). -/
def Riddle.prog (r : Riddle) : Nat := 4096 * r.state + 16 * r.step + r.phase

/-- The value a CSR reads (R58, R59, R354, R355); bits that no field names read 0. DESIGN CHOICE (log 126): LAUNCHTAG reads 0 in a
Hearth context, which belongs to no launch. -/
def csrRead (s : State) (n : Nat) : Word :=
  let w := s.w
  if n = 0x000 then w.wid
  else if n = 0x001 then w.widfmt
  else if n = 0x002 then BitVec.ofNat 64 (coreId s.curCore)
  else if n = 0x003 then BitVec.ofNat 64 (2 ^ 8 * w.idx + s.curSlot)
  else if n = 0x004 then BitVec.ofNat 64 w.blockWarps
  else if n = 0x005 then BitVec.setWidth 64 (w.launchMask ++ w.active)
  else if n = 0x006 then (match s.curLaunch? with | some l => BitVec.setWidth 64 l.hdr.tag | none => 0)
  else if n = 0x007 then BitVec.ofNat 64 s.clock
  else if n = 0x008 then BitVec.ofNat 64 s.time
  else if n = 0x010 then BitVec.setWidth 64 w.fpsr
  else if n = 0x020 then BitVec.setWidth 64 w.lpcfg0
  else if n = 0x021 then BitVec.setWidth 64 w.lpcfg1
  else if n = 0x030 then BitVec.ofNat 64 w.budget
  else if n = 0x031 then BitVec.ofNat 64 w.spillBase
  else if n = 0x032 then BitVec.ofNat 64 w.spillSize
  else if n = 0x040 then w.batchSeq
  else if n = 0x050 then BitVec.ofNat 64 s.co.riddle.prog
  else if n = 0x060 then (if s.co.tabBank then 1 else 0)
  else if n = 0x100 then w.tvec
  else if n = 0x101 then BitVec.setWidth 64 w.tcause
  else if n = 0x102 then BitVec.setWidth 64 w.tepc
  else if n = 0x103 then BitVec.setWidth 64 w.tstat
  else if n = 0x104 then BitVec.setWidth 64 w.tmask
  else if n = 0x105 then BitVec.setWidth 64 w.detail0
  else if n = 0x106 then BitVec.setWidth 64 w.detail1
  else if n = 0x107 then BitVec.setWidth 64 w.detail2
  else if 0x108 ≤ n ∧ n ≤ 0x10B then AMap.get 0 w.tscr (n - 0x108)
  else if 0x110 ≤ n ∧ n ≤ 0x113 then AMap.get 0 w.bpaddr (n - 0x110)
  else if n = 0x118 ∨ n = 0x119 then AMap.get 0 w.wpaddr (n - 0x118)
  else if n = 0x11A ∨ n = 0x11B then AMap.get 0 w.wpctl (n - 0x11A)
  else if n = 0x1F0 then BitVec.setWidth 64 s.co.mxflags
  else 0

/-- Bits [51:2] and [0], those of TVEC and BPADDR (R355). -/
def vecBits : Word := 0x000FFFFFFFFFFFFD

/-- Write a CSR that software may write: bits that no field names, and INTRAP, keep what they hold (R59, R354, R355). -/
def csrWrite (s : State) (n : Nat) (x : Word) : State :=
  let w := s.w
  if n = 0x010 then s.setW { w with fpsr := BitVec.setWidth 5 x }
  else if n = 0x020 then s.setW { w with lpcfg0 := BitVec.setWidth 13 x }
  else if n = 0x021 then s.setW { w with lpcfg1 := BitVec.setWidth 24 x }
  else if n = 0x100 then s.setW { w with tvec := x &&& vecBits }
  else if n = 0x102 then s.setW { w with tepc := BitVec.setWidth 52 x }
  else if n = 0x103 then s.setW { w with tstat := (BitVec.setWidth 9 x &&& 0x1FE) ||| (w.tstat &&& 1) }
  else if 0x108 ≤ n ∧ n ≤ 0x10B then s.setW { w with tscr := w.tscr.set (n - 0x108) x }
  else if 0x110 ≤ n ∧ n ≤ 0x113 then s.setW { w with bpaddr := w.bpaddr.set (n - 0x110) (x &&& vecBits) }
  else if n = 0x118 ∨ n = 0x119 then s.setW { w with wpaddr := w.wpaddr.set (n - 0x118) (x &&& 0x000FFFFFFFFFFFFF) }
  else if n = 0x11A ∨ n = 0x11B then s.setW { w with wpctl := w.wpctl.set (n - 0x11A) (x &&& 0xFF) }
  else if n = 0x1F0 then s.setCo { s.co with mxflags := BitVec.setWidth 40 x }
  else s

/-- CSRR (R185). -/
def execCsrr (w : CsrW) (s : State) : Host.Outcome State Fault Refusal :=
  issue (.csrr w) s fun s =>
    match kCheck s.w (.csrr w) [] (some w.r.toNat) with
    | .error e => .error e
    | .ok () => .ok (s.finishW (s.w.setK w.r.toNat (csrRead s w.csr.toNat)) (s.nextPc (.csrr w)))

/-- A CSR instruction that writes f of the old value and the source: the register, or the zero-extended literal
(R104, R185). -/
def csrDo (i : Instr) (w : CsrW) (f : Word → Word → Word) (s : State) : Except Stop State :=
  uniDo i (if w.lit.isSome then [] else [w.r.toNat]) (fun s =>
    let src := match w.lit with | some t => BitVec.setWidth 64 t | none => s.w.k w.r.toNat
    let s := csrWrite s w.csr.toNat (f (csrRead s w.csr.toNat) src)
    .ok (s.finish (s.nextPc i))) s

/-- CSRW (R185). -/
def execCsrw (w : CsrW) (s : State) : Host.Outcome State Fault Refusal := issue (.csrw w) s (csrDo (.csrw w) w fun _ x => x)
/-- CSRS (R185). -/
def execCsrs (w : CsrW) (s : State) : Host.Outcome State Fault Refusal := issue (.csrs w) s (csrDo (.csrs w) w (· ||| ·))
/-- CSRC (R185). -/
def execCsrc (w : CsrW) (s : State) : Host.Outcome State Fault Refusal :=
  issue (.csrc w) s (csrDo (.csrc w) w fun old x => old &&& ~~~x)

/-! ## Translation caches -/

/-- Remove from the translation caches of the cores and dies that tests select every entry that a third test selects. -/
def State.dropTlb (s : State) (core die : Nat → Bool) (f : TlbEntry → Bool) : State :=
  let out := fun (l : List TlbEntry) => l.filter fun e => !f e
  { s with cores := s.cores.map (fun x => if core x.1 then (x.1, { x.2 with tlb := out x.2.tlb }) else x),
           dies := s.dies.map fun x => if die x.1 then (x.1, { x.2 with tlb := out x.2.tlb }) else x }

/-- XLINV (R186, R382): every entry, of any address space, whose page overlaps the range. -/
def xlinv (u : UniW) (s : State) : Except Stop State :=
  let i : Instr := .xlinv u
  let ks := uSrcs u true true
  match kCheck s.w i ks none with
  | .error e => .error e
  | .ok () =>
  let a := (s.w.k u.ka.toNat).toNat
  let n := (uB s.w u).toNat
  if 2 ^ 52 ≤ a then .error (.trap (memTrap true gPERM 5 0 0 1 a false))
  else match kPoisonCheck s.w ks with
  | .error e => .error e
  | .ok () =>
    let sc := u.f5.toNat % 4
    let here := s.curCore
    let hit := fun (e : TlbEntry) => n ≠ 0 && a < e.va + e.size && e.va < a + n
    let t := s.dropTlb (fun c => sc == 2 || (sc == 1 && dieOf c == dieOf here) || c == here)
      (fun d => sc == 2 || d == dieOf here) hit
    .ok (t.finish (t.nextPc i))

/-- XLINV (R186). -/
def execXlinv (u : UniW) (s : State) : Host.Outcome State Fault Refusal := issue (.xlinv u) s (xlinv u)

end Sys2Proof.Machine
end

