-- ==== Sys2Proof/Machine/Engine.lean ====
section
/-! DEFINITION. What the engines share: their accesses after issue (R219, R390 to R394, R438), poison on its way, the
frame of a command that reads a descriptor at issue (R187, R383), and the completion of a batched command (R177, R400). -/
namespace Sys2Proof.Machine

/-! ## Poison -/

/-- A list of granules with others added. -/
def addGranules (l g : List Nat) : List Nat := l ++ g.filter fun x => !l.contains x

/-- Poison the granules that bytes of device memory lie in (R393). -/
def State.poisonMem (s : State) (pa n : Nat) : State :=
  if regionOf pa ≠ 0 then s
  else { s with memPoison := addGranules s.memPoison (granules pa n) }

/-- The 32 bytes of a MEMERR event (R395). -/
def memErrBytes (kind ids time pa : Nat) : List Byte :=
  leBytes 2 4 ++ leBytes 2 kind ++ leBytes 4 0 ++ leBytes 8 ids ++ leBytes 8 time ++ leBytes 8 pa

/-- Write a die-cache line that holds poison back, which poisons HBM: MEMERR kind 2 (R395). -/
def State.writeBack (s : State) (g : Nat) : State :=
  ({ s with dirtyPoison := s.dirtyPoison.filter (· != g) } : State).postEvent 0 (memErrBytes 2 0 s.time (64 * g))

/-- Granules that a die's cache of 64 MiB holds (R17). -/
def dieCacheGranules : Nat := 2 ^ 20

/-- A die's cache writes back the oldest lines beyond its size (R17, log 111). -/
def State.trimCache (s : State) (die : Nat) : State :=
  let mine := s.dirtyPoison.filter fun g => paDie (64 * g) == die
  (mine.take (mine.length - dieCacheGranules)).foldl State.writeBack s

/-- Poisoned data in die-cache lines that differ from HBM (R393, R394), until a write-back brings the poison there (R395, log
111). -/
def State.poisonWritten (s : State) (pa n : Nat) : State :=
  if regionOf pa ≠ 0 then s
  else ({ s.poisonMem pa n with dirtyPoison := addGranules s.dirtyPoison (granules pa n) } : State).trimCache (paDie pa)

/-- Poison the granules that bytes of a scratchpad lie in (R393). -/
def State.poisonSpad (s : State) (core off n : Nat) : State :=
  let c := s.core core
  s.setCore core { c with spadPoison := addGranules c.spadPoison (granules off n) }

/-! ## Rejected requests -/

/-- A request whose generation differs is rejected at the memory side of a die (R392): REJECT counts it, and a MEMERR
event of kind 3 is posted, at most one per address space per millisecond. -/
def State.reject (s : State) (die asid : Nat) (gen : BitVec 16) : State :=
  let d := s.die die
  let s := s.setDie die { d with reject := d.reject + 1 }
  let again := s.dies.any fun x => match AMap.find? x.2.rejectAt asid with | some t => s.time < t + 1000000 | none => false
  if again then s
  else
    let s := s.setDie die { s.die die with rejectAt := (s.die die).rejectAt.set asid s.time }
    s.postEvent 0 (memErrBytes 3 (asid + 2 ^ 16 * gen.toNat) s.time 0)

/-! ## Accesses of an engine -/

/-- Why an engine's access does not happen: an absent page (R391), a permission with the PERM reason of R371 (R390, R400), an
isolated die (R438), or a stale generation (R392), which the memory side of the die that owns the address finds. -/
inductive EngErr where
  | absent (va : Nat)
  | denied (va reason : Nat)
  | lost
  | stale (asid : Nat) (gen : BitVec 16) (die : Nat)
  deriving DecidableEq, Repr

/-- The rejection of an engine's request, counted in the die that rejects it (R347, R392). -/
def EngErr.reject (e : EngErr) (s : State) : State :=
  match e with
  | .stale asid gen die => s.reject die asid gen
  | .absent _ => s
  | .denied _ _ => s
  | .lost => s

/-- The same error for an element, whose own address a join reports (R400). -/
def EngErr.ofElement (va : Nat) : EngErr → EngErr
  | .denied _ reason => .denied va reason
  | .absent a => .absent a
  | .lost => .lost
  | .stale asid gen die => .stale asid gen die

/-- An address that a page of a walk maps, for an engine's access. -/
def State.engLeaf (s : State) (p : Leaf) (sp : Aspace) (l : Launch) (va : Nat) (wr bus : Bool) : Except EngErr Nat :=
  let pa := p.pa + va % p.size
  if if wr then !p.w else !p.r then .error (.denied va (if wr then 2 else 1))
  else if regionOf pa = 3 || (regionOf pa != 0 && !bus) then .error (.denied va 6)
  else if sp.gen != l.gen then .error (.stale l.asid l.gen (rejectDie pa))
  else if s.onLostDie pa then .error .lost
  else .ok pa

/-- The physical address of one address of an engine's access: wr for a write, bus when regions 01 and 10 carry the
access out (R219). A Hearth context's command names physical addresses (log 10). -/
def State.engAddr (s : State) (core launch va : Nat) (wr bus : Bool) : Except EngErr Nat × State :=
  if launch = 0 then
    if 2 ^ 46 ≤ va || !paExists va then (.error (.denied va 5), s)
    else if regionOf va = 3 || (regionOf va != 0 && !bus) then (.error (.denied va 6), s)
    else if s.onLostDie va then (.error .lost, s) else (.ok va, s)
  else if 2 ^ 52 ≤ va then (.error (.denied va 5), s)
  else match s.launch? launch with
  | none => (.error (.stale 0 0 (dieOf core)), s)
  | some l =>
  match AMap.find? s.aspaces l.asid with
  | none => (.error (.stale l.asid l.gen (dieOf core)), s)
  | some sp =>
    let r := s.lookup core l.asid l.gen sp.root va
    match r.1 with
    | .absent => (.error (.absent va), r.2)
    | .malformed => (.error (.denied va 8), r.2)
    | .leaf p => (r.2.engLeaf p sp l va wr bus, r.2)

/-- An address range cut at the 64 KiB granules that no page is smaller than (R211). -/
def cut64K : Nat → Nat → Nat → List (Nat × Nat)
  | 0, _, _ => []
  | fuel + 1, va, n =>
    if n = 0 then []
    else
      let k := min n (65536 - va % 65536)
      (va, k) :: cut64K fuel (va + k) (n - k)

/-- The physical pieces of an address range. -/
def State.engPieces (s : State) (core launch : Nat) (wr bus : Bool) : List (Nat × Nat) → Except EngErr (List (Nat × Nat)) × State
  | [] => (.ok [], s)
  | (va, n) :: ps =>
    let r := s.engAddr core launch va wr bus
    match r.1 with
    | .error e => (.error e, r.2)
    | .ok pa =>
      let u := State.engPieces r.2 core launch wr bus ps
      match u.1 with
      | .error e => (.error e, u.2)
      | .ok l => (.ok ((pa, n) :: l), u.2)

/-- The physical pieces of n bytes from an address. -/
def State.engRange (s : State) (core launch va n : Nat) (wr bus : Bool) : Except EngErr (List (Nat × Nat)) × State :=
  s.engPieces core launch wr bus (cut64K (n / 65536 + 2) va n)

/-- Read pieces at the memory side: the bytes, and whether a granule is poisoned. -/
def State.readPieces (s : State) : List (Nat × Nat) → List Byte × Bool × State
  | [] => ([], false, s)
  | (pa, n) :: ps =>
    let r := s.readPhys pa n
    let u := State.readPieces r.2 ps
    (r.1 ++ u.1, s.poisoned pa n || u.2.1, u.2.2)

/-- Write bytes to pieces at the memory side. -/
def State.writePieces (s : State) : List (Nat × Nat) → List Byte → State
  | [], _ => s
  | (pa, n) :: ps, b => State.writePieces (s.writePhys pa (b.take n)) ps (b.drop n)

/-- What an operation wrote: a core's scratchpad, or device memory with none; where, how many bytes, and whether the
source was poisoned. -/
structure Touch where
  core : Option Nat
  addr : Nat
  n : Nat
  bad : Bool
  deriving DecidableEq, Repr

/-- The bytes of a memory side that an operation wrote. -/
def touchPieces (bad : Bool) (ps : List (Nat × Nat)) : List Touch := ps.map fun p => ⟨none, p.1, p.2, bad⟩

/-- Whether the writes cover a granule whole. -/
def coversGranule (l : List Touch) (core : Option Nat) (g : Nat) : Bool :=
  (List.range 64).all fun i => l.any fun x => x.core == core && x.addr ≤ 64 * g + i && 64 * g + i < x.addr + x.n

/-- Whether writes leave a granule clean: they cover it whole, and none of them brought poison there. -/
def cleansGranule (l : List Touch) (core : Option Nat) (g : Nat) : Bool :=
  coversGranule l core g && !l.any fun x => x.bad && x.core == core && x.addr < 64 * g + 64 && 64 * g < x.addr + x.n

/-- The poison once an operation, which has written some bytes before, writes others (R394): a granule that it has now written
whole is clean, and each granule that poisoned data goes to is poisoned. What the operation reads next meets that. -/
def State.settlePoison (s : State) (before l : List Touch) : State :=
  let clean := cleansGranule (before ++ l)
  let s := { s with memPoison := s.memPoison.filter fun g => !clean none g,
                    dirtyPoison := s.dirtyPoison.filter fun g => !clean none g,
                    cores := s.cores.map fun c =>
                      if l.any (fun x => x.core == some c.1) then
                        (c.1, { c.2 with spadPoison := c.2.spadPoison.filter fun g => !clean (some c.1) g })
                      else c }
  (l.filter fun x => x.bad).foldl (fun s x =>
    match x.core with | some c => s.poisonSpad c x.addr x.n | none => s.poisonWritten x.addr x.n) s

/-- The update of SREDUCE and of reduce-on-store (R192, R264): op 0 add, 1 min, 2 max. -/
def reduceVal (ty op old x : Nat) : Nat :=
  if tyFloat ty then
    if op = 0 then memAdd ty old x else (minMaxF ty (op == 2) old x).pat
  else if op = 0 then (old + x) % 2 ^ tyWidth ty
  else if op = 1 then (if intVal ty x < intVal ty old then x else old)
  else (if intVal ty old < intVal ty x then x else old)

/-! ## Commands with a descriptor -/

/-- The request of a descriptor or record read at issue (R365, R383): access 4, not watched; bus tells whether it reaches
regions 01 and 10. -/
def recordReq (size : Nat) (bus : Bool) : Req := ⟨0, 4, true, false, size, size.log2, bus, false⟩

/-- The request of a copy or stack-engine descriptor. DEDUCED (log 134): it reaches regions 01 and 10, as the engine reads of
R219 do. -/
def descReq (size : Nat) : Req := recordReq size true

/-- The trap of a descriptor's content (R383). -/
def descTrap (w : Warp) (group reason : Nat) (a : Word) : Trap :=
  trapOf true group ((w.newest + 1).toNat + 2 ^ 16 * reason + 2 ^ 20) (a.toNat % 2 ^ 32) (bits a.toNat 51 32)

/-- The frame of a command that reads a descriptor at issue and joins the open batch (R187, R190, R383): emptiness,
room in its queue, the read's checks, the content, poisoned sources, and then its effect. -/
def descCmd (i : Instr) (ks : List Nat) (a : Warp → Word) (size group : Nat) (full : Core → Bool)
    (reason : State → List Byte → Option Nat) (body : State → List Byte → State) (s : State) : Except Stop State :=
  let w := s.w
  match kCheck w i ks none with
  | .error e => .error e
  | .ok () =>
  if full s.co then .error .stall
  else match s.resolveOne (descReq size) (a w) with
  | .error e => .error e
  | .ok (p, t) =>
  let r := match p with | .mem pa => t.readSide t.curCore pa size | .spad _ _ => ([], t)
  match reason r.2 r.1 with
  | some n => .error (.trap (descTrap w group n (a w)))
  | none =>
  match kPoisonCheck w ks with
  | .error e => .error e
  | .ok () =>
    let t := body r.2 r.1
    let t := t.setW { t.w with openLeft := t.w.openLeft + 1 }
    .ok (t.finish (t.nextPc i))

/-- A field of n bytes at an offset of a descriptor. -/
def fieldN (d : List Byte) (off n : Nat) : Nat := leNat ((d.drop off).take n)

/-- The failed operation of a copy or stack-engine command (R400, R438). -/
def failedOf (slot group : Nat) (batch : BitVec 16) (reason va : Nat) : FailedOp :=
  if group = gLINK then ⟨slot, gLINK, batch, BitVec.ofNat 32 reason, 0, 0⟩
  else ⟨slot, group, batch, BitVec.ofNat 32 (batch.toNat + 2 ^ 16 * reason), BitVec.ofNat 32 va,
        BitVec.ofNat 32 (bits va 51 32)⟩

/-- A batched command of the warp in a slot completes (R177, R218, R400): wrote tells that it wrote device memory. -/
def State.batchedDone (s : State) (core slot : Nat) (batch : BitVec 16) (wrote : Bool) (bad : Option FailedOp) : State :=
  let w := (s.warpAt core slot).batchDone batch
  let w := { w with wrote := if wrote then batch :: w.wrote else w.wrote, failed := w.failed ++ bad.toList }
  (s.setWarpAt core slot w).settleBatch core slot

/-- The XFAULT event of an engine operation that an absent page stops (R362, R391). -/
def State.engineFault (s : State) (core launch : Nat) (wr : Bool) (va : Nat) : State :=
  match s.launch? launch with
  | none => s
  | some l => s.postEvent l.queue
      (eventBytes 2 (if wr then 1 else 0) l.queue l.num s.time (va + 2 ^ 53 * coreId core))

end Sys2Proof.Machine
end

