-- ==== Sys2Proof/Machine/Copy.lean ====
section
/-! DEFINITION. The copy engine: TCOPY and TCOPYM, their descriptors, and their execution (R190, R261 to R264, R383,
R391, R394, R400). -/
namespace Sys2Proof.Machine

/-! ## The descriptor (R261) -/

/-- CCTL and its fields. -/
def cctl (d : List Byte) : Nat := fieldN d 16 8
def copyRank (d : List Byte) : Nat := bits (cctl d) 3 0
def copyEsz (d : List Byte) : Nat := bits (cctl d) 6 4
def copySwz (d : List Byte) : Nat := bits (cctl d) 10 8
def copyOob (d : List Byte) : Nat := bits (cctl d) 13 12
def copyNfmt (d : List Byte) : Nat := bits (cctl d) 19 16
def copyRed (d : List Byte) : Nat := bits (cctl d) 22 20
def copyRfmt (d : List Byte) : Nat := bits (cctl d) 27 24
def copyLocal (d : List Byte) : Nat := fieldN d 8 8
/-- The 8-byte box entry of dimension i: BOX, LO, IN. -/
def boxEntry (d : List Byte) (i : Nat) : Nat := fieldN d (32 + 8 * i) 8
def boxOf (d : List Byte) (i : Nat) : Nat := bits (boxEntry d i) 15 0
def loOf (d : List Byte) (i : Nat) : Nat := bits (boxEntry d i) 31 16
def inOf (d : List Byte) (i : Nat) : Nat := bits (boxEntry d i) 63 32
/-- The signed byte stride of dimension i, 1 to 13. -/
def strideOf (d : List Byte) (i : Nat) : Int := toSigned 64 (fieldN d (136 + 8 * i) 8)
/-- Whether the element is a q4x nibble; the bytes that move together: one for a pair of nibbles (R262). -/
def copyQ4 (d : List Byte) : Bool := copyEsz d == 4
def copySize (d : List Byte) : Nat := if copyQ4 d then 1 else 2 ^ copyEsz d
/-- Elements of the box. -/
def copyCount (d : List Byte) : Nat := (List.range (copyRank d)).foldl (fun n i => n * boxOf d i) 1
/-- Bytes of the local box. -/
def localBytes (d : List Byte) : Nat := if copyQ4 d then (copyCount d + 1) / 2 else copyCount d * copySize d
/-- Bytes of the local store: scale memory for .g2q (R264). -/
def localStore (dir : Nat) : Nat := if dir = 2 then 2 ^ 16 else 2 ^ 20
/-- Bytes of a swizzle segment (R263). -/
def swzBytes (d : List Byte) : Nat := 16 * 2 ^ copySwz d

/-- Bits of CCTL that are marked 0. -/
def cctlZero (c : Nat) : Bool := bits c 63 28 == 0 && !bit c 23 && bits c 15 14 == 0 && !bit c 11 && !bit c 7

/-- The COPY reason of a descriptor and, for TCOPYM, of the multicast word: the lowest that applies (R383). -/
def copyReason (dir : Nat) (mc : Option Nat) (d : List Byte) : Option Nat :=
  let rank := copyRank d; let esz := copyEsz d; let swz := copySwz d; let oob := copyOob d; let red := copyRed d
  let width := if copyQ4 d then 4 else 8 * copySize d
  let dims := List.range rank
  lowest (
    why 1 (!cctlZero (cctl d) || (d.drop 248).any (· != 0) || localStore dir ≤ copyLocal d || (red == 0 && copyRfmt d != 0) ||
      ((List.range 14).drop rank).any (fun i => boxEntry d i != 0) ||
      (match mc with | some m => 2 ^ 24 ≤ m | none => false)) ++
    why 2 (rank == 0 || 14 < rank || dims.any fun i => boxOf d i == 0 || boxOf d i < loOf d i + inOf d i) ++
    why 3 (4 < esz || 4 < swz || oob == 3 || 3 < red || (red != 0 && !(copyRfmt d ∈ [2, 6, 11, 12])) ||
      (oob == 1 && (!tyFloat (copyNfmt d) || tyWidth (copyNfmt d) != width)) || (red != 0 && dir != 1) ||
      (red != 0 && tyWidth (copyRfmt d) != width) || (swz != 0 && dir == 2)) ++
    why 4 (localStore dir < copyLocal d + localBytes d || (swz != 0 && copyLocal d % swzBytes d != 0)) ++
    why 5 (match mc with
      | some m => (List.range 16).any fun j => bit m j && 191 < bits m 23 16 + j
      | none => false) ++
    why 6 (copyQ4 d && (boxOf d 0 % 2 != 0 || loOf d 0 % 2 != 0 || inOf d 0 % 2 != 0 || oob != 0)))

/-! ## Issue -/

/-- TCOPY (R190): kOff is added to the memory-side base. -/
def tcopy (u : UniW) (s : State) : Except Stop State :=
  let dir := u.f5.toNat % 4
  descCmd (.tcopy u) (uSrcs u true true) (fun w => w.k u.ka.toNat) 256 gCOPY (fun c => 64 ≤ c.copyq.length)
    (fun _ d => copyReason dir none d)
    (fun s d =>
      let c : CopyCmd := ⟨s.curSlot, s.w.owner, s.w.newest + 1, dir, BitVec.ofNat 64 (fieldN d 0 8) + uB s.w u, d,
        [s.curCore], false, [], [], none, false⟩
      s.setCo { s.co with copyq := s.co.copyq ++ [c] }) s

/-- TCOPY (R190). -/
def execTcopy (u : UniW) (s : State) : Host.Outcome State Fault Refusal := issue (.tcopy u) s (tcopy u)

/-- TCOPYM (R190, R264): every core c0 + j of the multicast word receives the local image. -/
def tcopym (u : UniW) (s : State) : Except Stop State :=
  let dir := u.f5.toNat % 4
  let mc := fun (w : Warp) => (uB w u).toNat
  descCmd (.tcopym u) (uSrcs u true true) (fun w => w.k u.ka.toNat) 256 gCOPY (fun c => 64 ≤ c.copyq.length)
    (fun s d => copyReason dir (some (mc s.w)) d)
    (fun s d =>
      let m := mc s.w
      let targets := ((List.range 16).filter fun j => bit m j).map fun j => 192 * dieOf s.curCore + bits m 23 16 + j
      let c : CopyCmd := ⟨s.curSlot, s.w.owner, s.w.newest + 1, dir, BitVec.ofNat 64 (fieldN d 0 8), d, targets, false, [], [], none, false⟩
      s.setCo { s.co with copyq := s.co.copyq ++ [c] }) s

/-- TCOPYM (R190). -/
def execTcopym (u : UniW) (s : State) : Host.Outcome State Fault Refusal := issue (.tcopym u) s (tcopym u)

/-! ## Execution -/

/-- An element of the box: its row, whether it is in bounds, its memory-side address, its local offset (R262). -/
structure CopyElem where
  row : Nat
  inb : Bool
  mem : Nat
  off : Nat
  deriving DecidableEq, Repr

/-- Whether the element of a linear index is in bounds, and its memory-side displacement; a dimension is its BOX, LO,
IN and stride. -/
def boxWalk : List (Nat × Nat × Nat × Int) → Nat → Bool × Int
  | [], _ => (true, 0)
  | (box, lo, n, st) :: t, k =>
    let j := k % box
    let r := boxWalk t (k / box)
    (lo ≤ j && j < lo + n && r.1, ((j : Int) - lo) * st + r.2)

/-- The dimensions of a box, in bytes for q4x pairs. -/
def boxDims (d : List Byte) : List (Nat × Nat × Nat × Int) :=
  (List.range (copyRank d)).map fun i =>
    let h := if copyQ4 d && i == 0 then 2 else 1
    (boxOf d i / h, loOf d i / h, inOf d i / h, if i = 0 then (copySize d : Int) else strideOf d i)

/-- Swz (R263). -/
def swizzle (d : List Byte) (o : Nat) : Nat :=
  if copySwz d = 0 then o
  else
    let n := swzBytes d
    let c := (o >>> 4) % (n / 16)
    let r := (o / n) % (n / 16)
    o - 16 * c + 16 * (c ^^^ r)

/-- The elements of a command in increasing order (R262). A row is those that differ in the first dimension only. DESIGN CHOICE
(log 147): that is the order in which they move where they overlap. -/
def CopyCmd.elems (c : CopyCmd) : List CopyElem :=
  let dims := boxDims c.desc
  (List.range (localBytes c.desc / copySize c.desc)).map fun k =>
    let r := boxWalk dims k
    ⟨k / (dims.headD (1, 0, 0, 0)).1, r.1, ((c.base.toNat + r.2) % (2 : Int) ^ 64).toNat, swizzle c.desc (copyLocal c.desc + copySize c.desc * k)⟩

/-- Why an element does not move: its access at the memory side, or COPY 9 at a cluster-window address (R400). -/
inductive CopyErr where
  | mem (e : EngErr)
  | unit (va : Nat)
  deriving DecidableEq, Repr

/-- Whether a launch owns n bytes of a core's scratchpad (R220). -/
def State.ownsBytes (s : State) (owner core off n : Nat) : Bool :=
  s.ownsUnit owner core off && s.ownsUnit owner core (off + n - 1)

/-- The local side's cores that an element does not own: the issuing core, or the receivers (R400). -/
def CopyCmd.badCore (c : CopyCmd) (s : State) (core : Nat) (e : CopyElem) : Option Nat :=
  if c.dir = 2 || (1 ≤ c.dir && !e.inb) then none
  else (if c.dir = 0 then c.targets else [core]).find? fun t => !s.ownsBytes c.launch t e.off (copySize c.desc)

/-- The checks of one element: the pieces of its memory side. -/
def CopyCmd.check (c : CopyCmd) (s : State) (core : Nat) (e : CopyElem) : Except CopyErr (List (Nat × Nat)) × State :=
  let n := copySize c.desc
  match c.badCore s core e with
  | some t => (.error (.unit (2 ^ 20 * inDie t + e.off)), s)
  | none =>
    if !e.inb then (.ok [], s)
    else if c.dir = 3 then
      let q := bits e.mem 27 20
      if 2 ^ 28 ≤ e.mem || 192 ≤ q || !s.ownsBytes c.launch (192 * dieOf core + q) (e.mem % 2 ^ 20) n then
        (.error (.unit e.mem), s)
      else (.ok [], s)
    else
      let r := s.engRange core c.launch e.mem n (c.dir == 1) (copyRed c.desc == 0)
      match r.1 with
      | .ok p => (.ok p, r.2)
      | .error x => (.error (.mem (x.ofElement e.mem)), r.2)

/-- The checks of every element. -/
def CopyCmd.checks (c : CopyCmd) (s : State) (core : Nat) : List CopyElem → List (CopyElem × Except CopyErr (List (Nat × Nat))) × State
  | [] => ([], s)
  | e :: es =>
    let r := c.check s core e
    let u := CopyCmd.checks c r.2 core es
    ((e, r.1) :: u.1, u.2)

/-- The fill of an out-of-bounds element (R261). -/
def copyFill (d : List Byte) : List Byte :=
  leBytes (copySize d) (if copyOob d = 1 then defaultNaN (copyNfmt d) else if copyOob d = 2 then fieldN d 24 8 else 0)

/-- Whether bytes of a core's scratchpad hold poison. -/
def State.spadPoisoned (s : State) (core off n : Nat) : Bool := (granules off n).any fun g => (s.core core).spadPoison.contains g

/-- Deliver an element's bytes to one core's local store. -/
def CopyCmd.deliver (c : CopyCmd) (e : CopyElem) (b : List Byte) (s : State) (t : Nat) : State :=
  if c.dir = 2 then s.setCore t { s.core t with scale := (s.core t).scale.writeBytes e.off b }
  else s.setCore t { s.core t with spad := (s.core t).spad.writeBytes e.off b }

/-- Move one element whose checks passed (R262, R264): the state and what it wrote. -/
def CopyCmd.move (c : CopyCmd) (core : Nat) (x : CopyElem × List (Nat × Nat)) (s : State) : State × List Touch :=
  let n := copySize c.desc
  let e := x.1
  if c.dir = 0 || c.dir = 2 then
    let r := if e.inb then s.readPieces x.2 else (copyFill c.desc, false, s)
    (c.targets.foldl (c.deliver e r.1) r.2.2, c.targets.map fun t => ⟨some t, e.off, n, r.2.1⟩)
  else if !e.inb then (s, [])
  else
    let b := (s.core core).spad.bytes e.off n
    let bad := s.spadPoisoned core e.off n
    if c.dir = 3 then
      let t := 192 * dieOf core + bits e.mem 27 20
      (s.setCore t { s.core t with spad := (s.core t).spad.writeBytes (e.mem % 2 ^ 20) b }, [⟨some t, e.mem % 2 ^ 20, n, bad⟩])
    else if copyRed c.desc = 0 then (s.writePieces x.2 b, touchPieces bad x.2)
    else
      let r := s.readPieces x.2
      let v := reduceVal (copyRfmt c.desc) (copyRed c.desc - 1) (leNat r.1) (leNat b)
      ((r.2.2.writePieces x.2 (leBytes n v)).notifyZero (x.2.headD (0, 0)).1, touchPieces (bad || r.2.1) x.2)

/-- Move elements one after the other, each with its poison, behind what the command has written before: the state and what it
has written. -/
def CopyCmd.moves (c : CopyCmd) (core : Nat) : List (CopyElem × List (Nat × Nat)) → State → List Touch → State × List Touch
  | [], s, l => (s, l)
  | x :: xs, s, l =>
    let r := c.move core x s
    CopyCmd.moves c core xs (if c.dir = 2 then r.1 else r.1.settlePoison l r.2) (l ++ r.2)

/-- Poison reaches a core's scale memory or one of its banks: the partly performed copies into it no longer clear it. -/
def State.taint (s : State) (core : Nat) (hits : Nat → CopyCmd → Bool) : State :=
  let note := fun (c : Nat) (x : CopyCmd) =>
    if hits c x && !x.rows.isEmpty then { x with tainted := x.tainted ++ [core] } else x
  { s with cores := s.cores.map fun c => (c.1, { c.2 with copyq := c.2.copyq.map (note c.1) }) }

/-- Poison reaches a core's scale memory (R393, R394). -/
def State.poisonScale (s : State) (core : Nat) : State :=
  (s.setCore core { s.core core with scalePoison := true }).taint core fun _ x =>
    x.dir == 2 && x.targets.contains core

/-- The poison of a scale memory that a .g2q copy wrote: the whole store's. A copy of the whole store that completes clears
it, unless poison has reached the store since it began (R394). -/
def CopyCmd.scaleDone (c : CopyCmd) (bad whole : Bool) (s : State) (t : Nat) : State :=
  if bad then s.poisonScale t
  else if whole && localBytes c.desc == 2 ^ 16 && !c.tainted.contains t then s.setCore t { s.core t with scalePoison := false }
  else s

/-- Move elements and settle the poison: the state, and whether poison was moved. They are the whole rest of the command or
some of it. -/
def CopyCmd.perform (c : CopyCmd) (core : Nat) (whole : Bool) (l : List (CopyElem × List (Nat × Nat))) (s : State) :
    State × Bool :=
  let r := c.moves core l s []
  let bad := r.2.any Touch.bad
  (if c.dir = 2 then c.targets.foldl (c.scaleDone bad whole) r.1 else r.1, bad)

/-- Take a command out of a core's copy queue. -/
def State.dropCopy (s : State) (core pos : Nat) : State :=
  s.setCore core { s.core core with copyq := (s.core core).copyq.eraseIdx pos }

/-- The failed operation that an element's error makes, if it fails the command. -/
def CopyCmd.failure (c : CopyCmd) : CopyErr → Option FailedOp
  | .unit va => some (failedOf c.slot gCOPY c.batch 9 va)
  | .mem (.denied va _) => some (failedOf c.slot gCOPY c.batch 8 va)
  | .mem .lost => some (failedOf c.slot gLINK c.batch 4 0)
  | .mem (.absent _) => none
  | .mem (.stale _ _ _) => none

/-- The elements whose rows the command has not performed (R331). -/
def CopyCmd.rest (c : CopyCmd) : List CopyElem := c.elems.filter fun e => !c.rows.contains e.row

/-- A queued copy command changes. -/
def State.putCopy (s : State) (core pos : Nat) (c : CopyCmd) : State :=
  s.setCore core { s.core core with copyq := (s.core core).copyq.set pos c }

/-- The rejections among the accesses of a command (R392). -/
def State.rejectAll (s : State) (l : List EngErr) : State := l.foldl (fun s e => e.reject s) s

/-- A command as an exit decrement meets it: the slot of its warp, and whether the decrement waits for it (R301). -/
abbrev Awaited := Nat × (ExitDec → Bool)
def CopyCmd.owed (c : CopyCmd) : Awaited := (c.slot, fun d => upTo d.batch c.batch)
def StackCmd.owed (c : StackCmd) : Awaited := (c.slot, fun d => upTo d.batch c.batch)

/-- Whether a warp of a core has an exit decrement to perform that waits for its command (R301). -/
def State.owesExit (s : State) (core launch : Nat) (x : Awaited) : Bool :=
  (s.core core).warps.any fun w => w.1 == x.1 && w.2.launch == launch && w.2.exitDecs.any x.2

/-- Whether the Damper stops a command of a launch on a core (R331): it stops unless an exit decrement, which is performed
before the core acknowledges (R303), waits for it or for one of those that cannot complete before it does. -/
def State.stopping (s : State) (core launch : Nat) (cmds : List Awaited) : Bool :=
  (match s.launch? launch with | some l => l.phase == .stopping | none => false) &&
    !cmds.any (s.owesExit core launch)

/-- A copy command starts, and with it those before it in the queue, since commands start in issue order (R187). -/
def State.startCopy (s : State) (core pos : Nat) : State :=
  s.setCore core { s.core core with
    copyq := (s.core core).copyq.zipIdx.map fun x => if x.2 ≤ pos then { x.1 with started := true } else x.1 }

/-- Whether the copy command at a position may go on (R187, R331, R391): it waits for no page, and while the Damper stops its
launch only one that has started does, or one that an exit decrement waits for. -/
def State.copyGoes (s : State) (core : Nat) (c : CopyCmd) : Bool :=
  c.waiting.isNone && (c.started || !s.stopping core c.launch [c.owed])

/-- Rows of which no element fails, in the order of their first elements. -/
def goodRows (l : List (CopyElem × Except CopyErr (List (Nat × Nat)))) : List Nat :=
  let bad := l.filterMap fun x => match x.2 with | .error _ => some x.1.row | .ok _ => none
  (l.map fun x => x.1.row).eraseDups.filter fun r => !bad.contains r

/-- Perform some whole rows of a command and record them (R331, R391): those that a free value selects among the rows that
can be performed, since rows move in no fixed order (R262, log 12). -/
def CopyCmd.someRows (c : CopyCmd) (core pos draw : Nat) (waiting : Option Word)
    (l : List (CopyElem × Except CopyErr (List (Nat × Nat)))) (s : State) : State :=
  let rows := (goodRows l).filter (Config.copyDone draw)
  let now := l.filterMap fun x => match x.2 with
    | .ok p => if rows.contains x.1.row then some (x.1, p) else none
    | .error _ => none
  let r := c.perform core false now s
  r.1.putCopy core pos { c with rows := c.rows ++ rows, waiting := waiting, tainted := if r.2 then c.targets else c.tainted }

/-- Execute a copy command (R262). Its elements move in no fixed order, so any of the elements that cannot move may be the
one that it meets (drawn free): an absent page stops it at a box row (R391); a failed one has moved an unspecified subset
(R400, log 12); a stale generation rejects each element's request where its memory lies (R392). While the Damper stops its
launch it performs only some of its rows (R331). -/
def State.runCopy (s : State) (core pos : Nat) (c : CopyCmd) : State :=
  let r := c.checks s core c.rest
  let good := r.1.filterMap fun x => match x.2 with | .ok p => some (x.1, p) | .error _ => none
  let bads := ((List.range r.1.length).zip r.1).filterMap fun x => match x.2.2 with | .error e => some (x.1, e) | .ok _ => none
  let d := r.2.draw 2
  let refused := bads.filterMap fun x => match x.2 with | .mem e => some e | .unit _ => none
  match bads[Config.victim d.1 % bads.length]? with
  | none =>
    if s.stopping core c.launch [c.owed] && !(goodRows r.1).all (Config.copyDone d.1) then c.someRows core pos d.1 none r.1 d.2
    else ((c.perform core true good r.2).1.dropCopy core pos).batchedDone core c.slot c.batch (c.dir == 1) none
  | some (_, .mem (.absent va)) =>
    (c.someRows core pos d.1 (some (BitVec.ofNat 64 va)) r.1 d.2).engineFault core c.launch (c.dir == 1) va
  | some (_, .mem (.stale _ _ _)) =>
    ((d.2.rejectAll refused).dropCopy core pos).batchedDone core c.slot c.batch false none
  | some (_, e) =>
    let some' := ((List.range good.length).zip good).filterMap fun x => if Config.copyDone d.1 x.1 then some x.2 else none
    (((c.perform core false some' d.2).1.rejectAll refused).dropCopy core pos).batchedDone core c.slot c.batch (c.dir == 1) (c.failure e)

/-- COPY_EXECUTE (R187, R262): the queued command at a position, which starts if it has not. -/
def execCopyExecute (core pos : Nat) (s : State) : Host.Outcome State Fault Refusal :=
  match (s.core core).copyq[pos]? with
  | some c =>
    .next (if c.dir ≠ 4 && s.copyGoes core c then (s.startCopy core pos).runCopy core pos { c with started := true } else s)
  | none => .next s

end Sys2Proof.Machine
end

