-- ==== Sys2Proof/Machine/Stack.lean ====
section
/-! DEFINITION. The stack engines: SGATHER, SREDUCE and SCVT, their descriptors, and their execution (R10, R11, R191,
R192, R383, R391, R394, R400). -/
namespace Sys2Proof.Machine

/-! ## The descriptor (R191) -/

/-- A command's kind: 0 SGATHER, 1 SREDUCE, 2 SCVT. -/
def stDst (d : List Byte) : Nat := fieldN d 0 8
def stSrc (d : List Byte) : Nat := fieldN d 8 8
def stAux (d : List Byte) : Nat := fieldN d 16 8
def stCount (d : List Byte) : Nat := fieldN d 24 4
def stEs (d : List Byte) : Nat := fieldN d 28 2
def stFa (d : List Byte) : Nat := fieldN d 30 1
def stFb (d : List Byte) : Nat := fieldN d 31 1
def stRmc (d : List Byte) : Nat := fieldN d 32 1
def stFlg (d : List Byte) : Nat := fieldN d 33 1
/-- Whether SCVT scales. -/
def stSc (d : List Byte) : Bool := bit (stFlg d) 0
/-- Whether one of SCVT's formats is q4x: its elements then move in pairs. -/
def stQ4 (d : List Byte) : Bool := stFa d == 14 || stFb d == 14

/-- Bytes of n elements of a type in memory: one byte for a pair of q4x (R191). -/
def listBytes (ty n : Nat) : Nat := if ty = 14 then n / 2 else n * (tyWidth ty / 8)
/-- Bytes that a command writes, and reads from SRCA and from AUX as lists. -/
def dstBytes (kind : Nat) (d : List Byte) : Nat :=
  if kind = 0 then stCount d * stEs d else if kind = 1 then listBytes (stFa d) (stCount d) else listBytes (stFb d) (stCount d)
def srcBytes (kind : Nat) (d : List Byte) : Nat := if kind = 0 then stEs d else listBytes (stFa d) (stCount d)
def auxBytes (kind : Nat) (d : List Byte) : Nat :=
  if kind = 0 then 4 * stCount d else if kind = 2 && stSc d then (stCount d + 31) / 32 else 0
/-- The element sizes to which DST and SRCA are aligned, and AUX (R191). -/
def dstAlign (kind : Nat) (d : List Byte) : Nat :=
  if kind = 0 then stEs d else max 1 (tyWidth (if kind = 1 then stFa d else stFb d) / 8)
def srcAlign (kind : Nat) (d : List Byte) : Nat := if kind = 0 then stEs d else max 1 (tyWidth (stFa d) / 8)

/-- Whether SCVT converts FA to FB (R192): the pairs of FCVT, I2F and F2I (R132). -/
def scvtPair (fa fb : Nat) : Bool :=
  if fb ≤ 7 then 8 ≤ fa && fa ≤ 13
  else if fb ≤ 13 then fa ≤ 7 || !(cvtBad 0x2E fb fa 0)
  else fb == 14 && !(cvtBad 0x2E fb fa 0)

/-- The stack of a physical address: die and half of the die's groups (R10); none outside region 00. -/
def stackOf (pa : Nat) : Option Nat := if regionOf pa = 0 then some (pa / 2 ^ 36) else none

/-- The stacks that the mapped pages of an address range lie in, where translation finds them at issue; addresses outside the
space are in none, and fail when they are met (R400). -/
def State.rangeStacks (s : State) (core launch va n : Nat) : List (Option Nat) :=
  (cut64K (n / 65536 + 2) va n).filterMap fun x =>
    if (if launch = 0 then 2 ^ 46 else 2 ^ 52) ≤ x.1 then none
    else if launch = 0 then some (stackOf x.1)
    else match s.launch? launch with
    | none => none
    | some l => match AMap.find? s.aspaces l.asid with
      | none => none
      | some sp => match (s.lookup core l.asid l.gen sp.root x.1).1 with
        | .leaf p => some (stackOf (p.pa + x.1 % p.size))
        | _ => none

/-- The stacks a command addresses as lists, and SGATHER's table base. -/
def State.cmdStacks (s : State) (core kind launch : Nat) (d : List Byte) : List (Option Nat) :=
  s.rangeStacks core launch (stDst d) (dstBytes kind d) ++ s.rangeStacks core launch (stSrc d) (srcBytes kind d) ++
    s.rangeStacks core launch (stAux d) (auxBytes kind d)

/-- Whether the bytes found lie in more than one stack (R383); bytes in regions 01 and 10, which stack-engine accesses
reach (R219), lie in none (log 112). -/
def manyStacks (l : List (Option Nat)) : Bool :=
  match l.filterMap id with
  | [] => false
  | x :: xs => xs.any (· != x)

/-- The STACKENG reason of a descriptor: the lowest that applies (R383). -/
def stackReason (kind : Nat) (s : State) (d : List Byte) : Option Nat :=
  let sc := kind == 2 && stSc d
  match lowest (
    why 1 ((kind != 0 && stEs d != 0) || (kind == 0 && (stFa d != 0 || stFb d != 0)) || (kind != 2 && stRmc d != 0) ||
      (if kind = 2 then 2 ≤ stFlg d else stFlg d != 0) || (kind == 1 && stAux d != 0) || (kind == 2 && !sc && stAux d != 0) ||
      (d.drop 34).any (· != 0)) ++
    why 2 (stCount d == 0 || (kind == 0 && (stEs d % 4 != 0 || stEs d < 4 || 256 < stEs d)) ||
      (kind == 1 && (!(stFa d ∈ [2, 6, 11, 12]) || 2 < stFb d)) ||
      (kind == 2 && (!scvtPair (stFa d) (stFb d) || 4 < stRmc d || (stQ4 d && stCount d % 2 != 0))))) with
  | some r => some r
  | none => lowest (
    why 3 (manyStacks (s.cmdStacks s.curCore kind s.w.owner d)) ++
    why 4 (2 ^ 16 < dstBytes kind d) ++
    why 5 (stDst d % dstAlign kind d != 0 || stSrc d % srcAlign kind d != 0 || (kind == 0 && stAux d % 4 != 0)))

/-! ## Issue -/

/-- A stack-engine command (R191, R192). -/
def stackCmd (i : Instr) (u : UniW) (kind : Nat) (s : State) : Except Stop State :=
  descCmd i [u.ka.toNat] (fun w => w.k u.ka.toNat) 64 gSTACKENG (fun c => 32 ≤ c.stackq.length) (stackReason kind)
    (fun s d =>
      let c : StackCmd := ⟨s.curSlot, s.w.owner, s.w.newest + 1, kind, d, 0, none, false⟩
      s.setCo { s.co with stackq := s.co.stackq ++ [c] }) s

/-- SGATHER (R192). -/
def execSgather (u : UniW) (s : State) : Host.Outcome State Fault Refusal := issue (.sgather u) s (stackCmd (.sgather u) u 0)
/-- SREDUCE (R192). -/
def execSreduce (u : UniW) (s : State) : Host.Outcome State Fault Refusal := issue (.sreduce u) s (stackCmd (.sreduce u) u 1)
/-- SCVT (R192). -/
def execScvt (u : UniW) (s : State) : Host.Outcome State Fault Refusal := issue (.scvt u) s (stackCmd (.scvt u) u 2)

/-! ## SCVT's conversion -/

/-- An exact value times 2^k. -/
def FVal.scale (k : Int) : FVal → FVal
  | .fin s m e => .fin s m (e + k)
  | v => v

/-- The value of a pattern of any type but q4x. -/
def valOf (ty x : Nat) : FVal :=
  if tyFloat ty then fVal ty x else .fin (decide (intVal ty x < 0)) (intVal ty x).natAbs 0

/-- Round an exact value to a type, without flushing or Sat. -/
def valTo (fb rm : Nat) (v : FVal) : Nat :=
  if tyFloat fb then
    match v with
    | .nan => defaultNaN fb
    | .inf s => infPat fb s
    | .fin s m e => (roundF fb s ⟨m, e, false⟩ rm).pat
  else (f2IVal fb rm v).1

/-- Conv of x · 2^k from fa to fb (R81, R192). -/
def convScaled (fa fb rm : Nat) (k : Int) (x : Nat) : Nat :=
  if tyFloat fa && tyFloat fb && isNaN fa x then (cvtF fa fb rm x).pat else valTo fb rm ((valOf fa x).scale k)

/-- Round(fb, y · 2^k) of a converted element; a NaN stays. DEDUCED (log 131): in an integer type the value is rounded and limited as
by F2I. -/
def rescale (fb rm : Nat) (k : Int) (y : Nat) : Nat :=
  if tyFloat fb && isNaN fb y then y else valTo fb rm ((valOf fb y).scale k)

/-- An exact value as Q4X meets it, times 2^k. -/
def QVal.scale (k : Int) : QVal → QVal
  | .fin n e => .fin n (e + k)
  | v => v

/-- SCVT of the elements that one step reads, one or a q4x pair, under the scale byte if it scales (R192): the
destination's elements, or for q4x its byte. -/
def scvtElems (d : List Byte) (scale : Option Nat) (xs : List Nat) : List Nat :=
  let fa := stFa d; let fb := stFb d; let rm := stRmc d
  let special := scale == some 255
  let enc : Int := match scale with | some e => if tyWidth fb < tyWidth fa then 127 - (e : Int) else 0 | none => 0
  let dec : Int := match scale with | some e => if tyWidth fa < tyWidth fb then (e : Int) - 127 else 0 | none => 0
  if fb = 14 then
    let q := fun i => (elemQ fa (xs.getD i 0)).scale enc
    [if special then 0 else (q4Encode (q 0) (q 1)).1]
  else
    let ys := if fa = 14 then
        let v := q4Decode (xs.getD 0 0)
        [(q4ToF fb rm v.1).pat, (q4ToF fb rm v.2).pat]
      else xs.map (convScaled fa fb rm enc)
    ys.map fun y => if special then (if tyFloat fb then defaultNaN fb else 0) else if dec = 0 then y else rescale fb rm dec y

/-! ## Execution -/

/-- Elements that one step of a command handles. -/
def stepElems (kind : Nat) (d : List Byte) : Nat := if kind = 2 && stQ4 d then 2 else 1
/-- Steps of a command. -/
def stepCount (kind : Nat) (d : List Byte) : Nat := stCount d / stepElems kind d

/-- A step's accesses failed with an error, or met an index or address outside the command's stack (STACKENG 9). -/
inductive StackErr where
  | mem (e : EngErr)
  | leaves (va : Nat)
  deriving DecidableEq, Repr

/-- The pieces of an access, whose device memory must lie in a command's stack. -/
def State.stackRange (s : State) (core launch : Nat) (stack : Option Nat) (va n : Nat) (wr : Bool) :
    Except StackErr (List (Nat × Nat)) × State :=
  let r := s.engRange core launch va n wr true
  match r.1 with
  | .error e => (.error (.mem (e.ofElement va)), r.2)
  | .ok ps => if ps.any fun p => (stackOf p.1).isSome && stackOf p.1 != stack then (.error (.leaves va), r.2) else (.ok ps, r.2)

/-- The stack of a command: that of the first of its bytes that a page maps to device memory. -/
def State.cmdStack (s : State) (core : Nat) (c : StackCmd) : Option Nat :=
  (s.cmdStacks core c.kind c.launch c.desc).findSome? id

/-- One step i of SGATHER: its index, and the element it names (R192). -/
def StackCmd.gather (c : StackCmd) (s : State) (core i : Nat) : Except StackErr (State × List Touch) × State :=
  let d := c.desc
  let st := s.cmdStack core c
  let a := s.stackRange core c.launch st (stAux d + 4 * i) 4 false
  match a.1 with
  | .error e => (.error e, a.2)
  | .ok ai =>
    let j := a.2.readPieces ai
    let b := a.2.stackRange core c.launch st ((stSrc d + leNat j.1 * stEs d) % 2 ^ 64) (stEs d) false
    match b.1 with
    | .error e => (.error e, b.2)
    | .ok src =>
      let t := b.2.stackRange core c.launch st (stDst d + i * stEs d) (stEs d) true
      match t.1 with
      | .error e => (.error e, t.2)
      | .ok dst =>
        let x := t.2.readPieces src
        (.ok (x.2.2.writePieces dst x.1, touchPieces (j.2.1 || x.2.1) dst), t.2)

/-- One step i of SREDUCE: an atomic update (R192). -/
def StackCmd.reduce (c : StackCmd) (s : State) (core i : Nat) : Except StackErr (State × List Touch) × State :=
  let d := c.desc
  let n := tyWidth (stFa d) / 8
  let st := s.cmdStack core c
  let b := s.stackRange core c.launch st (stSrc d + i * n) n false
  match b.1 with
  | .error e => (.error e, b.2)
  | .ok src =>
    let t := b.2.stackRange core c.launch st (stDst d + i * n) n true
    match t.1 with
    | .error e => (.error e, t.2)
    | .ok dst =>
      let x := t.2.readPieces src
      let y := x.2.2.readPieces dst
      (.ok ((y.2.2.writePieces dst (leBytes n (reduceVal (stFa d) (stFb d) (leNat y.1) (leNat x.1)))).notifyZero
          (dst.headD (0, 0)).1,
        touchPieces (x.2.1 || y.2.1) dst), t.2)

/-- One step i of SCVT (R192). -/
def StackCmd.cvt (c : StackCmd) (s : State) (core i : Nat) : Except StackErr (State × List Touch) × State :=
  let d := c.desc
  let e := stepElems 2 d
  let na := listBytes (stFa d) e
  let nb := listBytes (stFb d) e
  let st := s.cmdStack core c
  let b := s.stackRange core c.launch st (stSrc d + i * na) na false
  match b.1 with
  | .error x => (.error x, b.2)
  | .ok src =>
    let a := b.2.stackRange core c.launch st (stAux d + i * e / 32) (if stSc d then 1 else 0) false
    match a.1 with
    | .error x => (.error x, a.2)
    | .ok aux =>
      let t := a.2.stackRange core c.launch st (stDst d + i * nb) nb true
      match t.1 with
      | .error x => (.error x, t.2)
      | .ok dst =>
        let x := t.2.readPieces src
        let z := x.2.2.readPieces aux
        let k := if stFa d = 14 then 1 else e
        let xs := (List.range k).map fun j => leNat ((x.1.drop (j * (na / k))).take (na / k))
        let ys := scvtElems d (if stSc d then some (leNat z.1) else none) xs
        (.ok (z.2.2.writePieces dst (ys.flatMap (leBytes (nb / ys.length))), touchPieces (x.2.1 || z.2.1) dst), t.2)

/-- One step of a command. -/
def StackCmd.one (c : StackCmd) (s : State) (core i : Nat) : Except StackErr (State × List Touch) × State :=
  if c.kind = 0 then c.gather s core i else if c.kind = 1 then c.reduce s core i else c.cvt s core i

/-- What a command comes to: how far it got, and why it stopped. -/
structure StackEnd where
  next : Nat
  err : Option StackErr
  deriving DecidableEq, Repr

/-- The steps of a command in increasing order from i on, each with its poison, behind what it has written before (R192,
R394). -/
def StackCmd.steps (c : StackCmd) (core : Nat) : Nat → Nat → State → List Touch → State × List Touch × StackEnd
  | 0, i, s, l => (s, l, ⟨i, none⟩)
  | n + 1, i, s, l =>
    let r := c.one s core i
    match r.1 with
    | .error e => (r.2, l, ⟨i, some e⟩)
    | .ok (t, x) => StackCmd.steps c core n (i + 1) (t.settlePoison l x) (l ++ x)

/-- The failed operation that a step's error makes. -/
def StackCmd.failure (c : StackCmd) : StackErr → Option FailedOp
  | .leaves va => some (failedOf c.slot gSTACKENG c.batch 9 va)
  | .mem (.denied va _) => some (failedOf c.slot gSTACKENG c.batch 8 va)
  | .mem .lost => some (failedOf c.slot gLINK c.batch 4 0)
  | .mem (.absent _) => none
  | .mem (.stale _ _ _) => none

/-- Execute a stack command from its next element on (R192): an absent page stops it there (R391); a failed command has
performed its elements below the failing one (R400). -/
def State.runStack (s : State) (core pos : Nat) (c : StackCmd) : State :=
  let r := c.steps core (stepCount c.kind c.desc - c.next) c.next s []
  let t := r.1
  let drop := fun (s : State) => s.setCore core { s.core core with stackq := (s.core core).stackq.eraseIdx pos }
  match r.2.2.err with
  | none => (drop t).batchedDone core c.slot c.batch true none
  | some (.mem (.absent va)) =>
    let t := t.setCore core { t.core core with
      stackq := (t.core core).stackq.set pos { c with next := r.2.2.next, waiting := some (BitVec.ofNat 64 va) } }
    t.engineFault core c.launch (stDst c.desc ≤ va && va < stDst c.desc + dstBytes c.kind c.desc) va
  | some (.mem (.stale asid gen die)) => (drop (t.reject die asid gen)).batchedDone core c.slot c.batch true none
  | some e => (drop t).batchedDone core c.slot c.batch true (c.failure e)

/-- A stack command starts, and with it those before it in the queue, since commands start in issue order (R187). -/
def State.startStack (s : State) (core pos : Nat) : State :=
  s.setCore core { s.core core with
    stackq := (s.core core).stackq.zipIdx.map fun x => if x.2 ≤ pos then { x.1 with started := true } else x.1 }

/-- Whether the stack command at a position may go on: as for a copy command (R187, R331, R391). -/
def State.stackGoes (s : State) (core : Nat) (c : StackCmd) : Bool :=
  c.waiting.isNone && (c.started || !s.stopping core c.launch [c.owed])

/-- Execute the stack command at a position if it is of a kind; it starts if it has not. -/
def State.stackAt (s : State) (core pos kind : Nat) : State :=
  match (s.core core).stackq[pos]? with
  | some c =>
    if c.kind = kind && s.stackGoes core c then (s.startStack core pos).runStack core pos { c with started := true } else s
  | none => s

/-- SGATHER_EXECUTE (R192). -/
def execSgatherExecute (core pos : Nat) (s : State) : Host.Outcome State Fault Refusal := .next (s.stackAt core pos 0)
/-- SREDUCE_EXECUTE (R192). -/
def execSreduceExecute (core pos : Nat) (s : State) : Host.Outcome State Fault Refusal := .next (s.stackAt core pos 1)
/-- SCVT_EXECUTE (R192). -/
def execScvtExecute (core pos : Nat) (s : State) : Host.Outcome State Fault Refusal := .next (s.stackAt core pos 2)

end Sys2Proof.Machine
end

