-- ==== Sys2Proof/Machine/Matrix.lean ====
section
/-! DEFINITION. The matrix array: WLOAD, MMA, MMAS, accumulator access and ACCWAIT, and the execution of queued matrix
commands (R82, R83, R193 to R200, R267 to R276, R384, R385, R394, R401). -/
namespace Sys2Proof.Machine

/-! ## Formats and control words -/

/-- The formats of the 8-bit class and of the 16-bit class, and those of integer mode (R83, R194). -/
def mx8 (t : Nat) : Bool := t == 0 || t == 4 || t == 8 || t == 9 || t == 14
def mx16 (t : Nat) : Bool := t == 10 || t == 11
def mxInt (t : Nat) : Bool := t == 0 || t == 4 || t == 14
/-- K per pass and N columns of a pair of formats of one class (R194). -/
def mxK (wf sf : Nat) : Nat := if mx16 sf then 64 else if wf = 14 && sf = 14 then 256 else 128
def mxN (wf : Nat) : Nat := if mx16 wf then 64 else 128
/-- Bytes of a weight block (R194). -/
def weightBytes (wf : Nat) : Nat := if mx16 wf then 8192 else 16384

/-- Fields of the MMA control word (R195). -/
def mmaSoff (c : Nat) : Nat := bits c 47 32
def mmaZ (c : Nat) : Bool := bit c 21
def mmaScf (c : Nat) : Bool := bit c 20
def mmaSfmt (c : Nat) : Nat := bits c 19 16
def mmaRow0 (c : Nat) : Nat := bits c 14 8
def mmaM (c : Nat) : Nat := c % 128 + 1
/-- Fields of the row control word (R198). -/
def rcH (c : Nat) : Bool := bit c 15
def rcCount (c : Nat) : Nat := bits c 14 8 + 1
def rcRow0 (c : Nat) : Nat := c % 128
/-- Bytes of a scale (R72). -/
def scaleSize (bf : Bool) : Nat := if bf then 2 else 1

/-- The packed-element bytes that the bitmaps of an MMAS name (R196, R269). -/
def packedBytes (spad : Memory) (ka m sf k : Nat) : Nat :=
  (List.range m).foldl (fun n r => n + popcN 256 (spad.readN (ka + 16 * r) 16 % 2 ^ k)) 0 * (if mx16 sf then 2 else 1)

/-! ## Issue -/

/-- The reason of a matrix command at issue and the scratchpad offset it reports (R384): the lowest that applies. v: a
.v form. -/
def matrixReason (kind : MatKind) (gov : Option Latch) (spad : Memory) (a c : Nat) (v : Bool) : Option (Nat × Nat) :=
  let off := fun (l : List Nat) (x : Nat) => l.map fun r => (r, x)
  let rs : List (Nat × Nat) := match kind with
    | .wload =>
      off (why 1 (c &&& 0xFFFF001F != c || !(mx8 (c % 16) || mx16 (c % 16)))) 0 ++ off (why 3 (a % 256 != 0)) a ++
        off (why 4 (2 ^ 20 < a + weightBytes (c % 16))) a
    | .mma | .mmas =>
      let sf := mmaSfmt c
      let known := match gov with | some g => mx16 g.fmt == mx16 sf | none => false
      let wf := match gov with | some g => g.fmt | none => 0
      let f8 := known && mx8 sf && !(mxInt sf && mxInt wf)
      let k := mxK wf sf
      let m := mmaM c
      let bytes := if kind = .mma then 128 * m else 16 * m + if a + 16 * m ≤ 2 ^ 20 then packedBytes spad a m sf k else 0
      let scales := match gov with
        | some g =>
          f8 && (mmaSoff c % scaleSize (mmaScf c) != 0 || 2 ^ 16 < mmaSoff c + m * (k / 32) * scaleSize (mmaScf c) ||
            g.wsoff % scaleSize g.scf != 0 || 2 ^ 16 < g.wsoff + (k / 32) * 128 * scaleSize g.scf)
        | none => false
      off (why 1 (c &&& 0xFFFF003F7F7F != c || !(mx8 sf || mx16 sf) ||
        (known && !f8 && (mmaScf c || (match gov with | some g => g.scf | none => false))))) 0 ++
      off (why 2 (128 < mmaRow0 c + m)) 0 ++ off (why 3 (a % 128 != 0)) a ++ off (why 4 (2 ^ 20 < a + bytes)) a ++
      off (why 5 scales) 0 ++ off (why 6 (kind == .mmas && sf == 14)) 0
    | .accrd | .accwr | .accz =>
      let n := rcCount c
      off (why 1 (c &&& 0xFF7F != c)) 0 ++
      off (why 2 (if v then n != 1 else rcH c || 128 < rcRow0 c + n)) 0 ++
      (if v || kind = .accz then [] else off (why 3 (a % 256 != 0)) a ++ off (why 4 (2 ^ 20 < a + 512 * n)) a)
  match rs with
  | [] => none
  | x :: xs => some (xs.foldl (fun b y => if y.1 < b.1 then y else b) x)

/-- A MATRIX trap (R357, R384). -/
def matrixTrap (seq tile reason off : Nat) : Trap := trapOf true gMATRIX (seq + 2 ^ 16 * tile + 2 ^ 20 * reason) (off % 2 ^ 32) 0

/-- Queue a matrix command under the next sequence number, which kd receives (R193). A WLOAD governs the MMA and MMAS
that follow it at the port (R384). -/
def State.queueMatrix (s : State) (kind : MatKind) (u : UniW) (tile a c : Nat) : State :=
  let co := s.co
  let cmd : MatCmd := ⟨co.mseq, kind, s.curSlot, s.w.owner, tile, a, BitVec.ofNat 64 c⟩
  let gov := if kind = .wload then some ⟨c % 16, bit c 4, bits c 31 16, [], false⟩ else co.govern
  let s := s.setCo { co with mseq := co.mseq + 1, mqueue := co.mqueue ++ [cmd], govern := gov }
  s.setW (s.w.setK u.kd.toNat (BitVec.setWidth 64 co.mseq))

/-- A queued matrix command (R187, R193, R384): stalls while 16 are queued. useA: ka is a source. -/
def matrixCmd (i : Instr) (u : UniW) (kind : MatKind) (useA : Bool) (s : State) : Except Stop State :=
  let w := s.w
  let ks := uSrcs u useA true
  match kCheck w i ks (some u.kd.toNat) with
  | .error e => .error e
  | .ok () =>
  if 16 ≤ s.co.mqueue.length then .error .stall
  else
    let a := if useA then (w.k u.ka.toNat).toNat else 0
    let c := (uB w u).toNat
    let tile := if kind = .wload then 0 else u.f5.toNat % 8
    match matrixReason kind s.co.govern s.co.spad a c false with
    | some (r, off) => .error (.trap (matrixTrap s.co.mseq.toNat tile r off))
    | none =>
    match kPoisonCheck w ks with
    | .error e => .error e
    | .ok () => let t := s.queueMatrix kind u tile a c; .ok (t.finish (t.nextPc i))

/-- WLOAD (R196). -/
def execWload (u : UniW) (s : State) : Host.Outcome State Fault Refusal := issue (.wload u) s (matrixCmd (.wload u) u .wload true)
/-- MMA (R196). -/
def execMma (u : UniW) (s : State) : Host.Outcome State Fault Refusal := issue (.mma u) s (matrixCmd (.mma u) u .mma true)
/-- MMAS (R196). -/
def execMmas (u : UniW) (s : State) : Host.Outcome State Fault Refusal := issue (.mmas u) s (matrixCmd (.mmas u) u .mmas true)
/-- ACCZ (R198). -/
def execAccz (u : UniW) (s : State) : Host.Outcome State Fault Refusal := issue (.accz u) s (matrixCmd (.accz u) u .accz false)

/-! ## Direct access -/

/-- The element numbers of a tile row start at (R44). -/
def accRow (tile row : Nat) : Nat := 16384 * tile + 128 * row

/-- The n elements listed from an element number. -/
def accGet (t : AMap (BitVec 32)) (at' n : Nat) : List (BitVec 32) :=
  let l := t.filter fun e => at' ≤ e.1 && e.1 < at' + n
  (List.range n).map fun i => AMap.get 0 l (at' + i)

/-- Replace elements from an element number on. -/
def accPut (t : AMap (BitVec 32)) (at' : Nat) (xs : List (BitVec 32)) : AMap (BitVec 32) :=
  t.filter (fun e => e.1 < at') ++ ((List.range xs.length).zip xs).map (fun x => (at' + x.1, x.2)) ++
    t.filter fun e => at' + xs.length ≤ e.1

/-- The oldest incomplete command that names a tile (R385). -/
def Core.busyTile (c : Core) (tile : Nat) : Option MatCmd := c.mqueue.find? fun x => x.kind != .wload && x.tile == tile

/-- The frame of ACCRD.v and ACCWR.v (R199, R384, R385): emptiness, the tile's business, the row control, poison (R351). src:
the v register that ACCWR.v reads, dst: the one that ACCRD.v writes. -/
def accDirect (i : Instr) (u : UniW) (kind : MatKind) (src dst : Option Nat) (body : State → Nat → State) (s : State) :
    Except Stop State :=
  let w := s.w
  let srcs := (uSrcs u false true).map kSrc ++ (src.map fun r => vSrc r false 0).toList
  match readyCheck w i srcs dst none with
  | .error e => .error e
  | .ok () =>
  let c := (uB w u).toNat
  let tile := u.f5.toNat % 8
  match s.co.busyTile tile with
  | some x => .error (.trap (trapOf true gACCBUSY (x.seq.toNat + 2 ^ 16 * tile + if src.isSome then 2 ^ 19 else 0) (wordsOf i).1 0))
  | none =>
  match matrixReason kind none [] 0 c true with
  | some (r, off) => .error (.trap (matrixTrap s.co.mseq.toNat tile r off))
  | none =>
  match poisonCheck w true 0xFFFFFFFF srcs with
  | .error e => .error e
  | .ok () => let t := body s c; .ok (t.finish (t.nextPc i))

/-- ACCRD.v (R199, R394): all 32 lanes, whatever the active mask. -/
def accrdV (u : UniW) (s : State) : Except Stop State :=
  let vd := u.kd.toNat % 32
  accDirect (.accrd u) u .accrd none (some vd) (fun s c =>
    let tile := u.f5.toNat % 8
    let row := rcRow0 c
    let xs := accGet s.co.acc (accRow tile row + if rcH c then 64 else 0) 64
    let off := s.w.base + vd
    let bad := s.co.accPoison.contains (128 * tile + row)
    let poison := if bad then (List.range 32).map fun l => (⟨off, l, 4, 0, 0, tile, row⟩ : RegPoison) else []
    let vals := Lanes.of fun l => (xs.getD (2 * l + 1) 0 ++ xs.getD (2 * l) 0 : BitVec 64)
    s.setW (s.w.launchLoad ⟨false, off, 0xFFFFFFFF, vals, poison⟩)) s

/-- ACCRD (R198, R199). -/
def execAccrd (u : UniW) (s : State) : Host.Outcome State Fault Refusal :=
  issue (.accrd u) s (if bit u.f5.toNat 3 then accrdV u else matrixCmd (.accrd u) u .accrd true)

/-- ACCWR.v (R199): a partial row keeps its poison (R394). -/
def accwrV (u : UniW) (s : State) : Except Stop State :=
  let vs := u.kd.toNat % 32
  accDirect (.accwr u) u .accwr (some vs) none (fun s c =>
    let tile := u.f5.toNat % 8
    let v := s.w.v vs
    let xs := (List.range 64).map fun j => ((v.getD (j / 2) 0).extractLsb' (32 * (j % 2)) 32 : BitVec 32)
    s.setCo { s.co with acc := accPut s.co.acc (accRow tile (rcRow0 c) + if rcH c then 64 else 0) xs }) s

/-- ACCWR (R198, R199). -/
def execAccwr (u : UniW) (s : State) : Host.Outcome State Fault Refusal :=
  issue (.accwr u) s (if bit u.f5.toNat 3 then accwrV u else matrixCmd (.accwr u) u .accwr true)

/-! ## ACCWAIT -/

/-- Whether an ACCWAIT on number n covers a matrix command (R200): it has number n, or lies within the 2¹⁵ numbers before
n. -/
def accCovers (n x : BitVec 16) : Bool := (n - x).toNat ≤ 2 ^ 15

/-- What an ACCWAIT that the warp in a slot is parked on comes to (R200, R401, R446): it stays parked until every command
up to its number has completed; then it reports a failed one that it covers, the oldest first, or it completes. -/
def State.settleAcc (s : State) (core slot : Nat) : State :=
  let c := s.core core
  match (s.warpAt core slot).park with
  | some (.acc n) =>
    if c.mqueue.any fun x => accCovers n x.seq then s
    else match c.matFailed.find? fun f => accCovers n f.num with
    | some f => (s.setCore core { c with matFailed := c.matFailed.erase f }).reportAt core slot f
    | none => s.wakeAt core slot
  | _ => s

/-- The MATRIX trap of an ACCWAIT beyond the newest command (R384). -/
def accwaitOwn (u : UniW) (s : State) : Option Trap :=
  let n := BitVec.setWidth 16 (uB s.w u)
  if 2 ^ 15 ≤ (s.co.mseq - 1 - n).toNat then some (matrixTrap n.toNat 0 7 0) else none

/-- ACCWAIT (R200, R384). -/
def accwait (u : UniW) (s : State) : Except Stop State :=
  uniOwn (.accwait u) (uSrcs u false true) (accwaitOwn u) (fun s =>
    (s.setW (s.w.parkOn (.acc (BitVec.setWidth 16 (uB s.w u))) (s.nextPc (.accwait u)))).settleAcc s.curCore s.curSlot) s

/-- ACCWAIT (R200). -/
def execAccwait (u : UniW) (s : State) : Host.Outcome State Fault Refusal := issue (.accwait u) s (accwait u)

/-! ## Elements -/

/-- The bytes of a memory from pos to n, listed densely. -/
def denseFrom : Nat → Nat → Memory → List Byte
  | pos, n, [] => List.replicate (n - pos) 0
  | pos, n, (k, v) :: t => List.replicate (k - pos) 0 ++ v :: denseFrom (k + 1) n t

/-- The n bytes from an address, in one pass over the memory. -/
def Memory.dense (m : Memory) (a n : Nat) : List Byte := denseFrom 0 n (m.slice a n)

/-- The memory that dense bytes from an address make. -/
def sparseFrom : Nat → List Byte → Memory
  | _, [] => []
  | a, b :: t => if b = 0 then sparseFrom (a + 1) t else (a, b) :: sparseFrom (a + 1) t

/-- The first k pieces of n entries each. -/
def splitN {α : Type} (n : Nat) : Nat → List α → List (List α)
  | 0, _ => []
  | k + 1, l => l.take n :: splitN n k (l.drop n)

/-- An element as the array meets it: its exact value, its integer-mode value, whether it is a signalling NaN, and
whether it is present as a weight (R71, R196). -/
structure MxElem where
  val : FVal
  int : Int
  snan : Bool
  here : Bool
  deriving DecidableEq, Repr

/-- An element of a byte or of two bytes. -/
def mxElem (ty x : Nat) : MxElem := ⟨valOf ty x, if tyFloat ty then 0 else intVal ty x, tyFloat ty && isSNaN ty x, x != 0⟩

/-- The pair of elements of a Q4X byte (R69, R71, R196). -/
def mxPair (b : Nat) : List MxElem :=
  let v := q4Decode b
  let one := fun (x : Int) (here : Bool) => (⟨.fin (decide (x < 0)) x.natAbs (-6), q4Int x, false, here⟩ : MxElem)
  let lo := b % 16; let hi := b / 16
  [one v.1 (if lo = 8 then true else hi != 8 && lo != 0), one v.2 (if lo = 8 then false else hi == 8 || hi != 0)]

/-- The elements that bytes hold in a format (R269). -/
def mxElems (ty : Nat) (b : List Byte) : List MxElem :=
  if ty = 14 then b.flatMap fun x => mxPair x.toNat
  else if mx16 ty then (splitN 2 (b.length / 2) b).map fun x => mxElem ty (leNat x)
  else b.map fun x => mxElem ty x.toNat

/-! ## Sums -/

/-- P_b of R82: a NaN and whether it raises NV, an infinity, or an exact number num · 2^e. -/
inductive PSum where
  | nan (nv : Bool)
  | inf (s : Bool)
  | num (n e : Int)
  deriving DecidableEq, Repr

/-- P_b over the products of a block (R82, R274). -/
def blockSum (ps : List (MxElem × MxElem)) : PSum :=
  let ts := ps.map fun p => prodF p.1.val p.2.val
  let bad := ts.any (· == .bad)
  let snan := ps.any fun p => p.1.snan || p.2.snan
  let pos := ts.any (· == .inf false)
  let neg := ts.any (· == .inf true)
  if bad || ts.any (· == .nan) || (pos && neg) then .nan (bad || snan || (pos && neg))
  else if pos || neg then .inf neg
  else
    let r := sumTerms (ts.filterMap fun t => match t with | .term s m e => some (s, m, e) | _ => none)
    .num r.1 r.2

/-- The default NaN of F32. -/
def nan32 : Nat := defaultNaN 12

/-- The flags of a rounding to F32 in the array (R274): UF for a non-zero subnormal that is inexact. -/
def mxFlags (r : FRes) : FFlags :=
  (r.fl &&& ~~~flUF) ||| (if isSubnormal 12 r.pat && r.fl &&& flNX != 0 then flUF else 0)

/-- Multiply a sign, magnitude and exponent by the finite scales. -/
def scaleProd : List FVal → Bool × Nat × Int → Bool × Nat × Int
  | [], x => x
  | .fin s m e :: t, x => scaleProd t (x.1 != s, x.2.1 * m, x.2.2 + e)
  | .inf s :: t, x => scaleProd t (x.1 != s, x.2.1, x.2.2)
  | .nan :: t, x => scaleProd t x

/-- S_b of R82, with its flags (R274). -/
def scaledSum (p : PSum) (scales : List FVal) : Nat × FFlags :=
  if scales.contains .nan then (nan32, flNV)
  else
    let inf := scales.any fun x => match x with | .inf _ => true | _ => false
    let zero := scales.any fun x => match x with | .fin _ m _ => m == 0 | _ => false
    match p with
    | .nan nv => (nan32, if nv || (inf && zero) then flNV else 0)
    | .inf s => if zero then (nan32, flNV) else (infPat 12 (scaleProd scales (s, 1, 0)).1, 0)
    | .num n e =>
      let z := zero || n == 0
      let x := scaleProd scales (decide (n < 0), n.natAbs, e)
      if inf then (if z then (nan32, flNV) else (infPat 12 x.1, 0))
      else if z then (0, 0)
      else let r := roundF 12 x.1 ⟨x.2.1, x.2.2, false⟩ 0; (r.pat, mxFlags r)

/-- acc + S_b in F32 (R82, R274): payloads do not propagate. -/
def accAdd (acc sb : Nat) : Nat × FFlags :=
  if isNaN 12 acc || isNaN 12 sb then (nan32, 0)
  else let r := addF 12 0 false acc sb; if isNaN 12 r.pat then (nan32, flNV) else (r.pat, mxFlags r)

/-- One output element in float mode: the blocks in increasing order (R82). A block is its products and its scales. -/
def floatAcc : List (List (MxElem × MxElem) × List FVal) → Nat → Nat × FFlags
  | [], acc => (acc, 0)
  | (ps, sc) :: bs, acc =>
    let sb := scaledSum (blockSum ps) sc
    let a := accAdd acc sb.1
    let r := floatAcc bs a.1
    (r.1, sb.2 ||| a.2 ||| r.2)

/-- One output element in integer mode (R83): modulo 2³². -/
def intAcc (ps : List (MxElem × MxElem)) (acc : Nat) : Nat :=
  modN 32 (ps.foldl (fun n p => n + p.1.int * p.2.int) (acc : Int))

/-- The scale at a byte of scale memory (R72). -/
def scaleAt (m : Memory) (off : Nat) (bf : Bool) : FVal :=
  if bf then fVal 11 (m.readN off 2)
  else
    let e := m.readN off 1
    if e = 255 then .nan else .fin false 1 ((e : Int) - 127)

/-- The products that count between a stream row and a weight column: an absent stream element counts none, and with a
sparse stream an absent weight neither (R196). -/
def products (sparse : Bool) : List (Option MxElem) → List MxElem → List (MxElem × MxElem)
  | some a :: as, w :: ws => if sparse && !w.here then products sparse as ws else (a, w) :: products sparse as ws
  | none :: as, _ :: ws => products sparse as ws
  | _, _ => []

/-- One row of an MMA or MMAS (R196): the new elements of columns 0 to N − 1 and the flags. scales gives the two scales
of a block and column, or none. -/
def mmaRow (im sparse : Bool) (k : Nat) (a : List (Option MxElem)) (cols : List (List MxElem)) (scales : Nat → Nat → List FVal)
    (acc : List (BitVec 32)) : List (BitVec 32) × FFlags :=
  let one := fun (x : Nat × List MxElem × BitVec 32) =>
    if im then (intAcc (products sparse a x.2.1) x.2.2.toNat, (0 : FFlags))
    else
      let as := splitN 32 (k / 32) a
      let ws := splitN 32 (k / 32) x.2.1
      floatAcc ((List.range (k / 32)).map fun b => (products sparse (as.getD b []) (ws.getD b []), scales b x.1)) x.2.2.toNat
  let r := ((List.range cols.length).zip (cols.zip acc)).map one
  (r.map fun x => BitVec.ofNat 32 x.1, (r.map Prod.snd).foldl (· ||| ·) 0)

/-- The weight columns of a latch over the first k rows (R269). -/
def Latch.columns (l : Latch) (k : Nat) : List (List MxElem) :=
  let rows := (splitN (if l.fmt = 14 then 64 else 128) k (l.bytes.dense 0 (weightBytes l.fmt))).map (mxElems l.fmt)
  (List.range (mxN l.fmt)).map fun c => rows.map fun r => r.getD c ⟨.fin false 0 0, 0, false, false⟩

/-- The stream rows of a command (R269): each row's elements, and whether a byte read for it is poisoned. -/
def streamRows (c : Core) (sparse : Bool) (sf ka m k : Nat) : List (List (Option MxElem) × Bool) :=
  let bad := fun off n => (granules off n).any fun g => c.spadPoison.contains g
  let esz := if mx16 sf then 2 else 1
  if !sparse then
    ((List.range m).zip (splitN 128 m (c.spad.dense ka (128 * m)))).map fun x =>
      (((mxElems sf x.2).take k).map some, bad (ka + 128 * x.1) (if sf = 14 then k / 2 else k * esz))
  else
    let one := fun (acc : Nat × List (List (Option MxElem) × Bool)) r =>
      let bm := c.spad.readN (ka + 16 * r) 16
      let n := popcN 256 (bm % 2 ^ k)
      let es := mxElems sf (c.spad.dense acc.1 (esz * n))
      let row := (List.range k).map fun j => if bit bm j then es[popcN 256 (bm % 2 ^ j)]? else none
      (acc.1 + esz * n, acc.2 ++ [(row, bad (ka + 16 * r) 16 || bad acc.1 (esz * n))])
    ((List.range m).foldl one (ka + 16 * m, [])).2

/-! ## Execution -/

/-- Why a matrix command fails at execution: MATRIX with a reason and an offset (R401), or HWERR 2 for a poisoned latch
(R394). -/
inductive MatFail where
  | matrix (reason off : Nat)
  | hwerr
  deriving DecidableEq, Repr

/-- Whether a command's launch owns n bytes of its core's scratchpad, all below 1 MiB (R401). -/
def MatCmd.owns (x : MatCmd) (s : State) (core off n : Nat) : Bool :=
  off + n ≤ 2 ^ 20 && (List.range ((off + n - 1) / 4096 - off / 4096 + 1)).all fun i => s.ownsUnit x.launch core (4096 * (off / 4096 + i))

/-- WLOAD's execution (R196, R267, R394): fills the shadow latch. It reads the weights and, for an 8-bit class, the scale
memory (R197), whose poison it takes over; the latch keeps the location of the scales (R267), and each MMA takes their
values there when it executes (log 114). -/
def MatCmd.wload (x : MatCmd) (s : State) (core : Nat) : Except MatFail Core :=
  let c := s.core core
  let k := x.ctl.toNat
  let n := weightBytes (k % 16)
  if !x.owns s core x.off n then .error (.matrix 10 x.off)
  else .ok { c with latchS := some ⟨k % 16, bit k 4, bits k 31 16, c.spad.slice x.off n,
                      ((granules x.off n).any fun g => c.spadPoison.contains g) || (mx8 (k % 16) && c.scalePoison)⟩ }

/-- The core once an MMA or MMAS begins: the shadow latch, if a WLOAD filled it, becomes the active one (R267). -/
def Core.exchange (c : Core) : Core := if c.latchS.isSome then { c with latchA := c.latchS, latchS := none } else c

/-- The rows of an MMA or MMAS in order: tile elements, poisoned rows and flags. Poison that the command consumes, in a
stream row, the scale memory or a row that it adds to, poisons every row that it writes (R394). -/
def mmaRows (x : MatCmd) (l : Latch) (c : Core) (sparse : Bool) : AMap (BitVec 32) × List Nat × FFlags :=
  let k := x.ctl.toNat
  let sf := mmaSfmt k
  let kk := mxK l.fmt sf
  let n := mxN l.fmt
  let im := mxInt l.fmt && mxInt sf
  let f8 := !im && mx8 sf
  let cols := l.columns kk
  let sa := fun r b => scaleAt c.scale (mmaSoff k + (r * (kk / 32) + b) * scaleSize (mmaScf k)) (mmaScf k)
  let sw := fun b j => scaleAt c.scale (l.wsoff + (b * n + j) * scaleSize l.scf) l.scf
  let m := mmaM k
  let rows := streamRows c sparse sf x.off m kk
  let first := 128 * x.tile + mmaRow0 k
  let bad := rows.any Prod.snd || (f8 && c.scalePoison) || (!mmaZ k && (List.range m).any fun i => c.accPoison.contains (first + i))
  let step := fun (acc : AMap (BitVec 32) × List Nat × FFlags) (y : Nat × List (Option MxElem) × Bool) =>
    let row := first + y.1
    let at' := accRow x.tile (mmaRow0 k + y.1)
    let old := if mmaZ k then List.replicate n 0 else accGet acc.1 at' n
    let r := mmaRow im sparse kk y.2.1 cols (fun b j => if f8 then [sa y.1 b, sw b j] else []) old
    let others := acc.2.1.filter (· ≠ row)
    (accPut acc.1 at' r.1,
     if bad || (n != 128 && acc.2.1.contains row) then row :: others else others, acc.2.2 ||| r.2)
  ((List.range m).zip rows).foldl step (c.acc, c.accPoison, 0)

/-- The execution of MMA and MMAS (R82, R83, R196, R274, R394, R401). -/
def MatCmd.mma (x : MatCmd) (s : State) (core : Nat) (sparse : Bool) : Except MatFail Core :=
  let c := (s.core core).exchange
  let k := x.ctl.toNat
  let sf := mmaSfmt k
  let m := mmaM k
  match c.latchA with
  | none => .error (.matrix 9 0)
  | some l =>
    let n := if sparse then 16 * m + packedBytes c.spad x.off m sf (mxK l.fmt sf) else 128 * m
    if mx16 l.fmt != mx16 sf then .error (.matrix 8 0)
    else if !x.owns s core x.off n then .error (.matrix 10 x.off)
    else if l.poison then .error .hwerr
    else
      let r := mmaRows x l c sparse
      .ok { c with acc := r.1, accPoison := r.2.1,
                   mxflags := c.mxflags ||| (BitVec.setWidth 40 r.2.2 <<< (5 * x.tile)) }

/-- The execution of the queued accumulator accesses (R198, R394, R401). -/
def MatCmd.access (x : MatCmd) (s : State) (core : Nat) : Except MatFail Core :=
  let c := s.core core
  let k := x.ctl.toNat
  let n := rcCount k
  let row := fun j => 128 * x.tile + rcRow0 k + j
  let at' := fun j => accRow x.tile (rcRow0 k + j)
  if x.kind = .accz then
    .ok { c with acc := c.acc.filter (fun e => !(at' 0 ≤ e.1 && e.1 < at' n)),
                 accPoison := c.accPoison.filter fun r => !(row 0 ≤ r && r < row n) }
  else if !x.owns s core x.off (512 * n) then .error (.matrix 10 x.off)
  else if x.kind = .accrd then
    let xs := accGet c.acc (at' 0) (128 * n)
    let c := { c with spad := c.spad.paste x.off (512 * n) (sparseFrom 0 (xs.flatMap fun (y : BitVec 32) => leBytes 4 y.toNat)),
                      spadPoison := c.spadPoison.filter fun g => !(x.off / 64 ≤ g && g < (x.off + 512 * n) / 64) }
    let bad := (List.range n).filter fun j => c.accPoison.contains (row j)
    .ok { c with spadPoison := c.spadPoison ++ bad.flatMap fun j => granules (x.off + 512 * j) 512 }
  else
    let b := c.spad.dense x.off (512 * n)
    let xs := (splitN 4 (128 * n) b).map fun y => (BitVec.ofNat 32 (leNat y) : BitVec 32)
    let bad := (List.range n).filter fun j => (granules (x.off + 512 * j) 512).any fun g => c.spadPoison.contains g
    .ok { c with acc := accPut c.acc (at' 0) xs,
                 accPoison := c.accPoison.filter (fun r => !(row 0 ≤ r && r < row n)) ++ bad.map row }

/-- What a matrix command's execution does to its core. -/
def MatCmd.run (x : MatCmd) (s : State) (core : Nat) : Except MatFail Core :=
  match x.kind with
  | .wload => x.wload s core
  | .mma => x.mma s core false
  | .mmas => x.mma s core true
  | .accrd => x.access s core
  | .accwr => x.access s core
  | .accz => x.access s core

/-- The failed operation of a matrix command (R358, R384, R394, R401). -/
def MatCmd.failure (x : MatCmd) : MatFail → FailedOp
  | .matrix r off => ⟨x.slot, gMATRIX, x.seq, BitVec.ofNat 32 (x.seq.toNat + 2 ^ 16 * x.tile + 2 ^ 20 * r), BitVec.ofNat 32 off, 0⟩
  | .hwerr => ⟨x.slot, gHWERR, x.seq, 1, 0, BitVec.ofNat 32 (2 ^ 28 * 2)⟩

/-- Settle every warp of a core that is parked on a join. -/
def State.settleAll (s : State) (core : Nat) (f : State → Nat → Nat → State) : State :=
  ((s.core core).warps.map Prod.fst).foldl (fun s slot => f s core slot) s

/-- A matrix command as an exit decrement meets it (R301). -/
def MatCmd.owed (x : MatCmd) : Awaited := (x.slot, fun d => !upTo x.seq d.mseq)

/-- Execute the oldest queued matrix command of a core when it is of a kind (R193): a failed one has no effect, consumes
its number and completes (R401). While the Damper stops its launch none starts (R276) but what an exit decrement waits for,
in the order of the queue. -/
def State.runMatrix (s : State) (core : Nat) (kind : MatKind) : State :=
  match (s.core core).mqueue with
  | [] => s
  | x :: xs =>
    if x.kind ≠ kind || s.stopping core x.launch ((s.core core).mqueue.map MatCmd.owed) then s
    else
      let c := match x.run s core with
        | .ok c => c
        | .error e => { s.core core with matFailed := (s.core core).matFailed ++ [x.failure e] }
      (s.setCore core { c with mqueue := xs }).settleAll core State.settleAcc

/-- WLOAD_EXECUTE (R267). -/
def execWloadExecute (core : Nat) (s : State) : Host.Outcome State Fault Refusal := .next (s.runMatrix core .wload)
/-- MMA_EXECUTE (R196). -/
def execMmaExecute (core : Nat) (s : State) : Host.Outcome State Fault Refusal := .next (s.runMatrix core .mma)
/-- MMAS_EXECUTE (R196, R272). -/
def execMmasExecute (core : Nat) (s : State) : Host.Outcome State Fault Refusal := .next (s.runMatrix core .mmas)
/-- ACCRD_EXECUTE (R198). -/
def execAccrdExecute (core : Nat) (s : State) : Host.Outcome State Fault Refusal := .next (s.runMatrix core .accrd)
/-- ACCWR_EXECUTE (R198). -/
def execAccwrExecute (core : Nat) (s : State) : Host.Outcome State Fault Refusal := .next (s.runMatrix core .accwr)
/-- ACCZ_EXECUTE (R198). -/
def execAcczExecute (core : Nat) (s : State) : Host.Outcome State Fault Refusal := .next (s.runMatrix core .accz)

end Sys2Proof.Machine
end

