-- ==== Sys2Proof/Machine/Riddle.lean ====
section
/-! DEFINITION. The Riddle sorting array (R85, R86, R201, R202, R277 to R288, R386, R394, R402). -/
namespace Sys2Proof.Machine

/-! ## Control words -/

/-- Fields of the sort control word (R201). -/
def scRows (c : Nat) : Nat := c % 128 + 1
def scCols (c : Nat) : Nat := bits c 14 8 + 1
def scFmt (c : Nat) : Nat := bits c 19 16
def scP (c : Nat) : Bool := bit c 20
def scO (c : Nat) : Bool := bit c 21
def scPoff (c : Nat) : Nat := bits c 41 22
def scOoff (c : Nat) : Nat := bits c 61 42
/-- The permitted key formats (R201). -/
def keyFmts : List Nat := [0, 1, 2, 4, 5, 6, 8, 9, 10, 11, 12]

/-- The scratchpad regions of a SORTLD or SORTST: keys, payloads, origins. -/
def scRegions (off c : Nat) : List (Nat × Nat) :=
  let n := scRows c * scCols c
  [(off, 4 * n)] ++ (if scP c then [(scPoff c, 4 * n)] else []) ++ (if scO c then [(scOoff c, 2 * n)] else [])

/-- The SORT reason of SORTLD and SORTST at issue: the lowest that applies (R386). -/
def sortReason (load raw : Bool) (off c : Nat) : Option Nat :=
  lowest (
    why 1 (bit c 7 || bit c 15 || bits c 63 62 != 0 || !keyFmts.contains (scFmt c) || (load && scO c != raw)) ++
    why 2 (off % 4 != 0 || scPoff c % 4 != 0 || scOoff c % 2 != 0 ||
      (scRegions off c).any fun r => 2 ^ 20 < r.1 + r.2))

/-- A SORT trap: SORTPROG at the moment of the fault (R357, R386). -/
def sortTrap (c : Core) (reason : Nat) : Trap := trapOf true gSORT reason c.riddle.prog 0

/-! ## Issue -/

/-- Queue a Riddle command (R187, R288). -/
def State.queueSort (s : State) (kind off : Nat) (ctl : Word) (flags : BitVec 5) : State :=
  let c := s.co
  s.setCo { c with rqueue := c.rqueue ++ [⟨c.rIssued, kind, s.curSlot, s.w.owner, off, ctl, flags⟩], rIssued := c.rIssued + 1 }

/-- SORTLD and SORTST (R202, R386): stall while 8 commands are queued. -/
def sortMove (i : Instr) (u : UniW) (kind : Nat) (s : State) : Except Stop State :=
  let w := s.w
  let ks := uSrcs u true true
  match kCheck w i ks none with
  | .error e => .error e
  | .ok () =>
  if 8 ≤ s.co.rqueue.length then .error .stall
  else
    let off := (w.k u.ka.toNat).toNat
    let c := uB w u
    match sortReason (kind = 0) (bit u.f5.toNat 0) off c.toNat with
    | some r => .error (.trap (sortTrap s.co r))
    | none =>
    match kPoisonCheck w ks with
    | .error e => .error e
    | .ok () => let t := s.queueSort kind off c u.f5; .ok (t.finish (t.nextPc i))

/-- SORTLD (R202). -/
def execSortld (u : UniW) (s : State) : Host.Outcome State Fault Refusal := issue (.sortld u) s (sortMove (.sortld u) u 0)
/-- SORTST (R202). -/
def execSortst (u : UniW) (s : State) : Host.Outcome State Fault Refusal := issue (.sortst u) s (sortMove (.sortst u) u 2)

/-- SORT (R202, R284): kP is read with RESUME only. -/
def sort (u : UniW) (s : State) : Except Stop State :=
  let i : Instr := .sort u
  let w := s.w
  let ks := if bit u.f5.toNat 2 then uSrcs u false true else []
  match kCheck w i ks none with
  | .error e => .error e
  | .ok () =>
  if 8 ≤ s.co.rqueue.length then .error .stall
  else match kPoisonCheck w ks with
  | .error e => .error e
  | .ok () =>
    let t := s.queueSort 1 0 (if bit u.f5.toNat 2 then uB w u else 0) u.f5
    .ok (t.finish (t.nextPc i))

/-- SORT (R279, R284). -/
def execSort (u : UniW) (s : State) : Host.Outcome State Fault Refusal := issue (.sort u) s (sort u)

/-- What a SORTWAIT that the warp in a slot is parked on comes to (R202, R358, R446): it stays parked until every command
issued before it has completed; then it reports a failed one, or it completes. It covers every command that has failed on
the core: they execute in order of issue, and it is settled as each completes. -/
def State.settleSort (s : State) (core slot : Nat) : State :=
  let c := s.core core
  match (s.warpAt core slot).park with
  | some (.sort n) =>
    if c.rqueue.any (fun x => x.num < n) then s
    else match c.sortFailed.head? with
    | some f => (s.setCore core { c with sortFailed := c.sortFailed.erase f }).reportAt core slot f
    | none => s.wakeAt core slot
  | _ => s

/-- SORTWAIT (R202): every Riddle command issued on the core before it. -/
def execSortwait (u : UniW) (s : State) : Host.Outcome State Fault Refusal :=
  issue (.sortwait u) s fun s =>
    .ok ((s.setW (s.w.parkOn (.sort s.co.rIssued) (s.nextPc (.sortwait u)))).settleSort s.curCore s.curSlot)

/-! ## The schedule (R279 to R281) -/

/-- ⌈log₂ r⌉ for r from 1 to 128. -/
def log2Up (r : Nat) : Nat := if r ≤ 1 then 0 else (r - 1).log2 + 1
/-- NP, and the length of a phase. -/
def Riddle.np (r : Riddle) : Nat := 2 * log2Up r.rows + 1
def Riddle.phaseLen (r : Riddle) (p : Nat) : Nat := if p % 2 = 0 then r.cols else r.rows

/-- Class and rank of a key, in ascending order of precedence in a direction (R85). -/
def keyOrder (fmt : Nat) (desc : Bool) (key : BitVec 32) : Nat :=
  let w := tyWidth fmt
  let k := key.toNat % 2 ^ w
  if tyFloat fmt && isNaN fmt k then 2 ^ w
  else if desc then 2 ^ w - 1 - rankOf fmt k else rankOf fmt k

/-- Whether the contents y come before the contents x (R280). -/
def Riddle.before (r : Riddle) (y x : Cell) : Bool :=
  let ky := keyOrder r.fmt r.desc y.key
  let kx := keyOrder r.fmt r.desc x.key
  ky < kx || (r.stable && ky == kx && y.origin < x.origin)

/-- The cell with which cell (i, j) forms a pair in a step, and whether (i, j) is the first of the pair (R279). -/
def Riddle.partner (r : Riddle) (p st i j : Nat) : Option (Nat × Nat × Bool) :=
  if p % 2 = 0 then
    if j % 2 = st % 2 then (if j + 1 < r.cols then some (i, j + 1, i % 2 = 0) else none)
    else if 0 < j then some (i, j - 1, i % 2 ≠ 0) else none
  else
    if i % 2 = st % 2 then (if i + 1 < r.rows then some (i + 1, j, true) else none)
    else if 0 < i then some (i - 1, j, false) else none

/-- One step: every pair acts at once (R279). -/
def Riddle.stepCells (r : Riddle) (p st : Nat) : List Cell :=
  ((List.range r.cells.length).zip r.cells).map fun x =>
    match r.partner p st (x.1 / r.cols) (x.1 % r.cols) with
    | none => x.2
    | some (i, j, first) =>
      let y := r.cells.getD (i * r.cols + j) x.2
      if first then (if r.before y x.2 then y else x.2) else if r.before x.2 y then y else x.2

/-- The array behind the step that SORTPROG names: SORTED behind the last one (R283). -/
def Riddle.advance (r : Riddle) : Riddle :=
  let r' := { r with cells := r.stepCells r.phase r.step }
  let (p, st) := if r.step + 1 < r.phaseLen r.phase then (r.phase, r.step + 1) else (r.phase + 1, 0)
  if p < r.np then { r' with phase := p, step := st } else { r' with state := 4, phase := r.np, step := 0 }

/-! ## Execution -/

/-- The oldest Riddle command completes: the warps in SORTWAIT are settled. -/
def State.sortDone (s : State) (core : Nat) (c : Core) (bad : List FailedOp) : State :=
  (s.setCore core { c with rqueue := c.rqueue.drop 1, sortFailed := c.sortFailed ++ bad }).settleAll core
    State.settleSort

/-- A failed Riddle command: no effect (R386). -/
def State.sortFail (s : State) (core : Nat) (x : SortCmd) (reason : Nat) : State :=
  let c := s.core core
  s.sortDone core c [⟨x.slot, gSORT, BitVec.ofNat 16 x.num, BitVec.ofNat 32 reason, BitVec.ofNat 32 c.riddle.prog, 0⟩]

/-- Whether a command's launch owns its regions (R402). -/
def SortCmd.owns (x : SortCmd) (s : State) (core : Nat) : Bool :=
  (scRegions x.off x.ctl.toNat).all fun r =>
    (List.range ((r.1 + r.2 - 1) / 4096 - r.1 / 4096 + 1)).all fun i => s.ownsUnit x.launch core (4096 * (r.1 / 4096 + i))

/-- Words of n bytes each from an address. -/
def wordsAt (m : Memory) (n a count : Nat) : List Nat := (splitN n count (m.dense a (n * count))).map leNat

/-- SORTLD's execution (R202, R278, R394, R402). DESIGN CHOICE (log 141): an operand in a unit that the launch does not own
(reason 7) is found before its tags are read (reason 6). -/
def State.sortLoad (s : State) (core : Nat) (x : SortCmd) : State :=
  let c := s.core core
  let k := x.ctl.toNat
  let n := scRows k * scCols k
  let raw := bit x.flags.toNat 0
  let tags := if raw then wordsAt c.spad 2 (scOoff k) n else List.range n
  if !x.owns s core then s.sortFail core x 7
  else if tags.any (2 ^ 14 ≤ ·) then s.sortFail core x 6
  else
    let keys := wordsAt c.spad 4 x.off n
    let pays := if scP k then wordsAt c.spad 4 (scPoff k) n else List.replicate n 0
    let cells := (keys.zip (pays.zip tags)).map fun y =>
      (⟨BitVec.ofNat 32 (y.1 % 2 ^ tyWidth (scFmt k)), BitVec.ofNat 32 y.2.1, BitVec.ofNat 14 y.2.2⟩ : Cell)
    let bad := (scRegions x.off k).any fun r => (granules r.1 r.2).any fun g => c.spadPoison.contains g
    s.sortDone core { c with riddle := ⟨scRows k, scCols k, scFmt k, scP k, raw, cells, 1, 0, 0, false, false, bad⟩ } []

/-- A Riddle command as an exit decrement meets it (R301). -/
def SortCmd.owed (x : SortCmd) : Awaited := (x.slot, fun d => x.num < d.rnum)

/-- Whether the Damper holds the oldest Riddle command of a core: none starts then, and no step of a running SORT (R286,
R331), but what an exit decrement waits for, in the order of the queue. -/
def State.sortHeld (s : State) (core : Nat) : Bool :=
  match (s.core core).rqueue with | x :: xs => s.stopping core x.launch ((x :: xs).map SortCmd.owed) | [] => false

/-- SORTLD_EXECUTE (R202). -/
def execSortldExecute (core : Nat) (s : State) : Host.Outcome State Fault Refusal :=
  match (s.core core).rqueue with
  | x :: _ => .next (if x.kind = 0 && !s.sortHeld core then s.sortLoad core x else s)
  | [] => .next s

/-- Whether the array can start a SORT at a phase and step (R284). -/
def Riddle.validPoint (r : Riddle) (p st : Nat) : Bool :=
  (p < r.np && st < r.phaseLen p) || (p == r.np && st == 0)

/-- SORT_START (R283, R284, R386): RUNNING at the first step, or SORTED at once at PHASE = NP. -/
def State.sortBegin (s : State) (core : Nat) (x : SortCmd) : State :=
  let c := s.core core
  let f := x.flags.toNat
  let resume := bit f 2
  let p := if resume then x.ctl.toNat % 16 else 0
  let st := if resume then bits x.ctl.toNat 11 4 else 0
  if c.riddle.state = 0 then s.sortFail core x 5
  else if !c.riddle.validPoint p st then s.sortFail core x 4
  else
    let r := { c.riddle with state := 2, phase := p, step := st, desc := bit f 0, stable := bit f 1 }
    if p = r.np then s.sortDone core { c with riddle := { r with state := 4 } } []
    else s.setCore core { c with riddle := r }

/-- SORT_START (R283). -/
def execSortStart (core : Nat) (s : State) : Host.Outcome State Fault Refusal :=
  match (s.core core).rqueue with
  | x :: _ => .next (if x.kind = 1 && (s.core core).riddle.state != 2 && !s.sortHeld core then s.sortBegin core x else s)
  | [] => .next s

/-- SORT_STEP (R279): one step of the running SORT, which completes with the last one. -/
def execSortStep (core : Nat) (s : State) : Host.Outcome State Fault Refusal :=
  let c := s.core core
  if c.riddle.state ≠ 2 || s.sortHeld core then .next s
  else
    let c := { c with riddle := c.riddle.advance }
    .next (if c.riddle.state = 4 then s.sortDone core c [] else s.setCore core c)

/-- The array once a SORTSTOP has let it complete its current step (R285): STOPPED with the next step, or SORTED when
that step was the last. -/
def Riddle.stopAfter (r : Riddle) : Riddle := if r.advance.state = 4 then r.advance else { r.advance with state := 3 }

/-- SORTSTOP (R285): a running SORT completes its current step and stops. -/
def execSortstop (u : UniW) (s : State) : Host.Outcome State Fault Refusal :=
  issue (.sortstop u) s fun s =>
    let t := if s.co.riddle.state = 2 then
        s.sortDone s.curCore { s.co with riddle := s.co.riddle.stopAfter } []
      else s
    .ok (t.finish (t.nextPc (.sortstop u)))

/-- The tile's cells in the order that SORTST writes them (R202, R281): row-major for .raw, else the snake order. -/
def Riddle.order (r : Riddle) (raw : Bool) : List Cell :=
  (List.range (r.rows * r.cols)).map fun q =>
    let i := q / r.cols
    let j := if raw || i % 2 = 0 then q % r.cols else r.cols - 1 - q % r.cols
    r.cells.getD (i * r.cols + j) ⟨0, 0, 0⟩

/-- Write a list of words of n bytes at an offset of a core's scratchpad, as an engine does. -/
def Core.putWords (c : Core) (n off : Nat) (xs : List Nat) (bad : Bool) : Core :=
  let b := xs.flatMap (leBytes n)
  let whole := wholeGranules off b.length
  { c with spad := c.spad.paste off b.length (sparseFrom 0 b),
           spadPoison := c.spadPoison.filter (fun g => !whole.contains g) ++
             if bad then (granules off b.length).filter fun g => whole.contains g || !c.spadPoison.contains g else [] }

/-- SORTST's execution (R202, R394, R402). DESIGN CHOICE (log 141): where its regions overlap, the keys are written before the
payloads, and those before the origins. -/
def State.sortStore (s : State) (core : Nat) (x : SortCmd) : State :=
  let c := s.core core
  let r := c.riddle
  let k := x.ctl.toNat
  if r.state = 0 then s.sortFail core x 5
  else if scRows k ≠ r.rows || scCols k ≠ r.cols || scFmt k ≠ r.fmt then s.sortFail core x 8
  else if !x.owns s core then s.sortFail core x 7
  else
    let cells := r.order (bit x.flags.toNat 0)
    let c := c.putWords 4 x.off (cells.map fun y => y.key.toNat % 2 ^ tyWidth r.fmt) r.poison
    let c := if scP k then c.putWords 4 (scPoff k) (cells.map fun y => y.payload.toNat) r.poison else c
    let c := if scO k then c.putWords 2 (scOoff k) (cells.map fun y => y.origin.toNat) r.poison else c
    s.sortDone core c []

/-- SORTST_EXECUTE (R202). -/
def execSortstExecute (core : Nat) (s : State) : Host.Outcome State Fault Refusal :=
  match (s.core core).rqueue with
  | x :: _ => .next (if x.kind = 2 && !s.sortHeld core then s.sortStore core x else s)
  | [] => .next s

end Sys2Proof.Machine
end

