-- ==== Sys2Proof/Machine/Tables.lean ====
section
/-! DEFINITION. Activation tables, network words and the route counters: TABLD, TABSW, BENSET, RSNAP (R130, R203 to
R205, R290, R387, R394, R400). -/
namespace Sys2Proof.Machine

/-- TABLD (R203, R383): binds to the bank that is inactive at issue. -/
def tabld (u : UniW) (s : State) : Except Stop State :=
  let i : Instr := .tabld u
  let w := s.w
  let ks := uSrcs u true true
  match kCheck w i ks none with
  | .error e => .error e
  | .ok () =>
  if 64 ≤ s.co.copyq.length then .error .stall
  else
    let a := w.k u.ka.toNat
    let m := (uB w u).toNat
    if 256 ≤ m then .error (.trap (descTrap w gCOPY 1 a))
    else match kPoisonCheck w ks with
    | .error e => .error e
    | .ok () =>
      let c : CopyCmd := ⟨s.curSlot, w.owner, w.newest + 1, 4, a, [], [m], !s.co.tabBank, [], [], none, false⟩
      let s := s.setCo { s.co with copyq := s.co.copyq ++ [c] }
      .ok (s.finishW { w with openLeft := w.openLeft + 1 } (s.nextPc i))

/-- TABLD (R203). -/
def execTabld (u : UniW) (s : State) : Host.Outcome State Fault Refusal := issue (.tabld u) s (tabld u)

/-- TABSW (R203): flips the banks at once. -/
def execTabsw (u : UniW) (s : State) : Host.Outcome State Fault Refusal :=
  issue (.tabsw u) s fun s =>
    let t := s.setCo { s.co with tabBank := !s.co.tabBank }
    .ok (t.finish (t.nextPc (.tabsw u)))

/-- The 16-byte pieces of a TABLD that it has not performed: address and bank offset. A function's table counts as its
row (log 12). -/
def CopyCmd.tabPieces (c : CopyCmd) : List (Nat × Nat) :=
  ((List.range 8).filter fun f => bit (c.targets.headD 0) f && !c.rows.contains f).flatMap fun f =>
    (List.range 257).map fun j => ((c.base.toNat + 4112 * f + 16 * j) % 2 ^ 64, 4112 * f + 16 * j)

/-- The checks of every piece. -/
def CopyCmd.tabChecks (c : CopyCmd) (s : State) (core : Nat) :
    List (Nat × Nat) → List (Nat × Except EngErr (List (Nat × Nat))) × State
  | [] => ([], s)
  | x :: xs =>
    let r := s.engRange core c.launch x.1 16 false true
    let u := CopyCmd.tabChecks c r.2 core xs
    ((x.2, match r.1 with | .ok p => .ok p | .error e => .error (e.ofElement x.1)) :: u.1, u.2)

/-- Write pieces into a bank: the state, the bank, and whether a piece was poisoned. -/
def tabMoves : List (Nat × List (Nat × Nat)) → State → Memory → State × Memory × Bool
  | [], s, b => (s, b, false)
  | (off, ps) :: xs, s, b =>
    let r := s.readPieces ps
    let u := tabMoves xs r.2.2 (b.writeBytes off r.1)
    (u.1, u.2.1, r.2.1 || u.2.2)

/-- Poison reaches a bank of a core (R393, R394). -/
def State.poisonBank (s : State) (core : Nat) (bank : Bool) : State :=
  (s.setCore core (if bank then { s.core core with bankPoison1 := true } else { s.core core with bankPoison0 := true })).taint core
    fun c x => c == core && x.dir == 4 && x.bank == bank

/-- The bank behind pieces, with its poison (R394), and whether a piece was poisoned: a TABLD of all eight functions that
completes clears the bank's, unless poison has reached the bank since it began. -/
def CopyCmd.tabPerform (c : CopyCmd) (core : Nat) (whole : Bool) (l : List (Nat × List (Nat × Nat))) (s : State) : State × Bool :=
  let co := s.core core
  let r := tabMoves l s (if c.bank then co.bank1 else co.bank0)
  let co := r.1.core core
  let s := r.1.setCore core (if c.bank then { co with bank1 := r.2.1 } else { co with bank0 := r.2.1 })
  let co := s.core core
  (if r.2.2 then s.poisonBank core c.bank
   else if whole && c.targets.headD 0 == 255 && c.tainted.isEmpty then
     s.setCore core (if c.bank then { co with bankPoison1 := false } else { co with bankPoison0 := false })
   else s, r.2.2)

/-- The functions of a TABLD of which no piece fails. -/
def goodFns (l : List (Nat × Except EngErr (List (Nat × Nat)))) : List Nat :=
  let bad := l.filterMap fun x => match x.2 with | .error _ => some (x.1 / 4112) | .ok _ => none
  (List.range 8).filter fun f => !bad.contains f && l.any fun x => x.1 / 4112 == f

/-- Perform some whole functions of a TABLD and record them (R331, R391, log 12). -/
def CopyCmd.someFns (c : CopyCmd) (core pos draw : Nat) (waiting : Option Word)
    (l : List (Nat × Except EngErr (List (Nat × Nat)))) (s : State) : State :=
  let fns := (goodFns l).filter (Config.copyDone draw)
  let now := l.filterMap fun x => match x.2 with
    | .ok p => if fns.contains (x.1 / 4112) then some (x.1, p) else none
    | .error _ => none
  let r := c.tabPerform core false now s
  r.1.putCopy core pos { c with rows := c.rows ++ fns, waiting := waiting, tainted := if r.2 then [core] else c.tainted }

/-- Execute a TABLD (R203, R391, R392, R400): as a copy, in no fixed order. -/
def State.runTabld (s : State) (core pos : Nat) (c : CopyCmd) : State :=
  let r := c.tabChecks s core c.tabPieces
  let good := r.1.filterMap fun x => match x.2 with | .ok p => some (x.1, p) | .error _ => none
  let bads := r.1.filterMap fun x => match x.2 with | .error e => some e | .ok _ => none
  let d := r.2.draw 2
  let done := fun (s : State) (f : Option FailedOp) => (s.dropCopy core pos).batchedDone core c.slot c.batch false f
  match bads[Config.victim d.1 % bads.length]? with
  | none =>
    if s.stopping core c.launch [c.owed] && !(goodFns r.1).all (Config.copyDone d.1) then c.someFns core pos d.1 none r.1 d.2
    else done (c.tabPerform core true good r.2).1 none
  | some (.absent va) =>
    (c.someFns core pos d.1 (some (BitVec.ofNat 64 va)) r.1 d.2).engineFault core c.launch false va
  | some (.stale _ _ _) => done (d.2.rejectAll bads) none
  | some e =>
    let part := ((List.range good.length).zip good).filterMap fun x => if Config.copyDone d.1 x.1 then some x.2 else none
    done ((c.tabPerform core false part d.2).1.rejectAll bads) (c.failure (.mem e))

/-- TABLD_EXECUTE (R187, R203): the queued TABLD at a position, which starts if it has not. -/
def execTabldExecute (core pos : Nat) (s : State) : Host.Outcome State Fault Refusal :=
  match (s.core core).copyq[pos]? with
  | some c =>
    .next (if c.dir = 4 && s.copyGoes core c then (s.startCopy core pos).runTabld core pos { c with started := true } else s)
  | none => .next s

/-- BENSET (R204): kd holds the high part, kb the middle one. -/
def execBenset (u : UniW) (s : State) : Host.Outcome State Fault Refusal :=
  issue (.benset u) s (uniDo (.benset u) [u.ka.toNat, u.kb.toNat, u.kd.toNat] fun s =>
    let w := s.w
    let x : BitVec 144 := (w.k u.kd.toNat).extractLsb' 0 16 ++ w.k u.kb.toNat ++ w.k u.ka.toNat
    .ok (s.finishW { w with benes := w.benes.set (u.f5.toNat % 8) x } (s.nextPc (.benset u))))

/-- RSNAP (R205, R290, R387): the snapshot clears the counters and is stored as 256 bytes. -/
def rsnap (u : UniW) (s : State) : Except Stop State :=
  let i : Instr := .rsnap u
  match kCheck s.w i [u.ka.toNat] none with
  | .error e => .error e
  | .ok () =>
  match s.resolveOne ⟨1, 1, false, true, 256, 8, false, false⟩ (s.w.k u.ka.toNat) with
  | .error e => .error e
  | .ok (p, t) =>
  match kPoisonCheck s.w [u.ka.toNat] with
  | .error e => .error e
  | .ok () =>
    let b := (List.range 64).flatMap fun j => leBytes 4 (AMap.get 0 t.co.routes j).toNat
    let t := t.writePlace t.curCore p b
    let t := t.setCo { t.co with routes := [] }
    .ok (t.finish (t.nextPc i))

/-- RSNAP (R205). -/
def execRsnap (u : UniW) (s : State) : Host.Outcome State Fault Refusal := issue (.rsnap u) s (rsnap u)

end Sys2Proof.Machine
end

