-- ==== Sys2Proof/Machine/Start.lean ====
section
/-! DEFINITION. Room on a core, and the start of a block's warps (R23 to R27, R45, R150, R220, R246, R257, R296, R311,
R317, R353, R435, R436). -/
namespace Sys2Proof.Machine

/-! ## Room on a core -/

/-- The physical registers that a warp holds: its budget, or what it occupies once the spill engine has taken frames of
it under R40; an evicted warp and a free slot hold none. -/
def Warp.held (w : Warp) : Nat :=
  match w.status with
  | .free | .evicted => 0
  | .live | .retired => if w.lent = 0 then w.budget else w.occupancy

/-- Whether a slot is taken. -/
def Warp.takesSlot (w : Warp) : Bool := w.status == .live || w.status == .retired

/-- The free slots among the 48 (R20). -/
def Core.freeSlots (c : Core) : List Nat := (List.range 48).filter fun k => !(AMap.get Warp.free c.warps k).takesSlot

/-- The physical registers in use, the Hearth context's among them (R26). -/
def Core.usedRegs (c : Core) : Nat := c.warps.foldl (fun n x => n + x.2.held) 0

/-- Slots and registers that block warps use (R26); what the spill engine or an eviction has taken from them comes back
only within the same limits (State.mayReturn, State.refill). -/
def Core.blockUse (c : Core) : Nat × Nat :=
  let ws := c.warps.filter fun x => x.2.kind == .block && x.2.takesSlot
  (ws.length, ws.foldl (fun n x => n + x.2.held) 0)

/-- What block warps of a core use at most: 47 slots, and the registers beside the child reserve and the Hearth
context (R26). -/
def blockLimit (core : Nat) : Nat × Nat := (47, if inDie core = 0 then 1440 else 1504)

/-- Slots and registers held for groups (R296). -/
def Core.held (c : Core) : Nat × Nat := c.hold.foldl (fun n h => (n.1 + h.slots, n.2 + h.regs)) (0, 0)

/-- Start address and budget of each warp of a block, in index order (R24, R35). -/
def Header.plan (h : Header) (entry : Word) : List (Word × Nat) :=
  if h.kind = 3 then h.roles.flatMap fun r => List.replicate r.2.2.2 (r.1, r.2.2.1)
  else List.replicate h.warps (entry, h.budget)

/-- Warps and registers of a block (R24, R25, R316). -/
def Header.blockNeed (h : Header) : Nat × Nat :=
  let p := h.plan 0
  (p.length, p.foldl (fun n x => n + x.2) 0)

/-- Slots and registers of a core that the reservations of persistent launches take before their dies start (R317). -/
def State.pledged (s : State) (core : Nat) : Nat × Nat :=
  s.launches.foldl (fun n x =>
    if x.2.started.contains (dieOf core) then n
    else
      let k := (x.2.sets.filter fun y => y.2.1 == core).length
      (n.1 + k * x.2.hdr.blockNeed.1, n.2 + k * x.2.hdr.blockNeed.2)) (0, 0)

/-- The lowest run of n free 4 KiB units (R220). -/
def Core.freeRun (c : Core) (n : Nat) : Option Nat :=
  (List.range 256).find? fun b => b + n ≤ 256 && (List.range n).all fun i => (AMap.find? c.units (b + i)).isNone

/-- Give n units from a base to a launch (R220). -/
def Core.takeUnits (c : Core) (base n launch : Nat) : Core :=
  { c with units := (List.range n).foldl (fun u i => u.set (base + i) launch) c.units }

/-- Free n units from a base. -/
def Core.dropUnits (c : Core) (base n : Nat) : Core :=
  { c with units := (List.range n).foldl (fun u i => u.erase (base + i)) c.units }

/-- Number of spill areas of a launch (R246). -/
def Launch.areaTotal (l : Launch) : Nat := if l.hdr.spilln = 0 then 48 * 192 * l.dies.length else l.hdr.spilln

/-- The rank of a die in a launch's rectangle (R252). -/
def Launch.rank (l : Launch) (die : Nat) : Nat := l.dies.idxOf die

/-- First spill area of a die and the number it receives: the last rank also takes the remainder (R246). A die outside the
rectangle has no rank and receives none (DESIGN CHOICE, log 133). -/
def Launch.areaRange (l : Launch) (die : Nat) : Nat × Nat :=
  let n := l.dies.length
  let per := l.areaTotal / n
  let k := l.rank die
  (k * per, if k + 1 = n then l.areaTotal - k * per else if k < n then per else 0)

/-- The free spill areas of a die (R246). -/
def Launch.freeAreas (l : Launch) (die : Nat) : List Nat :=
  let r := l.areaRange die
  ((List.range r.2).map (r.1 + ·)).filter fun a => !l.areas.contains a

/-- Spill areas of a die that a persistent launch's sets take when the die starts them (R246, R317). -/
def Launch.pledgedAreas (l : Launch) (die : Nat) : Nat :=
  if l.started.contains die then 0 else (l.sets.filter fun x => dieOf x.2.1 == die).length * l.hdr.blockNeed.1

/-- Whether ENG lets a launch have blocks on a core (R327): blocks and reserved sets of other launches count. -/
def State.engRoom (s : State) (core n : Nat) (eng : Bool) : Bool :=
  ((s.core core).blocks.all fun b => b.2.launch == n ||
    !(eng || match s.launch? b.2.launch with | some l => l.eng | none => false)) &&
  s.launches.all fun x => x.1 == n || !(eng || x.2.eng) || !(x.2.sets.any fun y => y.2.1 == core)

/-- Whether a core has slots, registers and a run of units for n blocks of a launch beside what it holds and what it
has pledged (R25, R26, R296, R327). Removed cores and isolated dies take nothing (R436, R437). -/
def State.hasRoom (s : State) (core n : Nat) (l : Launch) : Bool :=
  let c := s.core core
  let need := l.hdr.blockNeed
  let p := s.pledged core
  let b := c.blockUse
  let limit := blockLimit core
  !c.removed && !(s.die (dieOf core)).isolated && !(s.die (dieOf core)).fenced &&
    b.1 + p.1 + need.1 ≤ limit.1 && p.1 + c.held.1 + need.1 ≤ c.freeSlots.length &&
    b.2 + p.2 + need.2 ≤ limit.2 && c.usedRegs + p.2 + c.held.2 + need.2 ≤ 1536 &&
    (c.freeRun l.hdr.spad).isSome && s.engRoom core n l.eng

/-- Whether a core admits a block of a launch (R25). -/
def State.admits (s : State) (core n : Nat) (l : Launch) : Bool :=
  l.phase == .running && s.hasRoom core n l &&
    l.hdr.blockNeed.1 + l.pledgedAreas (dieOf core) ≤ (l.freeAreas (dieOf core)).length

/-! ## Starting warps -/

/-- One of several free things, as the manual leaves open (log 19). -/
def State.pickOf (s : State) (l : List Nat) : Nat × State :=
  let d := s.draw 1
  (l.getD (Config.pick d.1 % l.length) 0, d.2)

/-- Give a new warp of a launch a spill area of a die (R246). -/
def State.takeArea (s : State) (n die : Nat) : Nat × State :=
  match s.launch? n with
  | none => (0, s)
  | some l =>
    let r := s.pickOf (l.freeAreas die)
    (r.1, r.2.setLaunch n { l with areas := r.1 :: l.areas })

/-- A WID as WIDFMT cuts it: bits above the last field read 0; without fields it is one 64-bit value (R21). -/
def cutWid (widfmt wid : Word) : Word :=
  let n := bits widfmt.toNat 38 36
  if n = 0 then wid
  else BitVec.ofNat 64 (wid.toNat % 2 ^ ((List.range n).foldl (fun a i => a + widWidth widfmt.toNat i) 0))

/-- TVEC as the register holds it: bits [63:52] and [1] read 0 (R355). -/
def tvecBits : Word := 0x000FFFFFFFFFFFFD

/-- A warp as it starts (R45, R59, R300, R353): kind, start address, mask, budget and spill area. -/
def Warp.fresh (l : Launch) (kind : WarpKind) (launch : Nat) (pc : Word) (mask : LaneMask) (budget area now : Nat) : Warp :=
  { Warp.free with
    status := .live
    kind := kind
    launch := launch
    since := now
    pc := pc
    active := mask
    launchMask := mask
    m := l.hdr.window
    budget := budget
    spillBase := (l.hdr.spill.toNat + area * l.hdr.spillsz.toNat) % 2 ^ 52
    spillSize := l.hdr.spillsz.toNat % 2 ^ 32
    spillArea := some area
    tvec := l.hdr.tvdef &&& tvecBits }

/-- The core when a warp of a launch starts there: its tag table and token channels are cleared when it is the
launch's first warp on a core that holds no warp of another launch, evicted ones included (R150, R184). -/
def Core.letIn (c : Core) (launch : Nat) : Core :=
  let first := !c.admitted.contains launch
  let alone := c.warps.all fun x => x.2.status == .free || x.2.kind == .hearth || x.2.launch == launch
  let c := if first && alone then { c with tags := [], tagPtr := [], tokens := [] } else c
  if first then { c with admitted := launch :: c.admitted } else c

/-- Start the warps of a block one after the other: index, then start address and budget of each. -/
def State.startWarps (s : State) (core n block : Nat) (l : Launch) (w0 : Warp) : Nat → List (Word × Nat) → State
  | _, [] => s
  | idx, (pc, budget) :: ps =>
    let a := s.takeArea n (dieOf core)
    let k := a.2.pickOf (a.2.core core).freeSlots
    let w := { Warp.fresh l .block n pc 0xFFFFFFFF budget a.1 s.clock with
                 block := block, idx := idx, wid := w0.wid, widfmt := w0.widfmt, blockWarps := w0.blockWarps, kregs := w0.kregs }
    let s := k.2.setWarpAt core k.1 w
    let c := s.core core
    let s := match AMap.find? c.blocks block with
      | some b => s.setCore core { c with blocks := c.blocks.set block { b with slots := b.slots ++ [k.1] } }
      | none => s
    State.startWarps s core n block l w0 (idx + 1) ps

/-- Start a block of a launch on a core that has room for it (R24, R25, R150, R220, R257, R311): its WID, WIDFMT and
start address, the values for k1 upward, its first scratchpad unit, and its placement record. Each warp's first
instruction acquires (R231). -/
def State.startBlock (s : State) (core n : Nat) (l : Launch) (wid widfmt entry : Word) (args : List Word) (unit0 : Nat)
    (tile : Option Nat) : State :=
  let c := (s.core core).letIn n
  let plan := l.hdr.plan entry
  let wid := cutWid widfmt wid
  let b : Block := ⟨n, wid, unit0, l.hdr.spad, [], 0, [], [], [], tile⟩
  let k := c.nextBlock
  let c := { c.takeUnits unit0 l.hdr.spad n with blocks := c.blocks.set k b, nextBlock := k + 1 }
  let regs := ((List.range args.length).zip args).foldl (fun (m : AMap Word) x => m.set (x.1 + 1) x.2) []
  let w0 := { Warp.free with wid := wid, widfmt := widfmt, blockWarps := plan.length,
                             kregs := regs.set 63 (BitVec.ofNat 64 (4096 * unit0)) }
  ((s.setCore core c).acquireAt core 4).startWarps core n k l w0 0 plan

end Sys2Proof.Machine
end

