-- ==== Sys2Proof/Machine/Spawn.lean ====
section
/-! DEFINITION. The Bellows and the joins (R40 to R42, R291 to R303, R403 to R405, R446): Kindling queues, gathering,
spilling and eviction of warps parked in JOINW, their wake and return, exit decrements, and the release of a retired
warp. -/
namespace Sys2Proof.Machine

/-! ## Stops without a raising instruction -/

/-- The trap record of a stop that no warp raised (R443): the detecting agent's COREID, the group and the detail. -/
def stopRec (coreid group d0 d1 d2 : Nat) : TrapRec where
  addr := 0
  coreid := coreid
  d0 := BitVec.ofNat 32 d0
  d1 := BitVec.ofNat 32 d1
  d2 := BitVec.ofNat 32 d2
  mask := 0
  cause := BitVec.ofNat 7 (group + 32)
  slot := 255
  idx := 255
  flags := 4

/-! ## Moving a warp between slots -/

/-- A slot number renamed. -/
def renamed (old new k : Nat) : Nat := if k = old then new else k

/-- Move a warp to another slot number, with everything of the core that names the slot. -/
def Core.moveWarp (c : Core) (old new : Nat) (w : Warp) : Core :=
  let r := renamed old new
  { c with
    warps := (c.warps.erase old).set new w
    blocks := c.blocks.map fun b => (b.1, { b.2 with slots := b.2.slots.map r })
    copyq := c.copyq.map fun x => { x with slot := r x.slot }
    stackq := c.stackq.map fun x => { x with slot := r x.slot }
    mqueue := c.mqueue.map fun x => { x with slot := r x.slot }
    rqueue := c.rqueue.map fun x => { x with slot := r x.slot }
    matFailed := c.matFailed.map fun x => { x with slot := r x.slot }
    sortFailed := c.sortFailed.map fun x => { x with slot := r x.slot }
    vtoks := c.vtoks.map fun e => (e.1, e.2.map fun x => (r x.1, x.2)) }

/-- The lowest number from 64 up that no evicted warp of a core has. -/
def Core.evictSlot (c : Core) : Nat :=
  ((List.range (c.warps.length + 1)).map (64 + ·)).find? (fun k => (AMap.find? c.warps k).isNone) |>.getD 64

/-! ## Filling frames back -/

/-- The base of the newest spilled frame (R48). -/
def Warp.spilledBase (w : Warp) : Nat := (w.frames.getD w.residents (0, 0)).1

/-- Fill the n newest spilled frames, newest first (R49). -/
def State.fillFrames (s : State) (core : Nat) (unif : Bool) : Nat → Warp → Except Stop (State × Warp)
  | 0, w => .ok (s, w)
  | n + 1, w =>
    match s.fillFrame core w unif w.spilledBase with
    | .error e => .error e
    | .ok (t, w) => State.fillFrames t core unif n w

/-- Physical registers of a core that no warp and no reservation has. -/
def State.freeRegs (s : State) (core : Nat) : Nat := 1536 - ((s.core core).usedRegs + (s.pledged core).2)
/-- Warp slots of a core that no warp and no reservation has. -/
def State.freeSlotCount (s : State) (core : Nat) : Nat := (s.core core).freeSlots.length - (s.pledged core).1

/-- Whether a warp of a kind may take slots and registers of a core (R26, R296): they are free and held for no group, and
a block's warps stay below the child reserve. -/
def State.mayTake (s : State) (core : Nat) (kind : WarpKind) (slots regs : Nat) : Bool :=
  let c := s.core core
  let p := s.pledged core
  slots + c.held.1 ≤ s.freeSlotCount core && regs + c.held.2 ≤ s.freeRegs core &&
    (kind != .block ||
      (c.blockUse.1 + p.1 + slots ≤ (blockLimit core).1 && c.blockUse.2 + p.2 + regs ≤ (blockLimit core).2))

/-- What a warp needs before it issues after a JOINW (R40, R49, R299): the frames spilled while it was parked, once
their registers are free; or the current frame of a warp that returned from eviction. -/
def State.refill (s : State) (core : Nat) (unif : Bool) (w : Warp) : Except Stop (State × Warp) :=
  if w.lent ≠ 0 then
    if !s.mayTake core w.kind 0 (w.budget - w.occupancy) then .error .stall
    else match s.fillFrames core unif w.lent w with
      | .error e => .error e
      | .ok (t, w) => .ok (t, { w with lent := 0 })
  else if w.residents = 0 then s.fillFrames core unif 1 w
  else .ok (s, w)

/-- Fill a woken warp's frames back; a fault is left to the next instruction (R48). -/
def State.refillAt (s : State) (core slot : Nat) : State :=
  match s.refill core false (s.warpAt core slot) with
  | .ok (t, w) => t.setWarpAt core slot w
  | .error _ => s

/-! ## JOINW -/

/-- The die forgets a registered waiter (R302). -/
def State.unregister (s : State) (pa : Nat) (registered : Bool) : State :=
  if registered then
    let d := s.die (paDie pa)
    s.setDie (paDie pa) { d with waiters := d.waiters - 1 }
  else s

/-- A parked JOINW reads its counter again (R302, R405): on 0 it completes with AcquireAt(.m) (R179); a warp that is
evicted then waits for its return (R299). A counter on an isolated die is LINK 4 (R438). -/
def State.joinAgain (s : State) (core slot : Nat) (va : Word) (pa : Nat) (registered : Bool) : State :=
  let w := s.warpAt core slot
  if s.onLostDie pa then (s.unregister pa registered).stokerTrap core slot (trapOf true gLINK 4 0 0)
  else if s.mem.readN pa 8 = 0 then
    let s := (s.unregister pa registered).acquireAt core 3
    let s := s.setWarpAt core slot w.wake
    if w.status = .evicted then s else s.refillAt core slot
  else s.setWarpAt core slot { w with park := some (.join va pa registered false) }

/-- JOINW_WAKE (R302): a registered waiter that a notification has reached. -/
def execJoinwWake (core slot : Nat) (s : State) : Host.Outcome State Fault Refusal :=
  match (s.warpAt core slot).park with
  | some (.join va pa true true) => .next (s.joinAgain core slot va pa true)
  | _ => .next s

/-- JOINW_POLL (R405): a waiter that the die had no registration for. -/
def execJoinwPoll (core slot : Nat) (s : State) : Host.Outcome State Fault Refusal :=
  match (s.warpAt core slot).park with
  | some (.join va pa false _) => .next (s.joinAgain core slot va pa false)
  | _ => .next s

/-! ## Exit decrements -/

/-- Whether what a warp issued before a lane's end has completed (R301). -/
def ExitDec.ready (d : ExitDec) (c : Core) (slot : Nat) (w : Warp) : Bool :=
  d.loads == 0 && !(w.batches.any fun b => upTo d.batch b.num) && (w.openLeft == 0 || !upTo d.batch (w.newest + 1)) &&
    !(c.mqueue.any fun x => x.slot == slot && !upTo x.seq d.mseq) && !(c.rqueue.any fun x => x.slot == slot && x.num < d.rnum)

/-- Remove the oldest exit decrement of a warp. -/
def State.dropDec (s : State) (core slot : Nat) : State :=
  let w := s.warpAt core slot
  s.setWarpAt core slot { w with exitDecs := w.exitDecs.drop 1 }

/-- The decrement of one ended lane's counter, at the memory side (R301, R405). -/
def State.exitDecrement (s : State) (core slot : Nat) (d : ExitDec) : State :=
  let w := s.warpAt core slot
  let stop := fun (s : State) (r : TrapRec) => (s.dropDec core slot).recordTrap w.launch r
  let rec' := fun (reason : Nat) => joinRec core d.slot w d.pc d.mask d.unif reason d.join
  let r := s.engAddr core w.launch d.join.toNat true false
  let s := r.2
  match r.1 with
  | .ok pa =>
    let old := s.mem.readN pa 8
    if old = 0 then stop s (rec' 1)
    else ((s.rmwPlace core (.mem pa) 8 fun x => some (x - 1)).2).dropDec core slot
  | .error (.absent va) =>
    let s := s.setWarpAt core slot { w with exitDecs := { d with waiting := true } :: w.exitDecs.drop 1 }
    s.engineFault core w.launch true va
  | .error (.denied _ _) => stop s (rec' 2)
  | .error .lost =>
    stop s { rec' 4 with
               d1 := 0, d2 := 0, cause := BitVec.ofNat 7 (gLINK + 32 + if d.unif then 64 else 0) }
  | .error (.stale asid gen die) => (s.reject die asid gen).dropDec core slot

/-- CHILD_EXIT_DECREMENT (R301): the oldest one of a warp, unless it waits for a page. -/
def execChildExitDecrement (core slot : Nat) (s : State) : Host.Outcome State Fault Refusal :=
  match (s.warpAt core slot).exitDecs with
  | d :: _ =>
    if d.waiting || !d.ready (s.core core) slot (s.warpAt core slot) then .next s
    else .next (s.exitDecrement core slot d)
  | [] => .next s

/-! ## The release of a retired warp -/

/-- Whether everything that a retired warp issued has completed (R41, R301). -/
def State.drained (s : State) (core slot : Nat) : Bool :=
  let c := s.core core
  let w := s.warpAt core slot
  w.inflight.isEmpty && w.openLeft == 0 && w.batches.isEmpty && w.exitDecs.isEmpty &&
    !(c.mqueue.any fun x => x.slot == slot) && !(c.rqueue.any fun x => x.slot == slot)

/-- A failed operation that no join has reported stops the launch (R446). -/
def State.reportUnjoined (s : State) (core slot : Nat) : State :=
  let c := s.core core
  let w := s.warpAt core slot
  let mine := fun (f : FailedOp) => f.slot == slot
  match w.failed ++ c.matFailed.filter mine ++ c.sortFailed.filter mine with
  | [] => s
  | f :: _ =>
    let unif := match s.fetchWord w w.pc.toNat with | .ok b => bit (leNat b) 31 | .error _ => true
    let t : Trap := ⟨f.group, f.d0, f.d1, f.d2, unif, true, none, false⟩
    let c := { c with matFailed := c.matFailed.filter (!mine ·), sortFailed := c.sortFailed.filter (!mine ·) }
    ((s.setCore core c).countHwerr core t.group (t.d2.toNat / 2 ^ 28)).recordTrap w.launch
      { trapRec core slot w t with addr := w.pc }

/-- A block whose last warp has released its slot retires (R42): its units are freed, and a tile awaits its DONE
(R258). -/
def State.retireBlock (s : State) (core n : Nat) : State :=
  let c := s.core core
  match AMap.find? c.blocks n with
  | none => s
  | some b =>
    if b.released.length < b.slots.length then s
    else
      let s := s.setCore core { c.dropUnits b.unit0 b.units with blocks := c.blocks.erase n }
      match b.tile, s.launch? b.launch with
      | some t, some l => s.setLaunch b.launch { l with dones := l.dones ++ [(t, dieOf core)] }
      | _, _ => s

/-- Channel group and priority of a dispatch packet (R310). -/
def packetGroup (p : Packet) : Nat := bits (p.getD 1 0).toNat 59 56
def packetPri (p : Packet) : Nat := bits (p.getD 1 0).toNat 55 53

/-- The Hearth tries the waiting packets of a group again when a warp of the group has retired (R311). -/
def Die.retryGroup (d : Die) (group : Nat) : Die :=
  { d with pending := d.pending.map fun h => if packetGroup h.mail.words = group then { h with tried := false } else h }
def State.retryGroup (s : State) (core : Nat) : State :=
  let d := s.die (dieOf core)
  if d.pending.isEmpty then s else s.setDie (dieOf core) (d.retryGroup (groupOf core))

/-- Free the slot, the registers and the spill area of a retired warp (R41, R246). Its VTOKs that still wait are
withdrawn. -/
def State.freeSlot (s : State) (core slot : Nat) : State :=
  let c := s.core core
  let w := s.warpAt core slot
  let c := { c with warps := c.warps.erase slot,
                    vtoks := c.vtoks.map fun e => (e.1, e.2.filter fun x => x.1 != slot),
                    blocks := if w.kind = .block then
                        match AMap.find? c.blocks w.block with
                        | some b => c.blocks.set w.block { b with released := w.idx :: b.released }
                        | none => c.blocks
                      else c.blocks }
  let s := s.setCore core c
  let s := match s.launch? w.launch with
    | some l => s.setLaunch w.launch { l with areas := l.areas.filter fun a => some a != w.spillArea }
    | none => s
  (if w.kind = .block then s.retireBlock core w.block else s).retryGroup core

/-- WARP_RELEASE (R41, R42, R446). -/
def execWarpRelease (core slot : Nat) (s : State) : Host.Outcome State Fault Refusal :=
  if (s.warpAt core slot).status = .retired && s.drained core slot then
    .next ((s.reportUnjoined core slot).freeSlot core slot)
  else .next s

/-! ## The Kindling queue and the overflow slice -/

/-- The size of a launch's overflow slices in entries (R295). -/
def Launch.sliceCap (l : Launch) : Nat := l.kovfSize / (192 * l.dies.length) / 64

/-- The virtual address of a core's overflow slice (R295). -/
def Launch.sliceBase (l : Launch) (core : Nat) : Nat :=
  l.kovf.toNat + 64 * l.sliceCap * (192 * l.rank (dieOf core) + inDie core)

/-- The 64 bytes of a Kindling entry (R293). -/
def Kindle.bytes (e : Kindle) (tag : BitVec 32) : List Byte :=
  leBytes 8 e.entry.toNat ++ leBytes 8 e.join.toNat ++ (e.pay.flatMap fun p => leBytes 8 p.toNat) ++
    leBytes 8 (2 ^ 40 * e.budget + 2 ^ 8 * e.epoch + e.n) ++
    leBytes 8 (tag.toNat + 2 ^ 32 * e.coreid + 2 ^ 43 * e.lane)

/-- Write bytes for the Bellows or the Damper at a virtual address of a launch; bytes that no page takes are not
written. -/
def State.writeVirt (s : State) (core launch va : Nat) (b : List Byte) : State :=
  let r := s.engRange core launch va b.length true false
  match r.1 with
  | .ok ps => r.2.writePieces ps b
  | .error _ => r.2

/-- Write an entry at a ring index of a core's overflow slice (R293, R295). -/
def State.writeSlice (s : State) (core : Nat) (l : Launch) (index : Nat) (e : Kindle) : State :=
  s.writeVirt core e.launch (l.sliceBase core + 64 * (index % l.sliceCap)) (e.bytes l.hdr.tag)

/-- Move the oldest slice entries to the tail of the queue while it has room (R294). -/
def Core.refillQueue (c : Core) (now : Nat) : Core :=
  let k := 2048 - c.kindling.length
  { c with kindling := c.kindling ++ (c.overflow.take k).map (fun e => { e with arrived := now }), overflow := c.overflow.drop k }

/-- An entry reaches a core (R294, R403). DESIGN CHOICE: one without a launch is dropped (log 132), and on a die outside the launch's
rectangle it has the queue and no overflow slice (log 133). -/
def State.kindle (s : State) (core : Nat) (e : Kindle) : State :=
  match s.launch? e.launch with
  | none => s
  | some l =>
    let c := s.core core
    let mine := (c.overflow.filter fun x => x.launch == e.launch).length
    if c.kindling.length < 2048 && mine = 0 then
      s.setCore core { c with kindling := c.kindling ++ [{ e with arrived := s.clock }] }
    else if l.dies.contains (dieOf core) && mine < l.sliceCap then
      let tail := AMap.get 0 c.ovfTail e.launch
      let s := s.setCore core { c with overflow := c.overflow ++ [e], ovfTail := c.ovfTail.set e.launch (tail + 1) }
      let s := s.writeSlice core l tail e
      s.setCore core ((s.core core).refillQueue s.clock)
    else
      let base := l.sliceBase core
      s.recordTrap e.launch (stopRec (coreId core) gSPAWN (2 ^ e.lane) base (bits base 51 32 + 2 ^ 20 * 3))

/-- Whether two children on their way go from one warp to one core: they arrive in the order in which they set out (R292). -/
def Child.follows (x y : Child) : Bool :=
  x.core == y.core && x.entry.launch == y.entry.launch && x.entry.coreid == y.entry.coreid && x.wid == y.wid

/-- The oldest child on its way to a core that has crossed the Flue, and that follows no other (R292, R321); the first list
holds the older ones. -/
def firstArrival (core : Nat) : List Child → List Child → Option Child
  | _, [] => none
  | older, x :: xs =>
    if x.core == core && x.hops.isEmpty && !older.any x.follows then some x else firstArrival core (x :: older) xs

/-- KINDLING_ENTRY_ARRIVAL (R292, R294): the oldest entry on its way to a core that can arrive. -/
def execKindlingEntryArrival (core : Nat) (s : State) : Host.Outcome State Fault Refusal :=
  match firstArrival core [] s.travel with
  | some x => .next (({ s with travel := s.travel.erase x } : State).kindle core x.entry)
  | none => .next s

/-! ## Gathering -/

/-- Whether two entries agree on the five values of R296. -/
def Kindle.joins (a b : Kindle) : Bool :=
  a.launch == b.launch && a.entry == b.entry && a.budget == b.budget && a.n == b.n && a.epoch == b.epoch

/-- The oldest entry of each group that can form (R296, R297): 32 entries in the queue, or an oldest one that has been
there for 64 cycles. An entry that arrives in this cycle waits. The groups of a stopping launch do not form. -/
def State.formable (s : State) (core : Nat) : List Kindle :=
  let q := (s.core core).kindling.filter fun e => e.arrived < s.clock &&
    (match s.launch? e.launch with | some l => l.phase == .running && l.trap.isNone | none => false)
  let heads := q.foldl (fun (hs : List Kindle) e => if hs.any (·.joins e) then hs else hs ++ [e]) []
  heads.filter fun h => h.arrived + 64 ≤ s.clock || 32 ≤ (q.filter (·.joins h)).length

/-- Whether the held resources are a group's. -/
def Hold.isFor (h : Hold) (e : Kindle) : Bool :=
  h.launch == e.launch && h.entry == e.entry && h.budget == e.budget && h.n == e.n && h.epoch == e.epoch

/-- What is held for groups other than an entry's. -/
def Core.heldOff (c : Core) (e : Kindle) : Nat × Nat :=
  (c.hold.filter fun h => !h.isFor e).foldl (fun n h => (n.1 + h.slots, n.2 + h.regs)) (0, 0)

/-- Hold what a group's spilling or eviction has freed beside what is held for it already (R296). -/
def Core.holdFor (c : Core) (e : Kindle) (slots regs : Nat) : Core :=
  let mine := (c.hold.filter fun h => h.isFor e).foldl (fun n h => (n.1 + h.slots, n.2 + h.regs)) (slots, regs)
  if mine.1 = 0 && mine.2 = 0 then c
  else { c with hold := (c.hold.filter fun h => !h.isFor e) ++ [⟨e.launch, e.entry, e.budget, e.n, e.epoch, mine.1, mine.2⟩] }

/-- Whether a launch has a free spill area on a core's die (R246), beside those of sets that the die has still to start. -/
def State.areaFree (s : State) (core n : Nat) : Bool :=
  match s.launch? n with
  | some l => l.pledgedAreas (dieOf core) < (l.freeAreas (dieOf core)).length
  | none => false

/-- Step 1 of R298: a free slot, free registers and a free area. -/
def State.childRoom (s : State) (core : Nat) (e : Kindle) : Bool :=
  let h := (s.core core).heldOff e
  h.1 + 1 ≤ s.freeSlotCount core && h.2 + e.budget ≤ s.freeRegs core && s.areaFree core e.launch &&
    !(s.core core).removed

/-- The resident warps of a launch that are parked in JOINW, longest parked first (R298). DESIGN CHOICE (log 140): of those that
parked in one cycle, the lower slot comes first. -/
def Core.joinParked (c : Core) (launch : Nat) : List Nat :=
  let ws := c.warps.filter fun x => x.2.status == .live && x.1 < 48 && x.2.launch == launch &&
    match x.2.park with | some (.join _ _ _ _) => true | _ => false
  (ws.foldr (fun x (acc : List (Nat × Warp)) =>
      (acc.takeWhile fun y => y.2.parkedAt < x.2.parkedAt) ++ [x] ++ acc.dropWhile fun y => y.2.parkedAt < x.2.parkedAt)
    []).map Prod.fst

/-- The resident frames of a parked warp, oldest first, the current one with all its registers (R48). -/
def Warp.spillable (w : Warp) : List (Resident × Nat) :=
  if w.residents = 0 then []
  else (w.below.map fun r => (r, r.m - r.n)) ++ [((⟨w.base, w.m, 0, w.links.head?⟩ : Resident), w.m)]

/-- Spill frames of a parked warp while a test of the state asks for more (R40, R298). A spill that does not fit below
the divergence entries, waits for a producer, or would meet a fault is not made, nor are the later ones. -/
def State.lend (s : State) (core slot : Nat) (more : State → Bool) : List (Resident × Nat) → State
  | [] => s
  | (r, n) :: rs =>
    let w := s.warpAt core slot
    if !more s || w.divFloor < w.nextRecord + 256 * (n + 1) then s
    else match s.spillFrame core w false r n with
    | .error _ => s
    | .ok (t, w) => State.lend (t.setWarpAt core slot { w with lent := w.lent + 1 }) core slot more rs

/-- Step 2 of R298: spill frames of the longest-parked warps until enough registers are free. -/
def State.lendAll (s : State) (core : Nat) (more : State → Bool) : List Nat → State
  | [] => s
  | k :: ks => State.lendAll (s.lend core k more (s.warpAt core k).spillable) core more ks

/-- Whether a register of a warp is still empty, which its eviction waits for (R49, R298). -/
def Warp.unfilled (w : Warp) : Bool := !w.vEmpty.isEmpty || !w.kEmpty.isEmpty || !w.inflight.isEmpty

/-- Evict one parked warp (R298): its records and 4 KiB of context fit below its divergence entries, and no write of them
would fault. -/
def State.evict (s : State) (core slot : Nat) : State :=
  let w := s.warpAt core slot
  let s1 := s.lend core slot (fun _ => true) w.spillable
  let w1 := s1.warpAt core slot
  let top := (w1.nextRecord + 255) / 256 * 256
  if w1.residents ≠ 0 || w1.divFloor < top + 4096 then s
  else
    let r := s1.engRange core w.launch top 4096 true false
    match r.1 with
    | .error _ => s
    | .ok ps =>
      let d := r.2.draw 1
      let s2 := d.2.writePieces ps ((List.range 4096).map fun i => Config.contextByte d.1 i)
      let c := s2.core core
      s2.setCore core (c.moveWarp slot c.evictSlot { w1 with status := .evicted, lent := 0 })

/-- Step 3 of R298: evict the longest-parked warps until the group has room. A warp with an empty register is waited for,
and no later one goes before it. -/
def State.evictAll (s : State) (core : Nat) (e : Kindle) : List Nat → State
  | [] => s
  | k :: ks =>
    if s.childRoom core e || (s.warpAt core k).unfilled then s else State.evictAll (s.evict core k) core e ks

/-- What R298 does for the oldest formable group: spilling until its registers are free, then eviction; what they free is
held for the group (R296). -/
def State.makeRoom (s : State) (core : Nat) (e : Kindle) : State :=
  if s.childRoom core e || !s.areaFree core e.launch || (s.core core).removed then s
  else
    let parked := (s.core core).joinParked e.launch
    let h := (s.core core).heldOff e
    let s1 := s.lendAll core (fun t => decide (t.freeRegs core < h.2 + e.budget)) parked
    let s2 := s1.evictAll core e parked
    s2.setCore core ((s2.core core).holdFor e (s2.freeSlotCount core - s.freeSlotCount core)
      (s2.freeRegs core - s.freeRegs core))

/-- Take the first entries of a group from the queue, at most 32 (R296): those taken and those that stay. -/
def takeGroup (h : Kindle) (now : Nat) : Nat → List Kindle → List Kindle × List Kindle
  | _, [] => ([], [])
  | 0, q => ([], q)
  | n + 1, e :: q =>
    if h.joins e && e.arrived < now then
      let r := takeGroup h now n q
      (e :: r.1, r.2)
    else
      let r := takeGroup h now (n + 1) q
      (r.1, e :: r.2)

/-- The registers of a child warp: payload value j of lane L in register j (R300). -/
def payloadRegs (es : List Kindle) (n : Nat) : AMap Lanes :=
  (List.range n).map fun j => (j, Lanes.of fun l => match es[l]? with | some e => e.pay.getD j 0 | none => 0)

/-- Form a child warp from a group (R297, R300). -/
def State.formChild (s : State) (core : Nat) (h : Kindle) : State :=
  match s.launch? h.launch with
  | none => s
  | some l =>
    let c := s.core core
    let q := takeGroup h s.clock 32 c.kindling
    let c := (c.letIn h.launch)
    let serial := AMap.get 0 c.childSerial h.launch
    let c := ({ c with kindling := q.2, childSerial := c.childSerial.set h.launch (serial + 1),
                       hold := c.hold.filter fun x => !x.isFor h, formedAt := some s.clock }
              : Core).refillQueue s.clock
    let a := (s.setCore core c).takeArea h.launch (dieOf core)
    let k := a.2.pickOf (a.2.core core).freeSlots
    let mask : LaneMask := BitVec.ofNat 32 (2 ^ q.1.length - 1)
    let w := { Warp.fresh l .child h.launch h.entry mask h.budget a.1 s.clock with
                 wid := BitVec.ofNat 64 (2 ^ 63 + 2 ^ 40 * coreId core + serial)
                 blockWarps := 1
                 vregs := payloadRegs q.1 h.n
                 joins := (List.range q.1.length).filterMap fun i => q.1[i]?.map fun e => (i, e.join)
                 epoch := h.epoch }
    (k.2.setWarpAt core k.1 w).acquireAt core 4

/-- The evicted warp of a core that returns now (R299): its counter has read 0, and it may take a slot and its registers.
DESIGN CHOICE (log 110): among several, the one that has been resident longest. -/
def State.returning (s : State) (core : Nat) : Option (Nat × Warp) :=
  match (s.core core).warps.filter fun x =>
    x.2.status == .evicted && x.2.park.isNone && s.mayTake core x.2.kind 1 x.2.budget with
  | [] => none
  | x :: xs => some (xs.foldl (fun b y => if y.2.since < b.2.since then y else b) x)

/-- Whether an evicted warp of a core can return now (R299). -/
def State.canReturn (s : State) (core : Nat) : Bool := (s.returning core).isSome

/-- Whether warps that come before a block can take room on a core now: a returning warp (R299) or a child warp that
free resources serve (R27). -/
def State.othersFirst (s : State) (core : Nat) : Bool :=
  s.canReturn core || (s.formable core).any fun e => s.childRoom core e

/-- CHILD_WARP_FORM (R296, R298): the oldest formable group, with what spilling and eviction give it; else the next one
that free resources serve; one warp in a cycle. A returning warp comes first (R299). -/
def State.form (s : State) (core : Nat) : State :=
  match s.formable core with
  | [] => s
  | h :: hs =>
    if s.canReturn core || (s.core core).formedAt == some s.clock then s else
    let s := s.makeRoom core h
    let pick := if s.childRoom core h then some h else hs.find? fun e => s.childRoom core e
    match pick with
    | some e =>
      let s := s.formChild core e
      s.setCore core { s.core core with deadlockSince := none }
    | none => s

/-- CHILD_WARP_FORM (R296). -/
def execChildWarpForm (core : Nat) (s : State) : Host.Outcome State Fault Refusal := .next (s.form core)

/-- WARP_RETURN (R299): an evicted warp whose counter has read 0 takes a slot and its registers. DESIGN CHOICE (log 110):
which of several, see State.returning. -/
def State.returnWarp (s : State) (core : Nat) : State :=
  match s.returning core with
  | none => s
  | some b =>
    let k := s.pickOf (s.core core).freeSlots
    let s := k.2.setCore core ((k.2.core core).moveWarp b.1 k.1 { b.2 with status := .live })
    s.refillAt core k.1

/-- WARP_RETURN (R299). -/
def execWarpReturn (core : Nat) (s : State) : Host.Outcome State Fault Refusal := .next (s.returnWarp core)

/-- Whether a core is deadlocked on spawn at this moment (R404): its oldest formable group, which R298 gives nothing, nor free
resources to a later one, while every resident warp is parked or has stalled. -/
def State.spawnStuck (s : State) (core : Nat) : Option Kindle :=
  match s.formable core with
  | [] => none
  | h :: hs =>
    let t := s.makeRoom core h
    let idle := (s.core core).warps.all fun x =>
      48 ≤ x.1 || x.2.status != .live || x.2.park.isSome || s.stalled.contains (core, x.1)
    if !t.childRoom core h && !(hs.any fun e => s.childRoom core e) && decide ((t.core core).warps = (s.core core).warps) && idle then some h
    else none

/-- SPAWN_DEADLOCK (R404, R443): stops the launch once the core has stayed deadlocked for 1 ms. -/
def execSpawnDeadlock (core : Nat) (s : State) : Host.Outcome State Fault Refusal :=
  let c := s.core core
  match s.spawnStuck core, c.deadlockSince with
  | some _, none => .next (s.setCore core { c with deadlockSince := some s.time })
  | some h, some t =>
    if s.time < t + 1000000 then .next s
    else .next ((s.setCore core { c with deadlockSince := none }).recordTrap h.launch
      (stopRec (coreId core) gSPAWN 0 h.entry.toNat (bits h.entry.toNat 51 32 + 2 ^ 20 * 4)))
  | none, _ => .next (s.setCore core { c with deadlockSince := none })

end Sys2Proof.Machine
end

