-- ==== Sys2Proof/Machine/Task.lean ====
section
/-! DEFINITION. The Hearth's mailbox and the dependence table: MBRECV, MBFWD, BLKGO, TSUBMIT, TDONE and the arrival of a
packet (R206, R207, R308 to R315, R388, R406). -/
namespace Sys2Proof.Machine

/-! ## Mailboxes -/

/-- Places of a mailbox that packets of a sender take (R309): 0 the die's walker, 1 its dependence unit, 2 remote senders. -/
def Die.placesOf (d : Die) (sender : Nat) : Nat := ((d.mailbox ++ d.incoming).filter fun m => m.sender == sender).length

/-- Whether one of the 192 shared places is free: those of a walker or a unit count beyond its own 32 (R309). -/
def Die.sharedFree (d : Die) : Bool := (d.placesOf 0 - 32) + (d.placesOf 1 - 32) + d.placesOf 2 < 192

/-- Whether a sender can reserve a place in a die's mailbox (R309): one of its own 32, or a shared one, which goes to
requests in their order. -/
def Die.hasPlace (d : Die) (sender : Nat) (req : PlaceReq) : Bool :=
  (sender < 2 && d.placesOf sender < 32) || (d.sharedFree && match d.placeQueue with | [] => true | r :: _ => r == req)

/-- A sender without a place waits in the order of request (R309). -/
def State.askPlace (s : State) (die : Nat) (req : PlaceReq) : State :=
  let d := s.die die
  if d.placeQueue.contains req then s else s.setDie die { d with placeQueue := d.placeQueue ++ [req] }

/-- A request for a place is withdrawn. -/
def State.dropPlace (s : State) (die : Nat) (req : PlaceReq) : State :=
  let d := s.die die
  if d.placeQueue.contains req then s.setDie die { d with placeQueue := d.placeQueue.erase req } else s

/-- The die whose Hearth stalls until a packet that it forwards has left in a Flue slot (R207): none when it crosses no
link direction. -/
def PlaceReq.stalls : PlaceReq → List Nat → Option Nat
  | .hearth d _, _ :: _ => some d
  | _, _ => none

/-- Send a packet from a die to another's mailbox, its place reserved: it crosses the Flue first (R309, R321). -/
def State.sendMail (s : State) (src die launch sender : Nat) (req : PlaceReq) (p : Packet) : State :=
  let s := s.dropPlace die req
  let d := s.die die
  let hops := s.path src die
  s.setDie die { d with incoming := d.incoming ++ [⟨launch, sender, p, hops, s.clock, req.stalls hops⟩] }

/-- Whether a die's Hearth stalls in an MBFWD whose packet has not left yet (R207, log 125). -/
def State.forwarding (s : State) (die : Nat) : Bool := s.dies.any fun d => d.2.incoming.any fun m => m.fwd == some die

/-- The Hearth's core and slot on a die (R26). -/
def hearthOf (die : Nat) : Nat × Nat := (192 * die, 48)

/-- MAILBOX_PACKET_ARRIVAL (R309): the oldest packet that has crossed the Flue arrives, and a Hearth parked in MBRECV
issues it again. -/
def execMailboxPacketArrival (die : Nat) (s : State) : Host.Outcome State Fault Refusal :=
  let d := s.die die
  match d.incoming.find? fun m => m.hops.isEmpty with
  | none => .next s
  | some m =>
    let s := s.setDie die { d with incoming := d.incoming.erase m, mailbox := d.mailbox ++ [m] }
    let h := hearthOf die
    let w := s.warpAt h.1 h.2
    .next (if w.park = some .mbrecv then s.setWarpAt h.1 h.2 { w with park := none } else s)

/-! ## The dependence table -/

/-- Entries that a die's dependence unit holds (R314); the Damper has saved those of a saved launch (R332). -/
def State.unitLoad (s : State) (die : Nat) : Nat :=
  s.launches.foldl (fun n x => if x.2.phase = .saved then n else n + (x.2.tasks.filter fun t => t.die == die).length) 0

/-- Fields of a task record (R312). -/
def recTctl (r : List Byte) : Nat := fieldN r 8 8
def recRanges (r : List Byte) : List Nat := ((List.range 4).map fun i => fieldN r (32 + 8 * i) 8).filter fun x => bits x 63 62 != 0
/-- Start, log₂ size and mode of a range word (R312). -/
def rangeStart (x : Nat) : Nat := 256 * bits x 43 0
def rangeS (x : Nat) : Nat := bits x 61 56
def rangeMode (x : Nat) : Nat := bits x 63 62

/-- Whether a task record's content is TASK 1 (R388). -/
def badRecord (r : List Byte) : Bool :=
  let all := (List.range 4).map fun i => fieldN r (32 + 8 * i) 8
  bits (recTctl r) 63 56 != 0 || bits (recTctl r) 52 39 != 0 || fieldN r 16 8 % 4 != 0 ||
    all.any (fun x => bits x 55 44 != 0) ||
    (recRanges r).any fun x => rangeS x < 8 || 40 < rangeS x || rangeStart x % 2 ^ rangeS x != 0

/-- Whether two ranges overlap and one of the two is written (R312, R313). -/
def rangesClash (x y : Nat) : Bool :=
  let k := max (rangeS x) (rangeS y)
  rangeStart x >>> k == rangeStart y >>> k && (bit (rangeMode x) 1 || bit (rangeMode y) 1)

/-- The next handle of a launch: 0 is passed over (R313). -/
def Launch.handle (l : Launch) : BitVec 32 := if l.nextHandle = 0 then 1 else l.nextHandle

/-- The die and group that hold a task, from its first range's physical address (R314). -/
def Launch.holder (l : Launch) (pas : List Nat) : Nat × Nat :=
  match pas with | pa :: _ => (paDie pa, paGroup pa) | [] => (l.dies.headD 0, 0)

/-- The dispatch packet of a task (R310, R314). -/
def Launch.taskPacket (l : Launch) (r : List Byte) (h : BitVec 32) (group : Nat) : Packet :=
  let t := recTctl r
  let entry := fieldN r 16 8
  [BitVec.ofNat 64 (fieldN r 0 8),
   BitVec.ofNat 64 (2 ^ 60 + 2 ^ 56 * group + 2 ^ 53 * bits t 55 53 + 2 ^ 46 * l.hwSlot + bits t 38 0),
   if entry = 0 then l.hdr.entry else BitVec.ofNat 64 entry,
   BitVec.ofNat 64 (fieldN r 24 8), BitVec.setWidth 64 h, 0, 0, 0]

/-- Enter a task under the next handle (R313, R314): it depends on each unfinished task whose ranges clash with its own,
and is ready when there is none; stamp is its place among ready tasks. -/
def Launch.enterTask (l : Launch) (r : List Byte) (pas : List Nat) (stamp : Nat) : Launch :=
  let h := l.handle
  let own := recRanges r
  let preds := (l.tasks.filter fun t => t.ranges.any fun x => own.any fun y => rangesClash x.toNat y).map fun t => t.handle
  let at' := l.holder pas
  let t : Task := ⟨h, l.taskPacket r h at'.2, preds, own.map (BitVec.ofNat 64), at'.1, stamp⟩
  { l with tasks := l.tasks ++ [t], nextHandle := h + 1, ready := if preds.isEmpty then l.ready ++ [h] else l.ready }

/-- Enter a task of a launch. -/
def State.enterTask (s : State) (n : Nat) (l : Launch) (r : List Byte) (pas : List Nat) : State :=
  { s.setLaunch n (l.enterTask r pas s.nextStamp) with nextStamp := s.nextStamp + 1 }

/-- The ready tasks that a die's dependence unit may deliver: those of launches that the die has started (R314, R329). -/
def State.readyOn (s : State) (die : Nat) : List (Nat × Task) :=
  s.launches.flatMap fun x =>
    if x.2.phase = .running && x.2.started.contains die then
      (x.2.ready.filterMap fun h => x.2.tasks.find? fun t => t.handle == h && t.die == die).map fun t => (x.1, t)
    else []

/-- The ready task that a die's dependence unit delivers next (R314): the highest priority, and then the first that became
ready. -/
def State.nextReady (s : State) (die : Nat) : Option (Nat × Task) :=
  (s.readyOn die).foldl (fun (b : Option (Nat × Task)) t =>
    match b with
    | none => some t
    | some x =>
      if packetPri x.2.packet < packetPri t.2.packet ||
          (packetPri x.2.packet == packetPri t.2.packet && t.2.stamp < x.2.stamp) then some t else some x) none

/-- Deliver ready tasks of a die while its mailbox has places; fuel bounds them. Without a place the unit asks for one. -/
def State.deliverReady (s : State) (die : Nat) : Nat → State
  | 0 => s.dropPlace die .unit
  | fuel + 1 =>
    match s.nextReady die with
    | none => s.dropPlace die .unit
    | some (n, t) =>
      match (s.die die).hasPlace 1 .unit, s.launch? n with
      | true, some l =>
        let s := s.setLaunch n { l with ready := l.ready.erase t.handle }
        State.deliverReady (s.sendMail die die n 1 .unit t.packet) die fuel
      | _, _ => s.askPlace die .unit

/-- Deliver what a die has ready. -/
def State.deliverOn (s : State) (die : Nat) : State := s.deliverReady die (s.readyOn die).length

/-- Deliver what every die has ready. -/
def State.deliverAll (s : State) : State := (List.range 8).foldl State.deliverOn s

/-- A TASK trap (R357). -/
def taskTrap (reason a : Nat) : Trap := trapOf true gTASK reason (a % 2 ^ 32) (bits a 51 32)

/-- Translate range starts into region 00, without a check of rights; none when one does not (R314, R406). -/
def State.rangePas (s : State) (core : Nat) (l : Launch) : List Nat → Option (List Nat) × State
  | [] => (some [], s)
  | x :: xs =>
    match AMap.find? s.aspaces l.asid with
    | none => (none, s)
    | some sp =>
      let r := s.lookup core l.asid l.gen sp.root (rangeStart x)
      let u := State.rangePas r.2 core l xs
      match r.1, u.1 with
      | .leaf p, some ps =>
        let pa := p.pa + rangeStart x % p.size
        (if regionOf pa = 0 then some (pa :: ps) else none, u.2)
      | _, _ => (none, u.2)

/-- Why a task cannot be entered after submission checks (R406): the lowest reason. -/
def Launch.taskReason (l : Launch) (pas : Option (List Nat)) : Option Nat :=
  lowest (why 5 (l.tasks.any fun t => t.handle == l.handle) ++
    (match pas with | some ps => why 6 (!l.dies.contains (l.holder ps).1) | none => [7]))

/-- TSUBMIT (R206, R312 to R314, R388, R406). Its record lies in region 00: R219 lists no read of the task unit elsewhere. -/
def tsubmit (u : UniW) (s : State) : Except Stop State :=
  let i : Instr := .tsubmit u
  let w := s.w
  let a := w.k u.ka.toNat
  match kCheck w i [u.ka.toNat] (some u.kd.toNat) with
  | .error e => .error e
  | .ok () =>
  match s.resolveOne (recordReq 64 false) a with
  | .error e => .error e
  | .ok (p, t) =>
  let r := match p with | .mem pa => t.readSide t.curCore pa 64 | .spad _ _ => ([], t)
  if badRecord r.1 then .error (.trap (taskTrap 1 a.toNat))
  else match s.curLaunch? with
  | none => .error (.trap (taskTrap 6 a.toNat))
  | some l =>
  let q := r.2.rangePas s.curCore l (recRanges r.1)
  match l.taskReason q.1 with
  | some n => .error (.trap (taskTrap n a.toNat))
  | none =>
  match kPoisonCheck w [u.ka.toNat] with
  | .error e => .error e
  | .ok () =>
    let pas := q.1.getD []
    if 4096 ≤ q.2.unitLoad (l.holder pas).1 then .error .stall
    else
      let t := (q.2.enterTask w.launch l r.1 pas).deliverOn (l.holder pas).1
      .ok (t.finishW (t.w.setK u.kd.toNat (BitVec.setWidth 64 l.handle)) (t.nextPc i))

/-- TSUBMIT (R206). -/
def execTsubmit (u : UniW) (s : State) : Host.Outcome State Fault Refusal := issue (.tsubmit u) s (tsubmit u)

/-- Successors of a task whose counters fall to 0 when it is finished (R313). -/
def Launch.freed (l : Launch) (h : BitVec 32) : List (BitVec 32) :=
  ((l.tasks.filter fun t => t.handle != h).filter fun t =>
    t.preds.contains h && (t.preds.filter fun x => x != h).isEmpty).map fun t => t.handle

/-- A finished task leaves the table; its successors' counters fall, and those at 0 are ready, from a stamp on (R313). -/
def Launch.finishTask (l : Launch) (h : BitVec 32) (stamp : Nat) : Launch :=
  { l with
    tasks := (l.tasks.filter fun t => t.handle != h).map fun t =>
      { t with preds := t.preds.filter fun x => x != h
               stamp := if (l.freed h).contains t.handle then stamp + (l.freed h).idxOf t.handle else t.stamp }
    ready := l.ready ++ l.freed h }

/-- Finish a task of a launch. -/
def State.finishTask (s : State) (n : Nat) (l : Launch) (h : BitVec 32) : State :=
  { s.setLaunch n (l.finishTask h s.nextStamp) with nextStamp := s.nextStamp + (l.freed h).length }

/-- TDONE (R206, R313, R388). -/
def tdone (u : UniW) (s : State) : Except Stop State :=
  let i : Instr := .tdone u
  let w := s.w
  match kCheck w i [u.ka.toNat] none with
  | .error e => .error e
  | .ok () =>
  let h : BitVec 32 := BitVec.setWidth 32 (w.k u.ka.toNat)
  match s.curLaunch? with
  | none => .error (.trap (trapOf true gTASK 2 h.toNat 0))
  | some l =>
  if !(l.tasks.any fun t => t.handle == h) then .error (.trap (trapOf true gTASK 2 h.toNat 0))
  else match kPoisonCheck w [u.ka.toNat] with
  | .error e => .error e
  | .ok () =>
    let t := (s.finishTask w.launch l h).deliverAll
    .ok (t.finish (t.nextPc i))

/-- TDONE (R206). -/
def execTdone (u : UniW) (s : State) : Host.Outcome State Fault Refusal := issue (.tdone u) s (tdone u)

/-! ## The Hearth's commands -/

/-- The 8 registers from r upward (R207). -/
def packetRegs (r : Nat) : List Nat := (List.range 8).map (r + ·)

/-- The running launch that a dispatch packet names on a die (R310): the queue slot and the kind, and for a tensor
launch the header's ENTRY (log 22). -/
def State.packetLaunch (s : State) (die : Nat) (p : Packet) : Option (Nat × Launch) :=
  let d := (p.getD 1 0).toNat
  (s.launches.filter fun x =>
    x.2.hwSlot == bits d 52 46 && x.2.hdr.kind == bits d 63 60 && x.2.dies.contains die && x.2.phase == .running &&
      (x.2.hdr.kind != 0 || x.2.hdr.entry == p.getD 2 0)).head?

/-- MBRECV (R207): parks while the mailbox is empty and issues again when a packet has arrived. The context keeps which
launch the packet serves, for a trap of its own (log 56). -/
def mbrecv (u : UniW) (s : State) : Except Stop State :=
  let i : Instr := .mbrecv u
  let w := s.w
  let die := dieOf s.curCore
  let rs := packetRegs u.kd.toNat
  if rs.any (w.kIsEmpty ·) then .error .stall
  else match (s.die die).mailbox with
  | [] => .ok (s.setW { w with park := some .mbrecv })
  | m :: ms =>
    let t := (s.setDie die { s.die die with mailbox := ms }).acquireAt s.curCore 3
    let w := ((List.range 8).zip rs).foldl (fun (w : Warp) x => w.setK x.2 (m.words.getD x.1 0)) t.w
    .ok ((t.finishW { w with launch := m.launch } (t.nextPc i)).deliverOn die)

/-- MBRECV (R207). -/
def execMbrecv (u : UniW) (s : State) : Host.Outcome State Fault Refusal := issue (.mbrecv u) s (mbrecv u)

/-- A tensor packet that a Hearth forwards takes its pending block with it: P of the die falls, P of the other rises (R255,
R258). -/
def State.movePending (s : State) (n : Nat) (l : Launch) (src dst : Nat) : State :=
  if l.hdr.kind ≠ 0 || src = dst then s
  else
    let p := l.pend.set src (AMap.get 0 l.pend src - 1)
    s.setLaunch n { l with pend := p.set dst (AMap.get 0 p dst + 1) }

/-- MBFWD (R207, R309, R388): stalls while the target mailbox has no place, for which it asks in turn. The packet then sets
out, and the context issues no further instruction until it has left in a slot (State.forwarding, log 125). -/
def mbfwd (u : UniW) (s : State) : Except Stop State :=
  let i : Instr := .mbfwd u
  let w := s.w
  let ks := packetRegs u.kd.toNat ++ uSrcs u false true
  match kCheck w i ks none with
  | .error e => .error e
  | .ok () =>
  let d := (uB w u).toNat
  let p : Packet := (packetRegs u.kd.toNat).map w.k
  match s.packetLaunch (dieOf s.curCore) p with
  | none => .error (.trap (trapOf true gTASK 3 0 0))
  | some x =>
  if 8 ≤ d || !x.2.dies.contains d then .error (.trap (trapOf true gTASK 3 0 0))
  else match kPoisonCheck w ks with
  | .error e => .error e
  | .ok () =>
    let die := dieOf s.curCore
    if !(s.die d).hasPlace 2 (.hearth die x.1) then .ok (s.askPlace d (.hearth die x.1)).noteStall
    else
      let t := (s.sendMail die d x.1 2 (.hearth die x.1) p).movePending x.1 x.2 die d
      .ok (t.finish (t.nextPc i))

/-- MBFWD (R207). -/
def execMbfwd (u : UniW) (s : State) : Host.Outcome State Fault Refusal := issue (.mbfwd u) s (mbfwd u)

/-- Start the block that a dispatch packet of a launch describes on a core, or none when the core does not take it now
(R25, R27, R299, R311): ARG goes to k1 to k5, and a tensor block knows its record (R257). -/
def State.startFor (s : State) (core n : Nat) (l : Launch) (p : Packet) : Option State :=
  if s.othersFirst core || !s.admits core n l then none
  else match (s.core core).freeRun l.hdr.spad with
    | none => none
    | some base =>
      let tile := if l.hdr.kind = 0 then some (p.getD 4 0).toNat else none
      some (s.startBlock core n l (p.getD 0 0) (BitVec.ofNat 64 (bits (p.getD 1 0).toNat 38 0)) (p.getD 2 0)
        ((p.drop 3).take 5) base tile)

/-- Start the block that BLKGO's packet describes (R310). -/
def State.startPacket (s : State) (core : Nat) (p : Packet) : Option State :=
  match s.packetLaunch (dieOf core) p with
  | none => none
  | some (n, l) => s.startFor core n l p

/-- BLKGO (R207, R388). -/
def blkgo (u : UniW) (s : State) : Except Stop State :=
  let i : Instr := .blkgo u
  let w := s.w
  let ks := packetRegs u.ka.toNat ++ [u.kb.toNat]
  match kCheck w i ks (some u.kd.toNat) with
  | .error e => .error e
  | .ok () =>
  let c := (w.k u.kb.toNat).toNat
  let p : Packet := (packetRegs u.ka.toNat).map w.k
  if 192 ≤ c || bits (p.getD 1 0).toNat 45 39 ≠ 0 then .error (.trap (trapOf true gTASK 4 0 0))
  else match kPoisonCheck w ks with
  | .error e => .error e
  | .ok () =>
    let r := s.startPacket (192 * dieOf s.curCore + c) p
    let t := r.getD s
    .ok (t.finishW (t.w.setK u.kd.toNat (if r.isSome then 1 else 0)) (t.nextPc i))

/-- BLKGO (R207). -/
def execBlkgo (u : UniW) (s : State) : Host.Outcome State Fault Refusal := issue (.blkgo u) s (blkgo u)

/-! ## The dispatcher (R308, R311) -/

/-- Packets of 64 B that the Hearth area of 1 MiB holds (R308). -/
def hearthPlaces : Nat := 16384

/-- Whether a launch holds its dies, links and channels now. -/
def Launch.holds (l : Launch) : Bool := l.phase != .saved

/-- Packets that a launch keeps free in a die's Hearth area (R329, log 107): 128, less those of its that the area holds. -/
def State.keeps (s : State) (die n : Nat) : Nat := 128 - ((s.die die).pending.filter fun h => h.mail.launch == n).length

/-- Places of a die's Hearth area that are taken, or kept by the launches that hold the die other than one. -/
def State.areaUsed (s : State) (die n : Nat) : Nat :=
  (s.launches.filter fun x => x.1 != n && x.2.holds && x.2.dies.contains die).foldl (fun k x => k + s.keeps die x.1)
    (s.die die).pending.length

/-- Whether a die's Hearth area takes one packet more of a launch: what other launches keep stays free for them (R308,
R329). -/
def State.mayHold (s : State) (die n : Nat) : Bool := s.areaUsed die n + 1 ≤ hearthPlaces

/-- What MBRECV does for the dispatcher: the oldest packet of the mailbox goes to the Hearth area (R207, R308). -/
def State.receive (s : State) (die : Nat) (m : Mail) (ms : List Mail) : State :=
  let d := s.die die
  ((s.setDie die { d with mailbox := ms, pending := d.pending ++ [⟨m, false⟩] }).acquireAt (192 * die) 3).deliverOn die

/-- The packets that no earlier one of their priority and group holds back (R311), oldest first. -/
def frontPackets : List (Nat × Nat) → List HeldPacket → List HeldPacket
  | _, [] => []
  | seen, h :: hs =>
    let key := (packetPri h.mail.words, packetGroup h.mail.words)
    if seen.contains key then frontPackets seen hs else h :: frontPackets (key :: seen) hs

/-- The packet that the Hearth tries next (R311): the highest priority, then the oldest, among those that nothing holds
back and that a retirement has given a new chance. -/
def State.nextDispatch (s : State) (die : Nat) : Option HeldPacket :=
  let ok := fun (h : HeldPacket) => !h.tried && match s.launch? h.mail.launch with | some l => l.phase == .running | none => true
  ((frontPackets [] (s.die die).pending).filter ok).foldl (fun (b : Option HeldPacket) h =>
    match b with
    | none => some h
    | some x => if packetPri x.mail.words < packetPri h.mail.words then some h else some x) none

/-- Warps in the slots of a core. -/
def Core.residents (c : Core) : Nat := (c.warps.filter fun x => x.1 < 48 && x.2.takesSlot).length

/-- The core for a packet (R311): among the 12 of its group that take the block now, the one with the fewest resident
warps, and on a tie the lowest number. -/
def State.coreFor (s : State) (die n : Nat) (l : Launch) (p : Packet) : Option Nat :=
  let cs := ((List.range 12).map fun j => 192 * die + 12 * packetGroup p + j).filter fun c => (s.startFor c n l p).isSome
  match cs with
  | [] => none
  | c :: cs => some (cs.foldl (fun b c => if (s.core c).residents < (s.core b).residents then c else b) c)

/-- A packet leaves the Hearth area. -/
def State.dropPacket (s : State) (die : Nat) (h : HeldPacket) : State :=
  let d := s.die die
  s.setDie die { d with pending := d.pending.erase h }

/-- A packet that no core of its group admits waits until a warp of the group retires (R311). -/
def State.holdBack (s : State) (die : Nat) (h : HeldPacket) : State :=
  let d := s.die die
  s.setDie die { d with pending := d.pending.map fun x => if x = h then { x with tried := true } else x }

/-- The packet that the dispatcher takes from the mailbox next, when the Hearth area has room for it, and those behind it. -/
def State.receivable (s : State) (die : Nat) : Option (Mail × List Mail) :=
  match (s.die die).mailbox with
  | m :: ms => if s.mayHold die m.launch then some (m, ms) else none
  | [] => none

/-- One turn of a die's dispatcher (R308, R311): it takes what the mailbox holds to the Hearth area, and else starts one
packet, or finds that no core of its group admits it. -/
def State.dispatch (s : State) (die : Nat) : State :=
  match s.receivable die with
  | some (m, ms) => s.receive die m ms
  | none =>
    match s.nextDispatch die with
    | none => s
    | some h =>
      match s.launch? h.mail.launch with
      | none => s.dropPacket die h
      | some l =>
        match s.coreFor die h.mail.launch l h.mail.words with
        | none => s.holdBack die h
        | some c => ((s.startFor c h.mail.launch l h.mail.words).getD s).dropPacket die h

/-- Whether a die's dispatcher has something to do. -/
def State.dispatchable (s : State) (die : Nat) : Bool :=
  (s.receivable die).isSome || (s.nextDispatch die).isSome

end Sys2Proof.Machine
end

