-- ==== Sys2Proof/Machine/OrderedAdd.lean ====
section
/-! DEFINITION. Ordered-add epochs (R148, R182, R183, R241, R398, R399): when an epoch closes, and how the queue applies
it. -/
namespace Sys2Proof.Machine

/-- Whether a walk has ended (R254, R410): no record is in hand, and the walker has learned of a stop or has nothing left. -/
def Walker.ended (w : Walker) : Bool :=
  w.out.isNone && w.listing.isNone && w.waiting.isNone &&
    (w.stopKnown || (w.ready && w.next == w.stop && w.retry.isEmpty && w.pass.isEmpty))

/-- Whether a launch's work sources will deliver no further block (R182): its walks have ended, its dies have started,
no task is unfinished, and every packet has become a block. -/
def State.sourcesDone (s : State) (n : Nat) (l : Launch) : Bool :=
  let mail := s.dies.any fun d => (d.2.mailbox ++ d.2.incoming ++ d.2.pending.map (·.mail)).any fun m => m.launch == n
  let blocks := s.cores.foldl (fun k c => k + (c.2.blocks.filter fun b => b.2.launch == n && b.2.tile.isSome).length) 0
  l.phase == .running && l.dies.all (l.started.contains ·) && l.tasks.isEmpty && !mail &&
    (l.walkers.all fun x => x.2.ended) &&
    l.pend.foldl (fun k x => k + x.2) 0 == blocks + l.dones.length

/-- Whether epoch e of a launch is closed (R182). -/
def State.epochClosed (s : State) (n : Nat) (l : Launch) (e : Nat) : Bool :=
  let entries := (s.travel.map (·.entry)) ++ s.cores.flatMap fun c => c.2.kindling ++ c.2.overflow
  s.cores.all (fun c => c.2.warps.all fun x =>
    x.2.launch != n || x.2.kind == .hearth || x.2.status == .free || x.2.status == .retired || e < x.2.epoch) &&
  entries.all (fun k => k.launch != n || e < k.epoch) && s.sourcesDone n l

/-- Whether one contribution comes before another (R148, R182): epoch, then key. -/
def Contrib.before (a b : Contrib) : Bool :=
  let f := fun (c : Contrib) => [c.epoch, c.wid.toNat, c.idx, c.lane, c.order]
  match ((f a).zip (f b)).find? fun x => x.1 != x.2 with
  | some x => x.1 < x.2
  | none => false

/-- Insert a contribution behind those that do not come after it: equal keys keep the order of recording. -/
def insertContrib (c : Contrib) : List Contrib → List Contrib
  | [] => [c]
  | d :: ds => if c.before d then c :: d :: ds else d :: insertContrib c ds

/-- Contributions in the order of application. -/
def sortContribs (l : List Contrib) : List Contrib := l.foldl (fun acc c => insertContrib c acc) []

/-- Apply one contribution (R148, R227): without flushing, atomically at the memory side. A location in a poisoned
granule drops it (R398), and so does one on a lost die (log 130). -/
def State.applyAdd (s : State) (c : Contrib) : State :=
  let n := tyWidth c.ty / 8
  if s.poisoned c.pa n || s.onLostDie c.pa then s
  else (s.writePhys c.pa (leBytes n (memAdd c.ty (s.mem.readN c.pa n) c.val.toNat))).notifyZero c.pa

/-- The MEMERR events for locations that an epoch met in poisoned granules (R395, R398): one for each granule. -/
def State.addErrors (s : State) (cs : List Contrib) : State :=
  let gs := (cs.filter fun c => s.poisoned c.pa (tyWidth c.ty / 8)).map fun c => c.pa / 64
  gs.eraseDups.foldl (fun s g => s.postEvent 0 (memErrBytes 2 0 s.time (64 * g))) s

/-- Apply every contribution of a launch up to an epoch (R182, R241). -/
def State.applyEpoch (s : State) (n e : Nat) : State :=
  match s.launch? n with
  | none => s
  | some l =>
    let cs := l.contribs.filter fun c => c.epoch ≤ e
    let s := s.addErrors cs
    let s := (sortContribs cs).foldl State.applyAdd s
    s.setLaunch n { l with contribs := l.contribs.filter (fun c => e < c.epoch), epochsDone := max l.epochsDone (e + 1) }

/-- Wake the warps of a launch that OFLUSH.wait has parked on an applied epoch, with AcquireAt(.m) (R183). -/
def State.wakeFlush (s : State) (n e : Nat) : State :=
  let ready := fun (w : Warp) => w.launch == n && match w.park with | some (.oflush x) => x ≤ e | _ => false
  { s with cores := s.cores.map fun c =>
      if c.2.warps.any fun x => ready x.2 then
        (c.1, { c.2 with l1 := [], warps := c.2.warps.map fun x => if ready x.2 then (x.1, x.2.wake) else x })
      else c }

/-- ORDERED_ADD_EPOCH_APPLY (R241): the launch's next epoch, once it is closed. -/
def execOrderedAddEpochApply (launch : Nat) (s : State) : Host.Outcome State Fault Refusal :=
  match s.launch? launch with
  | none => .next s
  | some l =>
    if s.epochClosed launch l l.epochsDone then .next ((s.applyEpoch launch l.epochsDone).wakeFlush launch l.epochsDone)
    else .next s

end Sys2Proof.Machine
end

