-- ==== Sys2Proof/Machine/Walker.lean ====
section
/-! DEFINITION. The tile walkers and the marks on placement records (R247 to R259, R396, R407 to R419, R444). -/
namespace Sys2Proof.Machine

/-! ## Accesses of the walker and of the Stoker for a launch -/

/-- Why such an access does not happen (R444, R445): it waits on an address with V = 0, or the launch stops. -/
inductive LaunchErr where
  | wait (va : Nat) (wr : Bool)
  | stop (r : TrapRec)
  deriving DecidableEq, Repr

/-- The active Stoker's die (R15). -/
def State.stokerDie (s : State) : Nat := if s.stokerB then 7 else 0

/-- The agent number of a walker or of a die as a whole in a record (R443). -/
def dieAgent (die : Nat) : Nat := 256 * die + 255

/-- A memory-form record without a raising instruction (R357, R443). -/
def memStop (agent group reason access va : Nat) : TrapRec :=
  stopRec agent group 1 (va % 2 ^ 32) (memDetail2 reason (if reason = 8 && group = gPERM then 6 else access) 0 va)

/-- What a failed access of an agent comes to. -/
def launchErr (agent access : Nat) : EngErr → LaunchErr
  | .absent va => .wait va (access = 1 || access = 2)
  | .denied va reason => .stop (memStop agent gPERM reason access va)
  | .lost => .stop (stopRec agent gLINK 4 0 0)
  | .stale _ _ _ => .stop (memStop agent gGEN 0 access 0)

/-- The physical address of an aligned item of a launch: access 1 write, 2 read-modify-write, 4 record read. -/
def State.itemPa (s : State) (die n va access : Nat) : Except LaunchErr Nat × State :=
  let r := s.engAddr (192 * die) n va (access == 1) false
  match r.1 with
  | .error e => (.error (launchErr (dieAgent die) access e), r.2)
  | .ok pa =>
    if access ≠ 2 then (.ok pa, r.2)
    else
      let u := r.2.engAddr (192 * die) n va true false
      match u.1 with
      | .error e => (.error (launchErr (dieAgent die) access e), u.2)
      | .ok _ => (.ok pa, u.2)

/-- The address at which a range of pieces first holds poison. -/
def State.firstPoison (s : State) (va : Nat) : List (Nat × Nat) → Nat
  | [] => va
  | (pa, n) :: ps =>
    match (granules pa n).find? (s.memPoison.contains ·) with
    | some g => va + (64 * g - pa)
    | none => State.firstPoison s (va + n) ps

/-- Read the pieces of a launch's structure; poison stops the launch (R444). The record names the first poisoned address of
the range, DEDUCED (log 36). -/
def State.readChecked (s : State) (die va access : Nat) (ps : List (Nat × Nat)) : Except LaunchErr (List Byte) × State :=
  let b := s.readPieces ps
  if b.2.1 then (.error (.stop (memStop (dieAgent die) gHWERR 1 access (s.firstPoison va ps))), s) else (.ok b.1, b.2.2)

/-- Read bytes of a launch's structure (R444). -/
def State.readItem (s : State) (die n va size : Nat) : Except LaunchErr (List Byte) × State :=
  let r := s.engRange (192 * die) n va size false false
  match r.1 with
  | .error e => (.error (launchErr (dieAgent die) 4 e), r.2)
  | .ok ps => r.2.readChecked die va 4 ps

/-- The 8-byte item that an atomic of an agent updates, and its physical address (R357, R444). -/
def State.updateItem (s : State) (die n va : Nat) : Except LaunchErr (Nat × Nat) × State :=
  let c := s.itemPa die n va 2
  match c.1 with
  | .error e => (.error e, c.2)
  | .ok pa =>
    let b := c.2.readChecked die va 2 [(pa, 8)]
    match b.1 with
    | .error e => (.error e, b.2)
    | .ok x => (.ok (pa, leNat x), b.2)

/-- The XFAULT event of an agent without a core: flag [2] set (R362, R444). -/
def State.agentFault (s : State) (die n va : Nat) (wr : Bool) : State :=
  match s.launch? n with
  | none => s
  | some l => s.postEvent l.queue
      (eventBytes 2 (4 + if wr then 1 else 0) l.queue l.num s.time (va + 2 ^ 53 * dieAgent die))

/-! ## The fault list -/

/-- The information word of a fault-list entry (R407). -/
def faultInfo (rank cause sword : Nat) : Nat := 2 ^ 16 * rank + 2 ^ 8 * bits sword 15 8 + 2 ^ 4 * cause + sword % 16

/-- What the listing of a record comes to: the state, how far it got, and why it does not go on. -/
structure Listed where
  state : State
  item : Listing
  err : Option LaunchErr

/-- Write the entry of a listed record, once COUNT has returned its slot, if the list holds it (R407, R408). -/
def State.listEntry (s : State) (die n rank slot : Nat) (l : Launch) (x : Listing) : Listed :=
  let fl := l.hdr.faultlist.toNat
  let h := s.readItem die n (fl + 8) 8
  match h.1 with
  | .error e => ⟨h.2, x, some e⟩
  | .ok b =>
    if leNat b ≤ slot then ⟨h.2, x, none⟩
    else
      let e := h.2.itemPa die n (fl + 64 + 16 * slot) 1
      match e.1 with
      | .error r => ⟨e.2, x, some r⟩
      | .ok pa => ⟨e.2.writePhys pa (leBytes 8 x.t ++ leBytes 8 (faultInfo rank x.cause x.sword)), x, none⟩

/-- List a record in the launch's fault list (R408), at most once in a launch: COUNT rises first and returns the slot, and
then the entry is written. -/
def State.listRecord (s : State) (die n rank : Nat) (x : Listing) : Listed :=
  match s.launch? n with
  | none => ⟨s, x, none⟩
  | some l =>
    let fl := l.hdr.faultlist.toNat
    match x.slot with
    | some k => s.listEntry die n rank k l x
    | none =>
      if l.listed.contains x.t then ⟨s, x, none⟩
      else if fl = 0 then ⟨s.setLaunch n { l with listed := x.t :: l.listed }, x, none⟩
      else
        let h := s.updateItem die n fl
        match h.1 with
        | .error e => ⟨h.2, x, some e⟩
        | .ok (pa, k) =>
          let l := { l with listed := x.t :: l.listed }
          ((h.2.writePhys pa (leBytes 8 (k + 1))).setLaunch n l).listEntry die n rank k l { x with slot := some k }

/-! ## The start of a walk -/

/-- Number of records of a tensor, from its descriptor (R247, R249). -/
def tileCount (d : List Byte) : Nat :=
  (List.range (fieldN d 8 1 % 16)).foldl (fun n i =>
    let tile := fieldN d (120 + 4 * i) 4
    n * ((fieldN d (64 + 4 * i) 4 + tile - 1) / tile)) 1

/-- Where the walker of a rank starts, from the resume cursor (R415). -/
def cursorStart (c : List Byte) (tag dies ntot rank first stop : Nat) : Nat :=
  let w := fieldN c 0 8
  if bit w 35 && w % 2 ^ 32 = tag && bits w 34 32 + 1 = dies && fieldN c 8 8 = ntot then
    min (max (fieldN c (16 + 4 * rank) 4) first) stop
  else first

/-- Read what a walker needs before its first record (R252, R415): the tensor table, the walked tensor's descriptor and
the resume cursor. -/
def State.walkInit (s : State) (die n : Nat) (l : Launch) (w : Walker) : Except LaunchErr State :=
  let t := s.readItem die n (l.hdr.ttab.toNat + 8 * (l.hdr.walk.toNat % 16)) 8
  match t.1 with
  | .error e => .error e
  | .ok tb =>
    let da := leNat tb
    let d := t.2.readItem die n da 512
    match d.1 with
    | .error e => .error e
    | .ok db =>
      let ntot := tileCount db
      let k := l.dies.length
      let first := w.rank * ntot / k
      let stop := (w.rank + 1) * ntot / k
      let done := fun (s : State) (next : Nat) =>
        s.setLaunch n { l with ntot := ntot,
                               walkers := l.walkers.set die { w with ready := true, desc := BitVec.ofNat 64 da, ptab := fieldN db 24 8,
                                                                     first := first, stop := stop, next := next } }
      if l.hdr.resume = 0 then .ok (done d.2 first)
      else
        let c := d.2.readItem die n l.hdr.resume.toNat 64
        match c.1 with
        | .error e => .error e
        | .ok cb => .ok (done c.2 (cursorStart cb l.hdr.tag.toNat k ntot w.rank first stop))

/-! ## One record -/

/-- What a walker does with a record: it claims it (with the packet and its die), passes it over, puts it on the retry list,
or lists it with a cause before the policy takes it (R410), or the retry list for cause 3 (R412). -/
inductive Visit where
  | claim (die : Nat) (p : Packet)
  | pass (met : Bool)
  | defer
  | policy (cause sword : Nat)
  deriving DecidableEq, Repr

/-- WALK.POLICY, RO, T and D (R244). -/
def Header.policy (h : Header) : Nat := bits h.walk.toNat 12 11
def Header.walkRo (h : Header) : Bool := bit h.walk.toNat 10
def Header.walkT (h : Header) : Nat := bits h.walk.toNat 31 16
def Header.walkD (h : Header) : Nat := bits h.walk.toNat 15 13

/-- Mesh distance of two dies (R8). -/
def meshDist (a b : Nat) : Nat :=
  ((a / 4 - b / 4) + (b / 4 - a / 4)) + ((a % 4 - b % 4) + (b % 4 - a % 4))

/-- Pending blocks of a die, P(d) (R255). DESIGN CHOICE (log 142): every walker reads the count as it stands. -/
def Launch.pending (l : Launch) (d : Nat) : Nat := AMap.get 0 l.pend d

/-- The first of a list that no other is better than. -/
def best {α : Type} (better : α → α → Bool) : List α → Option α
  | [] => none
  | x :: xs => some (xs.foldl (fun b y => if better y b then y else b) x)

/-- Whether one list of keys comes before another. -/
def lexLt : List Nat → List Nat → Bool
  | a :: as, b :: bs => a < b || (a == b && lexLt as bs)
  | _, _ => false

/-- The physical address of a copy for placement only, none when it does not reach region 00 (R444). -/
def State.placeCopy (s : State) (core : Nat) (l : Launch) (va : Nat) : Option Nat × State :=
  match AMap.find? s.aspaces l.asid with
  | none => (none, s)
  | some sp =>
    if 2 ^ 52 ≤ va then (none, s)
    else
      let r := s.lookup core l.asid l.gen sp.root va
      match r.1 with
      | .leaf p =>
        let pa := p.pa + va % p.size
        (if regionOf pa = 0 then some pa else none, r.2)
      | _ => (none, r.2)

/-- Placements of several copies: index, virtual and physical address of those that reach region 00. -/
def State.placeCopies (s : State) (core : Nat) (l : Launch) : List (Nat × Nat) → List (Nat × Nat × Nat) × State
  | [] => ([], s)
  | (i, va) :: xs =>
    let r := s.placeCopy core l va
    let u := State.placeCopies r.2 core l xs
    (match r.1 with | some pa => (i, va, pa) :: u.1 | none => u.1, u.2)

/-- The copies that R255 considers: number 0 is the primary, 1 to 3 the replicas. -/
def recordCopies (h : Header) (sword : Nat) (r : List Byte) : List (Nat × Nat) :=
  let n := if h.walkRo && sword % 16 = 2 then min (bits sword 7 4) 3 else 0
  (List.range (n + 1)).map fun i => (i, fieldN r (16 + 8 * i) 8)

/-- The copy chosen (R255): the fewest pending blocks, then the primary, the lowest die, the lowest replica. -/
def Launch.chooseCopy (l : Launch) (cs : List (Nat × Nat × Nat)) : Option (Nat × Nat × Nat) :=
  let key := fun (c : Nat × Nat × Nat) =>
    [l.pending (paDie c.2.2), if c.1 = 0 then 0 else 1, paDie c.2.2, c.1]
  best (fun x y => lexLt (key x) (key y)) cs

/-- The running die of a tile on die d0 (R256, R418). -/
def State.runDie (s : State) (l : Launch) (d0 : Nat) : Nat :=
  let live := l.dies.filter fun d => !s.dieLost d
  if !l.dies.contains d0 then
    (best (fun x y => lexLt [meshDist x d0, x] [meshDist y d0, y]) live).getD d0
  else if l.hdr.walkD = 0 || l.pending d0 ≤ l.hdr.walkT then d0
  else
    (best (fun x y => lexLt [l.pending x, meshDist x d0, x] [l.pending y, meshDist y d0, y])
      (live.filter fun d => meshDist d d0 ≤ l.hdr.walkD)).getD d0

/-- The dispatch packet of a claimed tile (R257, R310). -/
def Launch.tilePacket (l : Launch) (w : Walker) (t : Nat) (sword : Nat) (r : List Byte) (va pa : Nat) : Packet :=
  let group := paGroup pa
  [BitVec.ofNat 64 (fieldN r 0 8),
   BitVec.ofNat 64 (2 ^ 56 * group + 2 ^ 53 * l.prio + 2 ^ 46 * l.hwSlot + bits l.hdr.widfmt.toNat 38 0),
   l.hdr.entry, BitVec.ofNat 64 va, BitVec.ofNat 64 t, w.desc,
   BitVec.ofNat 64 (256 * paDie pa + 16 * group), BitVec.ofNat 64 (bits sword 15 8)]

/-- State word with STATE, TAG and DONE replaced (R250). -/
def swordSet (w state tag done : Nat) : Nat :=
  w - w % 16 + state - 2 ^ 16 * bits w 47 16 + 2 ^ 16 * tag - 2 ^ 48 * bits w 48 48 + 2 ^ 48 * done

/-- A record that reads MIGRATING (R254, R412): it goes to the retry list; on a retry pass 100 ms after its first read it
is listed once with cause 3. -/
def State.migrating (s : State) (die n : Nat) (w : Walker) (t sword : Nat) (retry : Bool) : Visit × State :=
  let since := AMap.get s.time w.migSince t
  let s' := match s.launch? n with
    | none => s
    | some x => s.setLaunch n { x with walkers := x.walkers.set die { w with migSince := w.migSince.set t since } }
  (if retry && since + 100000000 ≤ s.time then .policy 3 sword else .defer, s')

/-- Claim a record and choose where its block runs (R253, R255, R256, R417, R418, R444). The claim is one atomic step,
so its CAS succeeds. -/
def State.claimRecord (s : State) (die : Nat) (l : Launch) (w : Walker) (t spa sword : Nat) (r : List Byte) : Visit × State :=
  let cs := s.placeCopies (192 * die) l (recordCopies l.hdr sword r)
  let s := cs.2
  let live := cs.1.filter fun c => !s.dieLost (paDie c.2.2)
  if live.isEmpty && !cs.1.isEmpty then (.policy 2 sword, s)
  else
    let tag := l.hdr.tag.toNat
    match l.chooseCopy live with
    | none =>
      -- the claim, then FAULTED by CAS with TAG kept and DONE 0 (R444)
      (.policy 4 sword, s.writePhys spa (leBytes 8 (swordSet sword 4 tag 0)))
    | some c =>
      (.claim (s.runDie l (paDie c.2.2)) (l.tilePacket w t sword r c.2.1 c.2.2),
       s.writePhys spa (leBytes 8 (swordSet sword (sword % 16) tag 0)))

/-- A walker's visit to a record (R253, R410). -/
def State.visit (s : State) (die n : Nat) (l : Launch) (w : Walker) (t : Nat) (retry : Bool) :
    Except LaunchErr (Visit × State) :=
  let b := s.readItem die n (w.ptab + 64 * t) 64
  match b.1 with
  | .error e => .error e
  | .ok r =>
    let sword := fieldN r 8 8
    if bits sword 47 16 = l.hdr.tag.toNat && bit sword 48 then .ok (.pass false, b.2)
    else if sword % 16 = 3 then .ok (b.2.migrating die n w t sword retry)
    else if sword % 16 ≠ 1 && sword % 16 ≠ 2 then .ok (.policy 0 sword, b.2)
    else
      let p := b.2.itemPa die n (w.ptab + 64 * t + 8) 2
      match p.1 with
      | .error e => .error e
      | .ok spa => .ok (p.2.claimRecord die l w t spa sword r)

/-! ## The walker's steps -/

/-- Change the walker of a die. -/
def State.setWalker (s : State) (die n : Nat) (f : Walker → Walker) : State :=
  match s.launch? n with
  | none => s
  | some l =>
    match AMap.find? l.walkers die with
    | none => s
    | some w => s.setLaunch n { l with walkers := l.walkers.set die (f w) }

/-- Send a claimed record's packet when the die's mailbox has a place, and count it in P(d); else it waits in the order of
request (R255, R309). -/
def State.sendTile (s : State) (die n d : Nat) (p : Packet) : State :=
  let sender := if d = die then 0 else 2
  if (s.die d).hasPlace sender (.walker die n) then
    let s := (s.sendMail die d n sender (.walker die n) p).setWalker die n fun w => { w with out := none }
    match s.launch? n with
    | some l => s.setLaunch n { l with pend := l.pend.set d (l.pending d + 1) }
    | none => s
  else (s.askPlace d (.walker die n)).setWalker die n fun w => { w with out := some (d, p) }

/-- A walker's access failed: it waits where it stands, or the launch stops (R444). -/
def State.walkFailed (s : State) (die n : Nat) : LaunchErr → State
  | .wait va wr => (s.setWalker die n fun w => { w with waiting := some (BitVec.ofNat 64 va) }).agentFault die n va wr
  | .stop r => s.recordTrap n r

/-- The walker behind the record it has handled: in its range, or in a retry pass (R254). A full retry list keeps it at a
record that would join it. -/
def Walker.after (w : Walker) (t now : Nat) (retry : Bool) (v : Visit) : Walker :=
  if !retry && 1024 ≤ w.retry.length && v == .defer then w
  else
    let w := match v with
      | .claim _ _ => { w with claims := t :: w.claims, claimed := true }
      | .pass met => { w with met := if met then t :: w.met else w.met }
      | .defer => { w with retry := w.retry ++ [t] }
      | .policy _ _ => w
    if retry then
      let rest := w.pass.drop 1
      { w with pass := rest, pausedAt := if rest.isEmpty && !w.claimed then some now else w.pausedAt }
    else { w with next := t + 1 }

/-- A walker that learns of a stop claims nothing more and drops its retry list, whose records it has not carried through
(R410, R414). -/
def Walker.learnStop (w : Walker) : Walker :=
  { w with stopKnown := true, retry := [], pass := [], met := w.met ++ w.retry ++ w.pass }

/-- What the policy makes of a record that the walker has listed (R410, R412): under STOP it signals the stop. -/
def State.afterListing (s : State) (die n : Nat) (l : Launch) (x : Listing) : State :=
  let wait := x.cause = 3 || l.hdr.policy = 2
  let v : Visit := if wait then .defer else .pass true
  let s := s.setWalker die n fun w => ({ w with listing := none } : Walker).after x.t s.time x.retry v
  if wait || l.hdr.policy = 1 then s
  else match s.launch? n with
    | some l => (s.setLaunch n { l with walkStop := true }).setWalker die n Walker.learnStop
    | none => s

/-- A walker goes on with the listing of the record in its hand (R408, R444): what it read of the record stands. -/
def State.listOn (s : State) (die n : Nat) (l : Launch) (w : Walker) (x : Listing) : State :=
  let r := s.listRecord die n w.rank x
  match r.err with
  | some e => (r.state.setWalker die n fun w => { w with listing := some r.item }).walkFailed die n e
  | none => r.state.afterListing die n l r.item

/-- Visit one record and go on. -/
def State.walkOne (s : State) (die n : Nat) (l : Launch) (w : Walker) (t : Nat) (retry : Bool) : State :=
  match s.visit die n l w t retry with
  | .error e => s.walkFailed die n e
  | .ok (.policy cause sword, s) => s.listOn die n l w ⟨t, retry, cause, sword, none⟩
  | .ok (.claim d p, s) => (s.setWalker die n fun w => w.after t s.time retry (.claim d p)).sendTile die n d p
  | .ok (v, s) => s.setWalker die n fun w => w.after t s.time retry v

/-- Whether a launch's walkers may act: it is running and nothing stops it. -/
def Launch.walks (l : Launch) : Bool := l.phase == .running && l.trap.isNone && !l.aborted

/-- A walker with no record in hand: it learns of a stop that the Stoker relays (log 120), or handles the next record of its
range, or of the retry pass that has begun. -/
def State.walkNext (s : State) (die n : Nat) (l : Launch) (w : Walker) : State :=
  if w.stopKnown then s
  else
    let r := if l.walkStop then s.draw 1 else (0, s)
    if l.walkStop && Config.relayed r.1 then r.2.setWalker die n Walker.learnStop
    else if w.next < w.stop then r.2.walkOne die n l w w.next false
    else match w.pass with
    | t :: _ => r.2.walkOne die n l w t true
    | [] => if l.walkStop then r.2.setWalker die n Walker.learnStop else s

/-- What a walker has in hand comes first, also while the Damper stops it between records (R331). -/
def State.walkHand (s : State) (die n : Nat) (l : Launch) (w : Walker) : Option State :=
  match w.out, w.listing with
  | some (d, p), _ => some (s.sendTile die n d p)
  | none, some x => some (s.listOn die n l w x)
  | none, none => none

/-- WALK_RECORD (R253, R331): the walker delivers a packet that waited for a place, or goes on with a listing; else, in a
running launch, it first reads the launch's structures, and then handles a record. -/
def execWalkRecord (die launch : Nat) (s : State) : Host.Outcome State Fault Refusal :=
  match s.launch? launch with
  | none => .next s
  | some l =>
    match AMap.find? l.walkers die with
    | none => .next s
    | some w =>
      if w.waiting.isSome || s.dieLost die then .next s
      else match (if l.walks || l.phase = .stopping then s.walkHand die launch l w else none) with
      | some t => .next t
      | none =>
        if !l.walks then .next s
        else if !w.ready then
          .next (match s.walkInit die launch l w with | .ok t => t | .error e => s.walkFailed die launch e)
        else .next (s.walkNext die launch l w)

/-- WALKER_RETRY_PASS (R254): a pass over the retry list begins, at least 1 µs after one that claimed nothing. -/
def execWalkerRetryPass (die launch : Nat) (s : State) : Host.Outcome State Fault Refusal :=
  match s.launch? launch with
  | none => .next s
  | some l =>
    match AMap.find? l.walkers die with
    | none => .next s
    | some w =>
      let early := match w.pausedAt with | some t => s.time < t + 1000 | none => false
      if !l.walks || !w.ready || w.stopKnown || w.next < w.stop || !w.pass.isEmpty || w.retry.isEmpty || early ||
          w.listing.isSome || w.out.isSome then .next s
      else .next (s.setWalker die launch fun w => { w with pass := w.retry, retry := [], claimed := false, pausedAt := none })

/-! ## DONE and discarded tiles -/

/-- The die whose walker's range holds a record index. -/
def Launch.rangeDie (l : Launch) (t : Nat) : Option Nat :=
  ((l.walkers.filter fun x => x.2.first ≤ t && t < x.2.stop).head?).map Prod.fst

/-- The Stoker or the Hearth waits for a launch's page, or the launch stops (R445). -/
def State.launchFailed (s : State) (die n : Nat) : LaunchErr → State
  | .wait va wr =>
    match s.launch? n with
    | some l => (s.setLaunch n { l with waiting := some (BitVec.ofNat 64 va) }).agentFault die n va wr
    | none => s
  | .stop r => s.recordTrap n r

/-- Take a record off the claims of the walker whose range holds it, and do something more with that walker. -/
def State.endClaim (s : State) (n t : Nat) (f : Walker → Walker) : State :=
  match s.launch? n with
  | none => s
  | some l =>
    match l.rangeDie t with
    | none => s
    | some d => s.setWalker d n fun w => f { w with claims := w.claims.filter fun x => x != t }

/-- The placement table of a launch, as the walker whose range holds a record has read it. -/
def Launch.ptab (l : Launch) (t : Nat) : Nat :=
  match (l.rangeDie t).bind (AMap.find? l.walkers ·) with | some w => w.ptab | none => 0

/-- TILE_DONE (R258): the Hearth of the running die sets DONE and lowers P(d). -/
def execTileDone (die launch : Nat) (s : State) : Host.Outcome State Fault Refusal :=
  match s.launch? launch with
  | none => .next s
  | some l =>
    match (l.dones.filter fun x => x.2 == die).head? with
    | none => .next s
    | some (t, d) =>
      if l.waiting.isSome || !(l.phase == .running || l.phase == .stopping) then .next s
      else
        let p := s.updateItem die launch (l.ptab t + 64 * t + 8)
        match p.1 with
        | .error (.wait va wr) => .next (s.launchFailed die launch (.wait va wr))
        | .error (.stop r) =>
          .next ((s.setLaunch launch { l with dones := l.dones.erase (t, d) }).launchFailed die launch (.stop r))
        | .ok (pa, old) =>
          let s := p.2.writePhys pa (leBytes 8 (old ||| 2 ^ 48))
          let s := s.setLaunch launch { l with dones := l.dones.erase (t, d), pend := l.pend.set die (l.pending die - 1) }
          .next (s.endClaim launch t id)

/-- A core without the warps in some slots and what they have queued: a SORT that was running stops at its step. -/
def Core.withoutSlots (c : Core) (mine : Nat → Bool) : Core :=
  let stops := c.riddle.state == 2 && match c.rqueue with | x :: _ => mine x.slot | [] => false
  { c with
    warps := c.warps.filter fun x => !mine x.1
    riddle := if stops then { c.riddle with state := 3 } else c.riddle
    copyq := c.copyq.filter fun x => !mine x.slot
    stackq := c.stackq.filter fun x => !mine x.slot
    mqueue := c.mqueue.filter fun x => !mine x.slot
    rqueue := c.rqueue.filter fun x => !mine x.slot
    matFailed := c.matFailed.filter fun x => !mine x.slot
    sortFailed := c.sortFailed.filter fun x => !mine x.slot
    vtoks := c.vtoks.map fun e => (e.1, e.2.filter fun x => !mine x.1) }

/-- The die forgets the JOINW registration of a discarded warp (R302). -/
def State.forgetWaiter (s : State) (w : Warp) : State :=
  match w.park with
  | some (.join _ pa true _) => s.unregister pa true
  | _ => s

/-- Discard the warps in some slots of a core and what they have queued; their spill areas are free again (R372, R396).
What they were joined on then settles for the core's other warps. -/
def State.discardSlots (s : State) (core : Nat) (slots : List Nat) : State :=
  let ws := slots.map fun k => s.warpAt core k
  let s := ws.foldl State.forgetWaiter s
  let s := ws.foldl (fun (s : State) w =>
    match s.launch? w.launch with
    | some l => s.setLaunch w.launch { l with areas := l.areas.filter fun a => some a != w.spillArea }
    | none => s) s
  let s := s.setCore core ((s.core core).withoutSlots slots.contains)
  (s.settleAll core State.settleAcc).settleAll core State.settleSort

/-- Discard every warp of a block, and free what the block held (R396). -/
def State.discardBlock (s : State) (core n : Nat) : State :=
  match AMap.find? (s.core core).blocks n with
  | none => s
  | some b =>
    let s := s.discardSlots core (((s.core core).warps.filter fun x => x.2.ofBlock n).map Prod.fst)
    let c := s.core core
    (s.setCore core { c.dropUnits b.unit0 b.units with blocks := c.blocks.erase n }).retryGroup core

/-- Change the tile whose HWERR the Stoker handles. -/
def State.setFaulting (s : State) (n : Nat) (f : Option Faulting) : State :=
  match s.launch? n with
  | some l => s.setLaunch n { l with faulting := f }
  | none => s

/-- Whether a walker's retry list takes a record under WAIT, and has no room for it (R254, R411). -/
def Walker.listFull (w : Walker) : Bool := !w.stopKnown && 1024 ≤ w.retry.length + w.pass.length

/-- Whether the walker whose range holds a record has no room for it (R254). -/
def Launch.retryFull (l : Launch) (t : Nat) : Bool :=
  l.hdr.policy == 2 && match (l.rangeDie t).bind (AMap.find? l.walkers ·) with | some w => w.listFull | none => false

/-- Whether the Stoker has listed the tile in its hand, which waits for room in a retry list (R254). -/
def Launch.tileWaits (l : Launch) : Bool :=
  match l.faulting.bind (·.listing) with | some x => x.slot.isNone && l.listed.contains x.t | none => false

/-- The policy takes a tile whose block an HWERR has ended (R411): under WAIT its record goes to the retry list. -/
def State.faultedTile (s : State) (n : Nat) (l : Launch) (t : Nat) : State :=
  (s.setFaulting n none).endClaim n t fun w =>
    if l.hdr.policy = 2 && !w.stopKnown then { w with retry := w.retry ++ [t] } else { w with met := t :: w.met }

/-- The Stoker lists such a record with cause 1 (R408, R411), and stays at one for which the retry list has no room (R254). -/
def State.listFaulted (s : State) (n : Nat) (l : Launch) (f : Faulting) (x : Listing) : State :=
  let r := s.listRecord s.stokerDie n (l.rank ((l.rangeDie f.t).getD f.die)) x
  match r.err with
  | some e => (r.state.setFaulting n (some { f with listing := some r.item })).launchFailed s.stokerDie n e
  | none =>
    if l.retryFull f.t then r.state.setFaulting n (some { f with listing := some { r.item with slot := none } })
    else r.state.faultedTile n l f.t

/-- Steps 2 and 3 of R396: the record reads FAULTED with TAG kept and DONE 0, and P(d) falls; then it is listed. -/
def State.markFaulted (s : State) (n : Nat) (l : Launch) (f : Faulting) : State :=
  let p := s.updateItem s.stokerDie n (l.ptab f.t + 64 * f.t + 8)
  match p.1 with
  | .error e => s.launchFailed s.stokerDie n e
  | .ok (pa, sword) =>
    let x : Listing := ⟨f.t, false, 1, sword, none⟩
    let l := { l with faulting := some { f with listing := some x }, pend := l.pend.set f.die (l.pending f.die - 1) }
    ((p.2.writePhys pa (leBytes 8 (swordSet sword 4 (bits sword 47 16) 0))).setLaunch n l).listFaulted n l f x

/-- HWERR_TILE_DISCARD (R396, R411): the Stoker goes on with the tile in its hand, or discards the block of the next one
that waits for it. -/
def execHwerrTileDiscard (launch : Nat) (s : State) : Host.Outcome State Fault Refusal :=
  match s.launch? launch with
  | none => .next s
  | some l =>
    if l.waiting.isSome || l.trap.isSome || l.aborted || !(l.phase == .running || l.phase == .stopping) then .next s
    else match l.faulting, l.discards with
    | some f, _ =>
      match f.listing with
      | some x => .next (s.listFaulted launch l f x)
      | none => .next (s.markFaulted launch l f)
    | none, [] => .next s
    | none, (core, block) :: rest =>
      match (AMap.find? (s.core core).blocks block).bind (·.tile) with
      | none => .next (s.setLaunch launch { l with discards := rest })
      | some t =>
        let f : Faulting := ⟨t, dieOf core, none⟩
        let s := (s.setLaunch launch { l with discards := rest, faulting := some f }).discardBlock core block
        match s.launch? launch with
        | some l => .next (s.markFaulted launch l f)
        | none => .next s

/-- COUNT of a launch's fault list as the Stoker reads it, 0 without a list. -/
def State.faultCount (s : State) (n : Nat) (l : Launch) : Nat :=
  if l.hdr.faultlist = 0 then 0
  else match (s.readItem s.stokerDie n l.hdr.faultlist.toNat 8).1 with
    | .ok b => leNat b
    | .error _ => 0

/-- The 32 bytes of a WALKFAULT event (R409). -/
def State.walkfaultEvent (s : State) (n kind : Nat) (l : Launch) (count : Nat) : State :=
  let s := s.setLaunch n { l with faultsPosted := count, faultPostAt := s.time }
  s.postEvent l.queue (eventBytes 5 kind l.queue l.num s.time count)

/-- WALKFAULT (R409): kind 2, when COUNT has grown, at most once per millisecond. -/
def execWalkfault (launch : Nat) (s : State) : Host.Outcome State Fault Refusal :=
  match s.launch? launch with
  | none => .next s
  | some l =>
    let count := s.faultCount launch l
    if l.hdr.kind = 0 && (l.hdr.policy = 1 || l.hdr.policy = 2) && l.faultsPosted < count &&
        (l.faultsPosted = 0 || l.faultPostAt + 1000000 ≤ s.time) then
      .next (s.walkfaultEvent launch 2 l count)
    else .next s

end Sys2Proof.Machine
end

