-- ==== Sys2Proof/Machine/Packet.lean ====
section
/-! DEFINITION. Reading a packet and checking it (R244, R260, R316, R319, R320, R324, R326, R327, R420 to R423, R425,
R445). -/
namespace Sys2Proof.Machine

/-! ## The Stoker's reads -/

/-- Read bytes at a physical address for the Stoker: the bytes, or the kind of failure and the port's status as READERR's
detail has them (R425). -/
def State.stokerRead (s : State) (pa n : Nat) : Except Nat (List Byte) × State :=
  let pa := s.byLivePort pa
  if regionOf pa = 0 then
    if s.onLostDie pa || !paExists pa then (.error (2 ^ 24), s)
    else if s.poisoned pa n then (.error (2 * 2 ^ 24), s)
    else (.ok (s.mem.bytes pa n), s)
  else if regionOf pa = 3 then (.error (2 ^ 24), s)
  else
    let d := s.draw 1
    let st := (Config.portStatus d.1).toNat
    if st ≠ 0 || !s.portAnswers pa then (.error (2 ^ 24 + st), d.2)
    else
      let r := d.2.readPhys pa n
      (.ok r.1, r.2)

/-- Read n bytes of a queue's ring from a running byte count; they may continue across the end of the ring (R420). -/
def State.ringRead (s : State) (q : Queue) (o n : Nat) : Except Nat (List Byte) × State :=
  if n = 0 then (.ok [], s)
  else
    let a := o % q.size
    let k := min n (q.size - a)
    let x := s.stokerRead (q.ring + a) k
    match x.1 with
    | .error e => (.error e, x.2)
    | .ok b =>
      if k = n then (.ok b, x.2)
      else
        let y := x.2.stokerRead q.ring (n - k)
        match y.1 with
        | .error e => (.error e, y.2)
        | .ok c => (.ok (b ++ c), y.2)

/-- The physical address of a virtual one as the Stoker translates it, with R, and W where asked, in region 00. -/
def State.spacePa (s : State) (asid va : Nat) (needW : Bool) : Option Nat :=
  if 2 ^ 52 ≤ va then none
  else match AMap.find? s.aspaces asid with
  | none => none
  | some sp =>
    if !sp.live then none
    else match s.walk sp.root va with
    | .leaf p =>
      let pa := p.pa + va % p.size
      if p.r && (!needW || p.w) && regionOf pa = 0 then some pa else none
    | _ => none

/-- Read pieces of a structure in an address space; kind 3 is a translation or permission failure. -/
def State.spacePieces (s : State) (asid : Nat) : List (Nat × Nat) → Except Nat (List Byte) × State
  | [] => (.ok [], s)
  | (va, n) :: ps =>
    match s.spacePa asid va false with
    | none => (.error (3 * 2 ^ 24), s)
    | some pa =>
      let x := s.stokerRead pa n
      match x.1 with
      | .error e => (.error e, x.2)
      | .ok b =>
        let y := State.spacePieces x.2 asid ps
        match y.1 with
        | .error e => (.error e, y.2)
        | .ok c => (.ok (b ++ c), y.2)

/-- Read n bytes of a structure in an address space. -/
def State.spaceRead (s : State) (asid va n : Nat) : Except Nat (List Byte) × State :=
  s.spacePieces asid (cut64K (n / 65536 + 2) va n)

/-- Whether n bytes of an address space lie on pages of region 00 with R and W (R445). -/
def State.spaceRw (s : State) (asid va n : Nat) : Bool :=
  (cut64K (n / 65536 + 2) va n).all fun p => (s.spacePa asid p.1 true).isSome

/-! ## The form of a packet -/

/-- Why a packet is not started (R421, R425): code, the packet's header word, header and word offset of the field at
fault, and detail. -/
structure PktErr where
  code : Nat
  word : Nat
  fhdr : Nat
  foff : Nat
  detail : Nat
  deriving DecidableEq, Repr

/-- A field of a packet (R326): tag, header, word offset, and the words of its body. -/
structure Field where
  tag : Nat
  hdr : Nat
  off : Nat
  body : List Nat
  deriving DecidableEq, Repr

/-- A packet that has passed checks 1 to 8 (R421), with the bytes of the queue descriptor that it names as check 9 has
read them. -/
structure Pkt where
  word : Nat
  fields : List Field
  desc : List Byte
  deriving DecidableEq, Repr

/-- Type, length in words, and flags of a header word (R326). -/
def pktType (w : Nat) : Nat := bits w 31 20
def pktLen (w : Nat) : Nat := bits w 19 8
def pktFence (w : Nat) : Bool := bit w 0
def pktEvent (w : Nat) : Bool := bit w 1

/-- Body words of the one field of a packet that is not a LAUNCH (R422). -/
def bodyWords (type : Nat) : Nat :=
  if type = 2 || type = 8 || type = 10 then 6 else if type = 6 then 2 else if type = 7 then 10 else 4

/-- The tags that a type defines, with their body lengths (R327, R422). -/
def knownTags (type : Nat) : List (Nat × Nat) :=
  if type = 1 then [(1, 2), (2, 2), (3, 2), (4, 16), (5, 4), (6, 4)] else if type = 0 then [] else [(1, bodyWords type)]

/-- The tags that a type requires (R422). -/
def neededTags (type : Nat) : List Nat := if type = 1 then [1, 2] else if type = 0 then [] else [1]

/-- Split the words behind the header into fields (R421, checks 6 and 7); mand is the first field with M = 1 that the
type does not define. -/
def splitFields (known : List (Nat × Nat)) : Nat → Nat → List Nat → List Field → Option Field → Except (Nat × Field) (List Field)
  | _, _, [], acc, mand => match mand with | some f => .error (5, f) | none => .ok acc.reverse
  | 0, pos, h :: _, _, _ => .error (4, ⟨0, h, pos, []⟩)
  | fuel + 1, pos, h :: rest, acc, mand =>
    let f : Field := ⟨bits h 30 16, h, pos, rest.take (h % 65536)⟩
    let def' := (known.find? fun k => k.1 == f.tag).map Prod.snd
    if f.body.length < h % 65536 || f.tag = 0 || (def'.isSome && (def' != some f.body.length || acc.any fun g => g.tag == f.tag)) then
      .error (4, f)
    else
      let mand := match mand with | some g => some g | none => if bit h 31 && def'.isNone then some f else none
      splitFields known fuel (pos + 1 + f.body.length) (rest.drop f.body.length) (f :: acc) mand

/-- A packet whose bytes are read: checks 4 to 8 (R421). -/
def parseWords (queue : Nat) (w : List Nat) : Except PktErr Pkt :=
  let h := w.headD 0
  let type := pktType h
  if bits h 7 2 ≠ 0 then .error ⟨2, h, 0, 0, 0⟩
  else if 10 < type || (queue ≠ 0 && (type = 5 || 8 ≤ type)) then .error ⟨3, h, 0, 0, 0⟩
  else match splitFields (knownTags type) w.length 1 (w.drop 1) [] none with
  | .error e => .error ⟨e.1, h, e.2.hdr, e.2.off, 0⟩
  | .ok fs =>
    if (neededTags type).all fun t => fs.any fun f => f.tag == t then .ok ⟨h, fs, []⟩ else .error ⟨6, h, 0, 0, 0⟩

/-- Parse the packet at a queue's read index (R420, R421, checks 1 to 8): none while it is not wholly published. Each byte
is read once (R433). -/
def State.parse (s : State) (n : Nat) (q : Queue) : Option (Except PktErr Pkt) × State :=
  let avail := (q.wr - q.ridx).toNat
  if q.size < avail then (some (.error ⟨12, 0, 0, 0, q.wr.toNat⟩), s)
  else if avail < 4 then (none, s)
  else
    let x := s.ringRead q q.ridx.toNat 4
    match x.1 with
    | .error e => (some (.error ⟨9, 0, 0, 0, 15 * 2 ^ 28 + e⟩), x.2)
    | .ok b =>
      let h := leNat b
      let len := pktLen h
      if len = 0 || q.size < 4 * len then (some (.error ⟨1, h, 0, 0, 0⟩), x.2)
      else if avail < 4 * len then (none, x.2)
      else
        let y := x.2.ringRead q (q.ridx.toNat + 4) (4 * (len - 1))
        match y.1 with
        | .error e => (some (.error ⟨9, h, 0, 0, 15 * 2 ^ 28 + e⟩), y.2)
        | .ok c => (some (parseWords n (h :: (splitN 4 (len - 1) c).map leNat)), y.2)

/-- A field by its tag. -/
def Pkt.field (p : Pkt) (tag : Nat) : Option Field := p.fields.find? fun f => f.tag == tag
/-- The 64-bit value at an 8-byte position of a field's body. -/
def Field.val (f : Field) (i : Nat) : Nat := f.body.getD (2 * i) 0 + 2 ^ 32 * f.body.getD (2 * i + 1) 0
/-- The 64-bit value at a position of the body of the one field of a packet that is not a LAUNCH. -/
def Pkt.val (p : Pkt) (i : Nat) : Nat := match p.field 1 with | some f => f.val i | none => 0
/-- The type of a packet. -/
def Pkt.type (p : Pkt) : Nat := pktType p.word

/-! ## The values of a packet -/

/-- A rejected value or a failed read (R421, checks 2 and 9): code, tag of the field, detail. -/
structure BadVal where
  code : Nat
  tag : Nat
  detail : Nat
  deriving DecidableEq, Repr

/-- The first of several conditions that holds, as a BADVALUE of a structure (R423). -/
def firstBad (structure' tag : Nat) (l : List (Bool × Nat)) : Option BadVal :=
  (l.find? fun x => x.1).map fun x => ⟨7, tag, 2 ^ 28 * structure' + x.2⟩

/-- Whether a number is a power of two from lo to hi. -/
def pow2In (x lo hi : Nat) : Bool := lo ≤ x && x ≤ hi && x == 2 ^ x.log2

/-- Whether a number is a physical address of R209. -/
def validPa (x : Nat) : Bool := x < 2 ^ 46 && regionOf x != 3 && paExists x

/-- The conditions of a queue descriptor (R324). -/
def descBad (d : List Byte) : List (Bool × Nat) :=
  let ring := fieldN d 0 8
  let size := fieldN d 8 4
  let ev := fieldN d 24 8
  let evsize := fieldN d 32 4
  let okSize := pow2In size 4096 (2 ^ 24)
  let okEv := pow2In evsize 4096 (2 ^ 20)
  [(!validPa ring || (okSize && ring % size != 0), 0), (!okSize, 8), (fieldN d 12 4 / 8 != 0, 12),
   (!validPa (fieldN d 16 8), 16), (!validPa ev || (okEv && ev % evsize != 0), 24), (!okEv, 32),
   (65536 ≤ fieldN d 40 8, 40), (fieldN d 48 8 != 0, 48), (fieldN d 56 8 != 0, 56)]

/-- The body of a packet that is not a LAUNCH, beside a queue descriptor (R423, structure 0). -/
def State.bodyBad (s : State) (p : Pkt) : List (Bool × Nat) :=
  let v := p.val
  let live := fun a => a < 65536 && match AMap.find? s.aspaces a with | some x => x.live | none => false
  match p.type with
  | 3 | 4 => [(v 0 % 8 != 0, 0)]
  | 5 =>
    let n := v 0 % 2 ^ 32
    let op := v 0 / 2 ^ 32
    let there := (AMap.find? s.queues n).isSome
    [((op == 1 && (there || 4096 ≤ n)) || (op == 2 && (n == 0 || !there)), 0), (op != 1 && op != 2, 4)]
  | 6 => [(!live (v 0), 0)]
  | 7 => [(1024 ≤ v 0, 0), (65536 ≤ v 1, 8), (v 2 % 256 != 0, 16), (v 3 % 256 != 0, 24),
          (v 4 % 256 != 0 || v 4 == 0 || 2 ^ 40 < v 4, 32)]
  | 8 =>
    let op := v 1
    [(65536 ≤ v 0 || (op == 1 && live (v 0)) || ((op == 2 || op == 3) && !live (v 0)), 0), (op == 0 || 3 < op, 8),
     (2 ^ 44 ≤ v 2 || !paExists (v 2) || v 2 % 65536 != 0, 16)]
  | 9 => [(1 < v 0, 0), (2 ^ 44 ≤ v 1 || !paExists (v 1) || v 1 % 2 ^ 36 != 0, 8)]
  | 10 =>
    let op := v 0 % 16
    let kind := bits (v 0) 11 8
    let staged := match AMap.find? s.flash kind with | some f => f.staged.isSome | none => false
    [(v 0 != op + 256 * kind || (op != 1 && op != 2) || kind == 0 || 3 < kind || (op == 2 && !staged), 0),
     (v 2 == 0 || 2 ^ 26 < v 2, 16)]
  | _ => []

/-- Checks 2 and 9 of a packet that is not a LAUNCH (R421, R423): what it rejects, or the descriptor bytes that it has read
and checked. -/
def State.checkValues (s : State) (p : Pkt) : Except BadVal (List Byte) × State :=
  match firstBad 0 1 (s.bodyBad p) with
  | some b => (.error b, s)
  | none =>
    if p.type = 5 && p.val 0 / 2 ^ 32 = 1 then
      let x := s.stokerRead (p.val 1) 64
      match x.1 with
      | .error e => (.error ⟨9, 1, 2 * 2 ^ 28 + e⟩, x.2)
      | .ok d =>
        match firstBad 2 1 (descBad d) with
        | some b => (.error b, x.2)
        | none => (.ok d, x.2)
    else (.ok [], s)

/-! ## The launch header -/

/-- The roles of a gang: start address, kind, budget, group count (R316). -/
def rolesOf (b : List Byte) : List (Word × Nat × Nat × Nat) :=
  (List.range (min (fieldN b 104 8) 4)).map fun i =>
    let c := fieldN b (120 + 16 * i) 8
    (BitVec.ofNat 64 (fieldN b (112 + 16 * i) 8), c % 4, bits c 14 4, bits c 20 16)

/-- A launch header of 256 bytes (R244, R315, R316). -/
def Header.ofBytes (addr : Nat) (b : List Byte) : Header :=
  let f := fun o => fieldN b o 8
  let w := fun o => BitVec.ofNat 64 (f o)
  let k := f 0
  { addr := BitVec.ofNat 64 addr
    kind := k % 16
    warps := bits k 8 4
    budget := bits k 19 9
    spad := bits k 31 20
    tag := BitVec.ofNat 32 (bits k 63 32)
    entry := w 8
    widfmt := w 16
    spill := w 24
    spillsz := w 32
    ttab := w 40
    walk := w 48
    resume := w 56
    faultlist := w 64
    splitT := f 72 % 2 ^ 32
    splitI := f 72 / 2 ^ 32
    splitG := f 80 % 2 ^ 32
    fixup := w 88
    init := w 96
    ninit := f 104 % 2 ^ 32
    gsets := f 96 % 2 ^ 32
    roles := rolesOf b
    window := if f 176 % 64 = 0 then 32 else f 176 % 64
    tvdef := w 240
    spilln := f 248 % 2 ^ 32 }

/-- Whether a WIDFMT is one that R21 describes. -/
def widfmtOk (x : Nat) : Bool :=
  let n := bits x 38 36
  let ws := (List.range 6).map fun i => bits x (6 * i + 5) (6 * i)
  x < 2 ^ 39 && n ≤ 6 && (ws.drop n).all (· == 0) && ws.foldl (· + ·) 0 ≤ 64

/-- A gang's fields (R316). A group count has no minimum of its own: the sum of them is WARPS (R35). A header outside R316 is rejected at the field (log 26). -/
def gangBad (h : Header) (b : List Byte) : List (Bool × Nat) :=
  let n := fieldN b 104 8
  [(fieldN b 96 8 != h.gsets || h.gsets == 0, 96), (n == 0 || 4 < n, 104)] ++
  (List.range 4).flatMap fun i =>
    let c := fieldN b (120 + 16 * i) 8
    if i < n then
      [(3 ≤ c % 4 || bits c 3 2 != 0 || bit c 15 || c / 2 ^ 21 != 0 || bits c 14 4 % 4 != 0 || bits c 14 4 < 32 ||
        1504 < bits c 14 4, 120 + 16 * i)]
    else [(fieldN b (112 + 16 * i) 8 != 0, 112 + 16 * i), (c != 0, 120 + 16 * i)]

/-- Whether a launch is a running one: committed, and not pre-empted (R423). -/
def Launch.runs (l : Launch) : Bool := l.phase != .reserved && l.phase != .saved

/-- The conditions of a launch header (R423, structure 1; R21, R244, R260, R445). -/
def State.headerBad (s : State) (asid : Nat) (h : Header) (b : List Byte) : List (Bool × Nat) :=
  let walk := h.walk.toNat
  let total := h.splitT * h.splitI
  let sum := h.roles.foldl (fun n r => n + r.2.2.2) 0
  [(3 < h.kind || h.warps == 0 || 16 < h.warps || 256 < h.spad || (h.kind == 3 && sum != h.warps) ||
      (h.kind != 3 && (h.budget % 4 != 0 || h.budget < 32 || 1504 < h.budget)), 0),
   (h.tag == 0 || s.launches.any fun x => x.2.runs && x.2.hdr.tag == h.tag, 4),
   (!widfmtOk h.widfmt.toNat, 16),
   (if h.kind = 0 then walk / 2 ^ 32 != 0 || bits walk 9 4 != 0 || bits walk 12 11 == 3 || 4 < bits walk 15 13 else walk != 0, 48),
   (h.resume != 0 && (h.resume.toNat % 64 != 0 || !s.spaceRw asid h.resume.toNat 64), 56),
   (h.faultlist != 0 && (h.faultlist.toNat % 64 != 0 || !s.spaceRw asid h.faultlist.toNat 64), 64)] ++
  (if h.kind = 2 then
    [(h.splitT == 0 || 2 ^ 32 ≤ total, 72), (h.splitI == 0, 76),
     (h.splitG == 0 || total < h.splitG || fieldN b 80 8 != h.splitG, 80),
     (h.fixup.toNat % 8 != 0 || !s.spaceRw asid h.fixup.toNat ((h.splitT + 7) / 8), 88)]
   else if h.kind = 3 then gangBad h b else []) ++
  [(fieldN b 176 8 / 64 != 0 || fieldN b 176 8 % 4 != 0 || 32 < fieldN b 176 8, 176)]

/-! ## The shape -/

/-- RECT's fields (R327): origin, rows, columns, ENG, ANY. -/
def rectRows (r : Nat) : Nat := bits r 3 3 + 1
def rectCols (r : Nat) : Nat := bits r 5 4 + 1
def rectEng (r : Nat) : Bool := bit r 6
def rectAny (r : Nat) : Bool := bit r 7

/-- Whether a shape at an origin stays on the mesh (R327). -/
def shapeFits (r origin : Nat) : Bool := origin % 4 + rectCols r ≤ 4 && origin / 4 + rectRows r ≤ 2

/-- The dies of a shape at an origin, in increasing number (R8, R327). -/
def shapeDies (r origin : Nat) : List Nat :=
  (List.range (rectRows r)).flatMap fun i => (List.range (rectCols r)).map fun j => origin + 4 * i + j

/-- The origins that a RECT permits, lowest first (R327, R329). -/
def origins (r : Nat) : List Nat := if rectAny r then (List.range 8).filter (shapeFits r) else [r % 8]

/-- The values of a LAUNCH's own fields (R423, structure 0). -/
def Pkt.launchBad (p : Pkt) : Option BadVal :=
  let pair := fun (tag : Nat) (f : Field → List (Bool × Nat)) => match p.field tag with | some x => firstBad 0 tag (f x) | none => none
  match pair 1 fun f => [(f.val 0 % 256 != 0, 0)] with
  | some b => some b
  | none =>
  match pair 2 fun f => [(256 ≤ f.val 0 || !shapeFits (f.val 0) (f.val 0 % 8), 0)] with
  | some b => some b
  | none =>
  match pair 5 fun f => [(f.val 0 % 65536 != 0, 0), (f.val 1 % 65536 != 0, 8)] with
  | some b => some b
  | none => pair 6 fun f => [(f.val 0 % 65536 != 0, 0)]

/-! ## Flue schedules -/

/-- A schedule block (R319): LMASK, the directions it drives with their scheduled slots, the streams, and the routing
bytes 8·source + destination. -/
structure Schedule where
  lmask : Nat
  tables : List (Nat × AMap Nat)
  streams : AMap Word
  routes : List Nat
  deriving DecidableEq, Repr

/-- Byte offset of the stream table of a block with n slot tables. -/
def streamsAt (n : Nat) : Nat := 64 + 2048 * n

/-- The directions of LMASK in increasing bit order. -/
def lmaskDirs (m : Nat) : List Nat := (List.range 20).filter (bit m)

/-- Bytes of a schedule block with n slot tables (R319). -/
def scheduleBytes (n : Nat) : Nat := streamsAt n + 2048 + 64

/-- A schedule block's content. -/
def Schedule.ofBytes (b : List Byte) : Schedule :=
  let m := fieldN b 0 8
  let ds := lmaskDirs m
  let n := ds.length
  let table := fun (i : Nat) => (List.range 1024).filterMap fun k =>
    let e := fieldN b (64 + 2048 * i + 2 * k) 2
    if bit e 15 then some (k, e % 256) else none
  { lmask := m
    tables := ((List.range n).zip ds).map fun x => (x.2, table x.1)
    streams := (List.range 256).filterMap fun e =>
      let v := fieldN b (streamsAt n + 8 * e) 8
      if v = 0 then none else some (e, BitVec.ofNat 64 v)
    routes := (List.range 64).map fun i => fieldN b (streamsAt n + 2048 + i) 1 }

/-- Where a route toward a die leaves the rectangle: the routing byte that leads outside; fuel bounds the hops. -/
def routeLeaves (routes dies : List Nat) (dst : Nat) : Nat → Nat → Option Nat
  | 0, _ => none
  | fuel + 1, d =>
    if d = dst then none
    else match portTo d (routes.getD (8 * d + dst) 3) with
    | none => some (8 * d + dst)
    | some e => if dies.contains e then routeLeaves routes dies dst fuel e else some (8 * d + dst)

/-- The conditions of a schedule block for a rectangle (R319, R320, R423, structure 3). -/
def scheduleBad (b : List Byte) (dies : List Nat) : List (Bool × Nat) :=
  let c := Schedule.ofBytes b
  let n := c.tables.length
  ([(2 ^ 20 ≤ c.lmask, 0)] : List (Bool × Nat)) ++
  ((List.range 7).map fun i => (fieldN b (8 + 8 * i) 8 != 0, 8 + 8 * i)) ++
  ((List.range n).flatMap fun i =>
    (decide (1024 - (match c.tables[i]? with | some t => t.2.length | none => 0) < 64), 64 + 2048 * i) ::
    (List.range 1024).map fun k => (bits (fieldN b (64 + 2048 * i + 2 * k) 2) 14 8 != 0, 64 + 2048 * i + 2 * k)) ++
  ((List.range 256).map fun e => (decide (4096 ≤ fieldN b (streamsAt n + 8 * e) 8), streamsAt n + 8 * e)) ++
  ((List.range 64).map fun i => (decide (2 < c.routes.getD i 0), streamsAt n + 2048 + i)) ++
  dies.flatMap fun a => dies.filterMap fun d =>
    (routeLeaves c.routes dies d 8 a).map fun i => (true, streamsAt n + 2048 + i)

/-- Read a launch's schedule block; a failed read is READERR's detail. -/
def State.scheduleRead (s : State) (asid va : Nat) : Except Nat (List Byte) × State :=
  let h := s.spaceRead asid va 8
  match h.1 with
  | .error e => (.error e, h.2)
  | .ok b => h.2.spaceRead asid va (scheduleBytes (lmaskDirs (leNat b)).length)

/-! ## The values of a LAUNCH -/

/-- The schedule block that a LAUNCH names, as check 9 has read it, empty without the field (R319, R320, R421): a shape that
the Stoker may place anywhere has its routes checked once it is placed. -/
def State.scheduleOf (s : State) (q : Queue) (p : Pkt) (rect : Nat) : Except BadVal (List Byte) × State :=
  match p.field 3 with
  | none => (.ok [], s)
  | some f =>
    if f.val 0 % 4096 ≠ 0 then (.error ⟨7, 3, 3 * 2 ^ 28⟩, s)
    else
      let x := s.scheduleRead q.asid (f.val 0)
      match x.1 with
      | .error e => (.error ⟨9, 3, 3 * 2 ^ 28 + e⟩, x.2)
      | .ok b =>
        match firstBad 3 3 (scheduleBad b (if rectAny rect then [] else shapeDies rect (rect % 8))) with
        | some e => (.error e, x.2)
        | none => (.ok b, x.2)

/-- The launch header that a LAUNCH names, once it has passed check 9 (R423). -/
def State.headerOf (s : State) (q : Queue) (addr : Nat) : Except BadVal Header × State :=
  let x := s.spaceRead q.asid addr 256
  match x.1 with
  | .error e => (.error ⟨9, 1, 2 ^ 28 + e⟩, x.2)
  | .ok b =>
    match firstBad 1 1 (x.2.headerBad q.asid (Header.ofBytes addr b) b) with
    | some e => (.error e, x.2)
    | none => (.ok (Header.ofBytes addr b), x.2)

/-- The origins that a LAUNCH's shape may take: with ANY, those at which every route of its schedule stays in the rectangle
(R320, R329); at which value it is rejected when there are none. -/
def originsFor (flue : Bool) (sched : List Byte) (rect : Nat) : Except BadVal (List Nat) :=
  let bad := fun o => if flue then firstBad 3 3 (scheduleBad sched (shapeDies rect o)) else none
  match (origins rect).filter fun o => (bad o).isNone, (origins rect).filterMap bad with
  | [], b :: _ => .error b
  | os, _ => .ok os

/-- Checks 2, 9 and 10 of a LAUNCH before its rectangle is chosen (R421, R423): the header and the schedule block, or why it
is not started. Whether a shape fits the live dies comes last. -/
def State.launchValues (s : State) (q : Queue) (p : Pkt) : Except BadVal (Header × List Byte) × State :=
  match p.launchBad with
  | some b => (.error b, s)
  | none =>
    let addr := match p.field 1 with | some f => f.val 0 | none => 0
    let rect := match p.field 2 with | some f => f.val 0 | none => 0
    let x := s.headerOf q addr
    match x.1 with
    | .error b => (.error b, x.2)
    | .ok h =>
      let y := x.2.scheduleOf q p rect
      match y.1 with
      | .error b => (.error b, y.2)
      | .ok sched =>
        match originsFor (p.field 3).isSome sched rect with
        | .error b => (.error b, y.2)
        | .ok _ =>
          if (origins rect).any fun o => (shapeDies rect o).all y.2.dieLive then (.ok (h, sched), y.2)
          else (.error ⟨8, 2, 0⟩, y.2)

end Sys2Proof.Machine
end

