-- ==== Sys2Proof/Machine/Queues.lean ====
section
/-! DEFINITION. Queues of the active Stoker (R325, R326, R328, R372, R420, R424 to R431, R433): starting and completing
packets, the error state, doorbells, hardware slots, events that were lost, RESTART. -/
namespace Sys2Proof.Machine

/-! ## Starting and completing packets -/

/-- Change a queue. -/
def State.onQueue (s : State) (n : Nat) (f : Queue → Queue) : State :=
  match AMap.find? s.queues n with | some q => s.setQueue n (f q) | none => s

/-- The packet at the read index starts (R326): RIDX names the next one. -/
def State.beginPacket (s : State) (n : Nat) (q : Queue) (p : Pkt) (launch : Nat) : State :=
  let x : Started := ⟨q.next, p.type, pktEvent p.word, (List.range 5).map fun i => BitVec.ofNat 64 (p.val i), launch, q.ridx,
    BitVec.ofNat 32 p.word, false, []⟩
  let q := { q with started := q.started ++ [x], ridx := q.ridx + BitVec.ofNat 32 (4 * pktLen p.word), next := q.next + 1 }
  (s.setQueue n q).writeStatus q 0 q.ridx.toNat

/-- DONE after the packets above it that are complete (R325); fuel bounds them. -/
def doneUpTo : Nat → Word → List Nat → Word × List Nat
  | 0, d, l => (d, l)
  | fuel + 1, d, l => if l.contains (d + 1).toNat then doneUpTo fuel (d + 1) (l.erase (d + 1).toNat) else (d, l)

/-- A started packet completes (R325, R326): DONE, and a COMPLETE event when its EVENT flag is set and the caller posts. -/
def State.completePacket (s : State) (n num : Nat) (post : Bool) : State :=
  match AMap.find? s.queues n with
  | none => s
  | some q =>
    match q.started.find? fun x => x.num == num with
    | none => s
    | some x =>
      let d := doneUpTo (q.doneSet.length + 1) q.doneNum (num :: q.doneSet)
      let q := { q with started := q.started.filter (fun y => y.num != num), doneNum := d.1, doneSet := d.2 }
      let s := (s.setQueue n q).writeStatus q 8 d.1.toNat
      if post && x.event then s.postEvent n (eventBytes 1 0 n num s.time 0) else s

/-! ## The error state -/

/-- Enter the error state (R426): the record, RIDX, QSTATE and then the QERROR event. -/
def State.enterError (s : State) (n : Nat) (record : List Byte) (code num off : Nat) : State :=
  match AMap.find? s.queues n with
  | none => s
  | some q =>
    let q := { q with state := 3, record := record }
    let s := (s.setQueue n q).sendWrite (q.status + 32) record
    let s := s.writeStatus q 0 q.ridx.toNat
    let s := s.writeStatus q 16 q.qstate
    s.postEvent n (eventBytes 6 code n num s.time off)

/-- The command-error record (R425). -/
def errorRecord (num off : Nat) (e : PktErr) : List Byte :=
  leBytes 8 num ++ leBytes 4 off ++ leBytes 4 e.word ++ leBytes 4 e.fhdr ++ leBytes 4 e.foff ++ leBytes 4 e.detail ++
    leBytes 4 e.code

/-- The trap record (R372). -/
def TrapRec.bytes (r : TrapRec) : List Byte :=
  leBytes 8 (r.addr.toNat % 2 ^ 52 + 2 ^ 53 * r.coreid) ++ leBytes 4 r.d0.toNat ++ leBytes 4 r.d1.toNat ++
    leBytes 4 r.d2.toNat ++ leBytes 4 r.mask.toNat ++ leBytes 1 r.cause.toNat ++ leBytes 1 r.slot ++ leBytes 1 r.idx ++
    leBytes 1 r.flags.toNat ++ leBytes 4 0

/-- An ABORT on a queue is over once every packet that it stopped has completed (R432): the queue enters its error state with
code 11, and goes when a QUEUE packet destroys it. -/
def State.settleAbort (s : State) (n : Nat) : State :=
  match AMap.find? s.queues n with
  | none => s
  | some q =>
    match q.abort, q.started with
    | some a, [] =>
      let s := (s.setQueue n { q with abort := none }).enterError n
        (errorRecord a.num a.off.toNat ⟨11, a.word.toNat, 0, 0, 0⟩) 11 a.num a.off.toNat
      if a.remove then { s with queues := s.queues.erase n } else s
    | _, _ => s

/-- The packet at the read index fails a check (R427). -/
def State.failPacket (s : State) (n : Nat) (q : Queue) (e : PktErr) : State :=
  s.enterError n (errorRecord q.next q.ridx.toNat e) e.code q.next q.ridx.toNat

/-- A rejected value as the error of a packet (R425): the field through which the Stoker reached it. -/
def Pkt.error (p : Pkt) (b : BadVal) : PktErr :=
  match p.field b.tag with
  | some f => ⟨b.code, p.word, f.hdr, f.off, b.detail⟩
  | none => ⟨b.code, p.word, 0, 0, b.detail⟩

/-- The next packet of a queue, when the Stoker may start it now (R326, R328, R329): the queue is mapped and not in
error, no LAUNCH of it is in Reserve, all of the packet is published, and a FENCE has nothing to wait for. A packet that
fails a check puts the queue in error. -/
def State.nextPacket (s : State) (n : Nat) : Option (Queue × Pkt) × State :=
  match AMap.find? s.queues n with
  | none => (none, s)
  | some q =>
    if q.slot.isNone || q.state = 3 || q.abort.isSome || s.launches.any (fun x => x.2.phase == .reserved && x.2.queue == n) then (none, s)
    else
      let x := s.parse n q
      match x.1 with
      | none => (none, s)
      | some (.error e) => (none, x.2.failPacket n q e)
      | some (.ok p) => if pktFence p.word && !q.started.isEmpty then (none, s) else (some (q, p), x.2)

/-- Do something with the next packet of a queue when it is one that the step starts, other than a LAUNCH (R421, check 9). -/
def State.withPacket (s : State) (n : Nat) (want : Pkt → Bool) (act : Queue → Pkt → State → State) : State :=
  match s.nextPacket n with
  | (none, s) => s
  | (some (q, p), s1) =>
    if p.type = 1 then s
    else match s1.checkValues p with
    | (.error b, s2) => s2.failPacket n q (p.error b)
    | (.ok d, s2) => if want p then act q { p with desc := d } s2 else s

/-- A packet that starts and completes in one step. -/
def State.quickPacket (s : State) (n : Nat) (want : Pkt → Bool) (act : Pkt → State → State) : State :=
  s.withPacket n want fun q p s => (act p (s.beginPacket n q p 0)).completePacket n q.next true

/-- The oldest started packet of a type. -/
def Queue.oldest (q : Queue) (type : Nat) : Option Started := q.started.find? fun x => x.type == type

/-- The 64-bit value at a position of a started packet's body. -/
def Started.val (x : Started) (i : Nat) : Nat := (x.body.getD i 0).toNat

/-! ## Hardware slots -/

/-- Whether a queue has work (R328, R427). -/
def Queue.hasWork (q : Queue) : Bool := q.state != 3 && q.wr != q.ridx

/-- A queue with the whole aging intervals that it has waited counted (R328). -/
def Queue.age (q : Queue) (now : Nat) : Queue :=
  if q.state = 2 && q.ageus != 0 then { q with aged := (now - q.waitAt) / (1000 * q.ageus) } else q

/-- Every queue with its aging counted. -/
def State.ageAll (s : State) : State := { s with queues := s.queues.map fun x => (x.1, x.2.age s.time) }

/-- Effective priority (R328). -/
def Queue.eff (q : Queue) : Nat := if q.state = 2 then min 7 (q.prio + q.aged) else q.prio

/-- The free hardware slots (R15). -/
def State.freeHwSlots (s : State) : List Nat :=
  (List.range 128).filter fun k => s.queues.all fun q => q.2.slot != some k

/-- Map a queue to a free hardware slot (R328): the level's round robin goes on behind it. -/
def State.mapQueue (s : State) (n : Nat) : State :=
  match AMap.find? s.queues n with
  | none => s
  | some q =>
    let q := q.age s.time
    let k := s.pickOf s.freeHwSlots
    let s := { k.2 with rrobin := k.2.rrobin.set q.eff (n + 1) }
    (s.setQueue n { q with slot := some k.1, state := 1, mappedAt := s.time, aged := 0 }).writeQState n

/-- The state of a queue without a hardware slot (R328, R424). -/
def Queue.unmapped (q : Queue) (now : Nat) : Queue :=
  if q.state = 3 then { q with slot := none }
  else if !q.hasWork then { q with slot := none, state := 0, aged := 0 }
  else if q.state = 2 then q
  else { q with slot := none, state := 2, waitAt := now, aged := 0 }

/-- DOORBELL_WRITE (R325, R328, R433): the write offset; a queue with work is mapped at once when a slot is free. -/
def execDoorbellWrite (queue : Nat) (offset : BitVec 32) (s : State) : Host.Outcome State Fault Refusal :=
  match AMap.find? s.queues queue with
  | none => .next s
  | some q =>
    let q := { q with wr := offset }
    let s := s.setQueue queue q
    if q.slot.isSome || q.state = 3 then .next s
    else if q.hasWork && !s.freeHwSlots.isEmpty then .next (s.mapQueue queue)
    else .next ((s.setQueue queue (q.unmapped s.time)).writeQState queue)

/-- The mapped queues that give up their slots at a rotation (R328, R427): without an unparsed packet or in error, or
mapped since before the last rotation while a waiting queue has at least their priority. -/
def State.leaving (s : State) (q : Queue) : Bool :=
  q.slot.isSome && (!q.hasWork || (q.mappedAt ≤ s.rotatedAt && s.queues.any fun w => w.2.slot.isNone && w.2.hasWork && q.eff ≤ w.2.eff))

/-- Queues that wait, in the order in which a rotation maps them (R328). -/
def State.waiting (s : State) : List Nat :=
  let ws := s.queues.filter fun x => x.2.slot.isNone && x.2.hasWork
  let key := fun (x : Nat × Queue) => [7 - x.2.eff, (x.1 + 4096 - AMap.get 0 s.rrobin x.2.eff % 4096) % 4096]
  let insert := fun (l : List (Nat × Queue)) (x : Nat × Queue) =>
    l.takeWhile (fun y => !lexLt (key x) (key y)) ++ x :: l.dropWhile fun y => !lexLt (key x) (key y)
  (ws.foldl insert []).map Prod.fst

/-- SCHEDULING_ROTATION (R328): every 64 µs. -/
def execSchedulingRotation (s : State) : Host.Outcome State Fault Refusal :=
  if s.time < s.rotatedAt + 64000 then .next s
  else
    let s := s.ageAll
    let out := (s.queues.filter fun x => s.leaving x.2).map Prod.fst
    let s1 := out.foldl (fun (s : State) n => (s.onQueue n fun q => q.unmapped s.time).writeQState n) s
    let s2 := (s1.waiting.take s1.freeHwSlots.length).foldl State.mapQueue s1
    .next { s2 with rotatedAt := s.time }

/-- QUEUE_AGING (R328): the whole aging intervals that a queue has waited are counted. -/
def execQueueAging (queue : Nat) (s : State) : Host.Outcome State Fault Refusal := .next (s.onQueue queue fun q => q.age s.time)

/-! ## Doorbell registers, lost events, RESTART -/

/-- Post the OVERFLOW event of a queue (R429): one status write publishes it and clears EVLOST. -/
def State.postOverflow (s : State) (n : Nat) (q : Queue) : State :=
  let pa := s.byLivePort q.eventPa
  let t := s.takesWrite pa
  if !t.1 then t.2.loseEvent n q
  else
    let s := t.2.writePhys pa (eventBytes 7 0 n 0 s.time q.evlost.toNat)
    let q := { q with evw := q.evw + 32, evlost := 0 }
    let s := (s.setQueue n q).sendWrite (q.status + 16) (leBytes 8 q.qstate ++ leBytes 8 q.evw.toNat)
    { s with msix := s.msix ++ [n % 64] }

/-- Whether a write of EVR frees an entry of the event ring (R429): fewer bytes are left unread than before, by at least
one event's. -/
def Queue.frees (q : Queue) (evr : BitVec 32) : Bool := 32 + (q.evw - evr).toNat ≤ (q.evw - q.evr).toNat

/-- EVENT_READ_OFFSET_WRITE (R429): EVR; when it frees an entry and events were lost, one OVERFLOW event comes first. -/
def execEventReadOffsetWrite (queue : Nat) (offset : BitVec 32) (s : State) : Host.Outcome State Fault Refusal :=
  match AMap.find? s.queues queue with
  | none => .next s
  | some q =>
    let r := { q with evr := offset }
    let s := s.setQueue queue r
    .next (if r.evlost = 0 || !q.frees offset then s else s.postOverflow queue r)

/-- DOORBELL_REGISTER_WRITE (R430): NEWRIDX and NEWNUM; other offsets and other values of QCMD are ignored. -/
def execDoorbellRegisterWrite (queue offset : Nat) (value : Word) (s : State) : Host.Outcome State Fault Refusal :=
  if offset = 24 then .next (s.onQueue queue fun q => { q with newridx := BitVec.setWidth 32 value })
  else if offset = 32 then .next (s.onQueue queue fun q => { q with newnum := value })
  else .next s

/-- RESTART (R431): acts in error state only. -/
def execRestart (queue : Nat) (s : State) : Host.Outcome State Fault Refusal :=
  .next (s.onQueue queue fun q => if q.state = 3 then { q with restart := true } else q)

/-- RESTART_APPLY (R431): once every started packet has completed. -/
def execRestartApply (queue : Nat) (s : State) : Host.Outcome State Fault Refusal :=
  match AMap.find? s.queues queue with
  | none => .next s
  | some q =>
    if !q.restart || q.state != 3 || !q.started.isEmpty || q.abort.isSome then .next s
    else
      let r := q.newridx.toNat
      if r % 4 ≠ 0 || q.size < (q.wr - q.newridx).toNat then
        .next ((s.setQueue queue { q with restart := false }).enterError queue
          (errorRecord q.newnum.toNat r ⟨12, 0, 0, 0, r⟩) 12 q.newnum.toNat r)
      else
        let q := { q with ridx := q.newridx, doneNum := q.newnum - 1, doneSet := [], next := q.newnum.toNat, restart := false,
                          slot := none, state := if q.newridx = q.wr then 0 else 2, waitAt := s.time, aged := 0,
                          record := [] }
        let s := ((s.setQueue queue q).writeStatus q 0 q.ridx.toNat).writeStatus q 8 q.doneNum.toNat
        .next ((s.sendWrite (q.status + 32) (List.replicate 32 0)).writeStatus q 16 q.qstate)

end Sys2Proof.Machine
end

