-- ==== Sys2Proof/Machine/Launching.lean ====
section
/-! DEFINITION. The stages of a LAUNCH (R34, R182, R242, R260, R315, R317 to R323, R327, R329, R409, R414, R428, R445):
choosing and reserving a rectangle, commit, start and completion. -/
namespace Sys2Proof.Machine

/-! ## What a launch holds -/

/-- A core without a launch's warps, blocks, units, queued commands and Kindling entries; entries of other launches then
move into the room in its queue (R294). -/
def Core.without (c : Core) (n now : Nat) : Core :=
  let mine := fun k => let w := AMap.get Warp.free c.warps k; w.launch == n && w.kind != .hearth && w.status != .free
  let c := c.withoutSlots mine
  ({ c with
    blocks := c.blocks.filter fun b => b.2.launch != n
    units := c.units.filter fun u => u.2 != n
    kindling := c.kindling.filter fun e => e.launch != n
    overflow := c.overflow.filter fun e => e.launch != n
    hold := c.hold.filter fun h => h.launch != n } : Core).refillQueue now

/-- The warps of a launch on a core, with their slots. -/
def Core.warpsOf (c : Core) (n : Nat) : List (Nat × Warp) :=
  c.warps.filter fun x => x.2.launch == n && x.2.kind != .hearth && x.2.status != .free

/-- The link directions that a launch's schedule drives (R319, R320). -/
def Launch.links (l : Launch) : List Nat := match l.flue with | some f => lmaskDirs f.2.toNat | none => []

/-- Write a die's stream table and routing entry from a launch's schedule block (R320). A byte that leads over a lost link
is replaced by the way around it (R435). -/
def State.writeDie (s : State) (d : Nat) (c : Schedule) : State :=
  let up := fun j p => match portTo d p with | some e => d == j || (s.neighbours d).contains e | none => d == j
  let s := s.setEntry d fun j => let p := c.routes.getD (8 * d + j) 0; if up j p then p else s.liveRoute d j
  { s with streams := c.streams.foldl (fun (m : AMap Word) e => m.set (256 * d + e.1) e.2) (s.streams.filter fun x => x.1 / 256 != d) }

/-- A die's tables without a launch that gives them up: those of the launch with a FLUE field that last took the die of the
others that hold it, or none, with the default routes (R319, R428). Which wrote the die's tables last, Launch.wroteAt says. -/
def State.backTo (s : State) (n d : Nat) : State :=
  let others := s.launches.filter fun x => x.1 != n && x.2.holds && x.2.flue.isSome && x.2.dies.contains d
  match best (fun x y => y.2.wroteAt < x.2.wroteAt) others with
  | some x => s.writeDie d (Schedule.ofBytes x.2.schedule)
  | none => { s.liveEntry d with streams := s.streams.filter fun x => x.1 / 256 != d }

/-- Every slot of the link directions of a launch is best-effort again, and its dies have the tables that they had without
it (R372, R428). -/
def State.clearFlue (s : State) (n : Nat) (l : Launch) : State :=
  if l.flue.isNone || !l.holds then s
  else
    let s := { s with flue := s.flue.map fun f => (f.1, if l.links.contains f.1 then { f.2 with slots := [] } else f.2) }
    l.dies.foldl (fun s d => s.backTo n d) s

/-- A die without a launch's packets, requests and Chimney channels (R323, R372, R428). The packets of other launches get
a new chance, since cores have become free (R311). -/
def Die.without (d : Die) (n : Nat) : Die :=
  { d with
    mailbox := d.mailbox.filter fun m => m.launch != n
    incoming := d.incoming.filter fun m => m.launch != n
    placeQueue := d.placeQueue.filter fun r => match r with | .walker _ k | .hearth _ k => k != n | .unit => true
    pending := (d.pending.filter fun h => h.mail.launch != n).map fun h => { h with tried := false }
    chimney := d.chimney.filter fun c => c.2.launch != n }

/-- The module without anything of a launch on its cores, links and dies (R323, R372, R428). -/
def State.clearLaunch (s : State) (n : Nat) : State :=
  let s := (s.cores.flatMap fun c => (c.2.warpsOf n).map Prod.snd).foldl State.forgetWaiter s
  let s : State := { s with
    cores := s.cores.map fun (c : Nat × Core) => (c.1, c.2.without n s.clock)
    travel := s.travel.filter fun x => x.entry.launch != n
    dies := s.dies.map fun (d : Nat × Die) => (d.1, d.2.without n) }
  match s.launch? n with | some l => s.clearFlue n l | none => s

/-! ## Generations -/

/-- Whether a launch of a space has begun Reserve and not completed; a pre-empted one counts when asked. -/
def State.spaceBusy (s : State) (asid : Nat) (saved : Bool) : Bool :=
  s.launches.any fun x => x.2.asid == asid && (saved || x.2.phase != .saved)

/-- Change an address space. -/
def State.onSpace (s : State) (a : Nat) (f : Aspace → Aspace) : State :=
  match AMap.find? s.aspaces a with | some x => { s with aspaces := s.aspaces.set a (f x) } | none => s

/-- Advance the generation of a space (R216). -/
def State.advanceGen (s : State) (a : Nat) : State := s.onSpace a fun x => { x with gen := x.gen + 1 }

/-- The generations that are due advance once no launch of their space is running (R216, R397, R437). -/
def State.settleGens (s : State) : State :=
  let now := s.genDue.filter fun a => !s.spaceBusy a false
  { now.foldl State.advanceGen s with genDue := s.genDue.filter fun a => s.spaceBusy a false }

/-- The module once a launch is gone: its requests for mailbox places are withdrawn with it, so that ready tasks of others
may be delivered (R309). -/
def State.removeLaunch (s : State) (n : Nat) : State :=
  let s := s.clearLaunch n
  ({ s with launches := s.launches.erase n } : State).settleGens.deliverAll

/-! ## Choosing a rectangle -/

/-- Whether a launch's channels are free on a die (R322). Another launch's channel makes the LAUNCH wait (log 27). -/
def State.channelsFree (s : State) (die : Nat) (chim : List (BitVec 32)) : Bool :=
  (List.range 16).all fun ch => (chim.getD ch 0).toNat % 65536 == 0 || (AMap.find? (s.die die).chimney ch).isNone

/-- Whether a die's Hearth area has packet space for a launch beside what it holds and keeps for others (R308, R329): 128
packets of 64 B, or those of a pre-empted launch that the Damper has saved, if they are more (log 107). -/
def State.areaFits (s : State) (n d : Nat) (l : Launch) : Bool :=
  s.areaUsed d n + min hearthPlaces (max 128 (AMap.get [] l.savedPending d).length) ≤ hearthPlaces

/-- The effective priority of the LAUNCH for which a launch was pre-empted, while it is still its queue's next packet
(R330). -/
def State.asking (s : State) (y : Nat × Nat) : Option Nat :=
  match AMap.find? s.queues y.1 with
  | some q => if q.next = y.2 && q.hasWork && q.abort.isNone then some q.eff else none
  | none => none

/-- Whether the dies of a launch have been released for another LAUNCH, which still asks and has no lower priority (R330,
log 127). -/
def State.promised (s : State) (l : Launch) : Bool :=
  s.launches.any fun x => l.dies.any x.2.dies.contains && match x.2.yields with
    | none => false
    | some y => !(l.queue == y.1 && l.num == y.2) && match s.asking y with
      | some p => l.prio ≤ p
      | none => false

/-- Whether dies can hold a launch (R320, R327, R329, R330, R435): they are live and promised to no other, each has packet
space and a core on which ENG lets the launch have blocks, its channels are free, no other launch drives its link
directions, and none of those is lost. -/
def State.diesHold (s : State) (n : Nat) (l : Launch) : Bool :=
  !s.promised l && l.links.all (fun k => s.linkUp (k / 2)) &&
  l.dies.all (fun d => s.dieLive d && s.areaFits n d l && s.channelsFree d l.chim &&
    (List.range 192).any fun k => !(s.core (192 * d + k)).removed && s.engRoom (192 * d + k) n l.eng) &&
  s.launches.all fun x => x.1 == n || !x.2.holds || x.2.links.all fun k => !l.links.contains k

/-- Number of sets or workgroups of a persistent launch (R316, R317). -/
def Header.setCount (h : Header) : Nat := if h.kind = 2 then h.splitG else if h.kind = 3 then h.gsets else 0

/-- The core for set k of a persistent launch (R317): the die, the channel group, and in it the core with the most free
warp slots. -/
def State.setCoreOf (s : State) (l : Launch) (k : Nat) : Option Nat :=
  let n := l.dies.length
  let base := 192 * l.dies.getD (k % n) 0 + 12 * (k / n % 16)
  best (fun x y => s.freeSlotCount y < s.freeSlotCount x)
    (((List.range 12).map (base + ·)).filter fun c => !(s.core c).removed)

/-- Reserve the sets from k on (R317): slots, registers and scratchpad of one core each; none when one does not fit. -/
def State.placeSets (s : State) (n : Nat) : Nat → Nat → Option State
  | 0, _ => some s
  | left + 1, k =>
    match s.launch? n with
    | none => none
    | some l =>
      match s.setCoreOf l k with
      | none => none
      | some c =>
        match s.hasRoom c n l, (s.core c).freeRun l.hdr.spad with
        | true, some base =>
          let s := s.setCore c ((s.core c).takeUnits base l.hdr.spad n)
          State.placeSets (s.setLaunch n { l with sets := l.sets ++ [(k, c, base)] }) n left (k + 1)
        | _, _ => none

/-- Whether each die of a persistent launch has spill areas for all of its sets (R246). -/
def Launch.areasFit (l : Launch) : Bool :=
  l.dies.all fun d => (l.sets.filter fun x => dieOf x.2.1 == d).length * l.hdr.blockNeed.1 ≤ (l.areaRange d).2

/-- Arm a launch's channels on its dies, in phase 0 (R322, R323). -/
def State.armChimney (s : State) (n : Nat) (l : Launch) : State :=
  l.dies.foldl (fun (s : State) d =>
    let armed := (List.range 16).foldl (fun (m : AMap Channel) ch =>
      let e := (l.chim.getD ch 0).toNat
      if e % 65536 = 0 then m else m.set ch ⟨n, e % 65536, bit e 16, 0, 0⟩) (s.die d).chimney
    s.setDie d { s.die d with chimney := armed }) s

/-- Write a launch's Flue tables (R320): slot tables, and the stream table and routing entry of each of its dies. -/
def State.writeFlue (s : State) (l : Launch) (c : Schedule) : State :=
  let s := c.tables.foldl (fun (s : State) t => s.setDir t.1 { s.dir t.1 with slots := t.2 }) s
  l.dies.foldl (fun (s : State) d => s.writeDie d c) s

/-- Note that a launch's Flue tables are the last ones written (R428). -/
def State.stampFlue (s : State) (n : Nat) : State :=
  match s.launch? n with
  | some l => { s.setLaunch n { l with wroteAt := s.nextStamp } with nextStamp := s.nextStamp + 1 }
  | none => s

/-- Write a launch's Flue tables and read them back (R320, R428): a mismatch, by a free value (log 16), is tried again up to
twice, and a third names its die. -/
def State.loadFlue (s : State) (n : Nat) (l : Launch) : Nat → Except BadVal State
  | 0 => .error ⟨10, 0, 0⟩
  | left + 1 =>
    let d := s.draw l.dies.length
    match l.dies.zipIdx.find? fun x => !Config.readsBack (d.1 + x.2) with
    | none => .ok ((d.2.stampFlue n).writeFlue l (Schedule.ofBytes l.schedule))
    | some x =>
      if left = 0 then .error ⟨10, 0, x.1⟩
      else State.loadFlue (d.2.setLaunch n { l with retries := l.retries + 1 }) n { l with retries := l.retries + 1 } left

/-! ## Initial tasks -/

/-- The conditions of a task record (R388, TASK 1) with the byte offsets of their values. -/
def recordBad (r : List Byte) : List (Bool × Nat) :=
  let t := recTctl r
  [(bits t 63 56 != 0 || bits t 52 39 != 0, 8), (fieldN r 16 8 % 4 != 0, 16)] ++
  (List.range 4).map fun i =>
    let x := fieldN r (32 + 8 * i) 8
    (bits x 55 44 != 0 || (rangeMode x != 0 && (rangeS x < 8 || 40 < rangeS x || rangeStart x % 2 ^ rangeS x != 0)), 32 + 8 * i)

/-- Submit the initial tasks of a launch (R315, R423): none in the error when a dependence unit is full, which the Stoker
waits for. A range that TSUBMIT could not enter (R406) is rejected at its offset (log 28). DESIGN CHOICE (log 135): the records are
read at any INIT, and the upper half of NINIT counts for nothing. -/
def State.initTasks (s : State) (n : Nat) : Nat → Nat → Except (Option BadVal) State
  | 0, _ => .ok s
  | left + 1, a =>
    match s.launch? n with
    | none => .error none
    | some l =>
      let x := s.spaceRead l.asid a 64
      match x.1 with
      | .error e => .error (some ⟨9, 1, 4 * 2 ^ 28 + e⟩)
      | .ok r =>
        match firstBad 4 1 (recordBad r) with
        | some b => .error (some b)
        | none =>
          let q := x.2.rangePas (192 * l.dies.headD 0) l (recRanges r)
          match l.taskReason q.1 with
          | some _ => .error (some ⟨7, 1, 4 * 2 ^ 28 + 32⟩)
          | none =>
            let pas := q.1.getD []
            if 4096 ≤ q.2.unitLoad (l.holder pas).1 then .error none
            else State.initTasks (q.2.enterTask n l r pas) n left (a + 64)

/-! ## Reserve -/

/-- The routes of a launch's schedule in its rectangle, and its tables (R320): the value that Reserve rejects, if any. -/
def State.reserveFlue (s : State) (n : Nat) (l : Launch) : Except BadVal State :=
  if l.flue.isNone then .ok s
  else match firstBad 3 3 (scheduleBad l.schedule l.dies) with
    | some e => .error e
    | none => s.loadFlue n l 3

/-- Reserve a rectangle for a launch (R317, R320, R322, R329): none in the error when it does not fit now. -/
def State.reserve (s : State) (n : Nat) (l : Launch) : Except (Option BadVal) State :=
  let s := s.setLaunch n l
  if !s.diesHold n l then .error none
  else match s.placeSets n l.hdr.setCount 0 with
  | none => .error none
  | some s =>
    match s.launch? n with
    | none => .error none
    | some l =>
      if !l.areasFit then .error none
      else match s.reserveFlue n l with
      | .error e => .error (some e)
      | .ok s =>
        match s.initTasks n (if l.hdr.kind = 1 then l.hdr.ninit else 0) l.hdr.init.toNat with
        | .error e => .error e
        | .ok s => .ok (s.armChimney n l)

/-- A launch as its packet and its header name it (R244, R310, R327, R329), before its rectangle is chosen. -/
def State.launchOf (s : State) (n : Nat) (q : Queue) (p : Pkt) (h : Header) (sched : List Byte) : Launch :=
  let val := fun tag i => match p.field tag with | some f => f.val i | none => 0
  { queue := n
    hwSlot := q.slot.getD 0
    num := q.next
    off := q.ridx
    word := BitVec.ofNat 32 p.word
    asid := q.asid
    gen := match AMap.find? s.aspaces q.asid with | some a => a.gen | none => 0
    prio := q.prio
    hdr := h
    code := []
    dies := []
    eng := rectEng (val 2 0)
    flue := (p.field 3).map fun f => (BitVec.ofNat 64 (f.val 0), BitVec.ofNat 64 (fieldN sched 0 8))
    schedule := sched
    chim := match p.field 4 with | some f => f.body.map (BitVec.ofNat 32) | none => []
    kovf := BitVec.ofNat 64 (val 5 0)
    kovfSize := val 5 1
    save := BitVec.ofNat 64 (val 6 0)
    saveSize := val 6 1
    phase := .reserved
    order := 0
    retries := 0
    reservedAt := s.time
    wroteAt := 0
    tick := 0
    sets := []
    started := []
    walkers := []
    pend := []
    dones := []
    ntot := 0
    walkStop := false
    listed := []
    faultsPosted := 0
    faultPostAt := 0
    discards := []
    faulting := none
    tasks := []
    ready := []
    nextHandle := 1
    contribs := []
    epochsDone := 0
    areas := []
    trap := none
    trapAt := 0
    aborted := false
    yields := none
    resumed := false
    waiting := none
    failed := false
    savedCores := []
    savedPending := []
    savedChimney := [] }

/-- The first of several origins at which a launch can be reserved (R329), or the value that Reserve rejects. -/
def State.reserveAny (s : State) (n : Nat) (l : Launch) (rect : Nat) : List Nat → Except (Option BadVal) State
  | [] => .error none
  | o :: os =>
    match s.reserve n { l with dies := shapeDies rect o } with
    | .ok t => .ok t
    | .error (some b) => .error (some b)
    | .error none => State.reserveAny s n l rect os

/-- The origins that a LAUNCH's shape may take. -/
def Launch.originsFor (l : Launch) (rect : Nat) : Except BadVal (List Nat) := Machine.originsFor l.flue.isSome l.schedule rect

/-- Whether a generation that is due, or a started GENADV or set root of a space, holds its later launches back (R210, R216,
R242). -/
def State.spaceHeld (s : State) (asid : Nat) : Bool :=
  s.genDue.contains asid || s.queues.any fun q => q.2.started.any fun x =>
    (x.type == 6 && x.val 0 == asid) || (x.type == 8 && x.val 1 == 2 && x.val 0 == asid)

/-! ## Commit and start -/

/-- LAUNCH_COMMIT (R329): every die has confirmed. The packet has started; K is at least 4 ticks on (log 29), and
instruction fetch sees memory as it stands now (R87). -/
def execLaunchCommit (launch : Nat) (s : State) : Host.Outcome State Fault Refusal :=
  match s.launch? launch with
  | none => .next s
  | some l =>
    match l.phase, AMap.find? s.queues l.queue with
    | .reserved, some q =>
      if q.state = 3 then .next s
      else
      let d := s.draw 1
      let s := d.2.beginPacket l.queue q ⟨l.word.toNat, [], []⟩ launch
      let s := s.setLaunch launch { l with phase := .committed, order := s.nextOrder, tick := s.ticks + 4 + Config.pick d.1, code := s.mem }
      .next { s with nextOrder := s.nextOrder + 1 }
    | _, _ => .next s

/-- First and end iteration of workgroup g of a split walk (R34). -/
def Header.span (h : Header) (g : Nat) : Nat × Nat :=
  let total := h.splitT * h.splitI
  (g * total / h.splitG, (g + 1) * total / h.splitG)

/-- The fix-up bitmap (R34, R260): bit t is set for a tile whose iterations fall in more than one workgroup. -/
def Header.fixupBytes (h : Header) : List Byte :=
  let cuts := (List.range h.splitG).map fun g => (h.span g).1
  let split := fun t => cuts.any fun c => t * h.splitI < c && c < (t + 1) * h.splitI
  (List.range ((h.splitT + 7) / 8)).map fun i =>
    BitVec.ofNat 8 ((List.range 8).foldl (fun n j => if 8 * i + j < h.splitT && split (8 * i + j) then n + 2 ^ j else n) 0)

/-- The distributor writes the bitmap (R260, R445). -/
def State.writeFixup (s : State) (die n : Nat) (l : Launch) : Except LaunchErr State :=
  let b := l.hdr.fixupBytes
  let r := s.engRange (192 * die) n l.hdr.fixup.toNat b.length true false
  match r.1 with
  | .error e => .error (launchErr (dieAgent die) 1 e)
  | .ok ps => .ok (r.2.writePieces ps b)

/-- WIDFMT of a split walk or a gang (R23): N = 1. Field 0 is as wide as the header says, or 32 bits where it says nothing
(log 109). -/
def Header.setFmt (h : Header) : Word :=
  let f := h.widfmt.toNat
  let w := if bits f 38 36 = 0 || bits f 5 0 = 0 then 32 else bits f 5 0
  BitVec.ofNat 64 (2 ^ 36 + w)

/-- Start a die's sets or workgroups from their reservations (R23, R34, R35, R317). -/
def State.startSets (s : State) (die n : Nat) (l : Launch) : State :=
  (l.sets.filter fun x => dieOf x.2.1 == die).foldl (fun (s : State) x =>
    let args := if l.hdr.kind = 2 then
        [BitVec.ofNat 64 (l.hdr.span x.1).1, BitVec.ofNat 64 (l.hdr.span x.1).2, BitVec.ofNat 64 l.hdr.splitI] else []
    s.startBlock x.2.1 n l (BitVec.ofNat 64 x.1) l.hdr.setFmt l.hdr.entry args x.2.2 none) s

/-- A walker at the start of its walk (R252). -/
def Walker.fresh (rank : Nat) : Walker where
  rank := rank
  ready := false
  desc := 0
  ptab := 0
  first := 0
  stop := 0
  next := 0
  retry := []
  pass := []
  claimed := false
  pausedAt := none
  met := []
  claims := []
  migSince := []
  out := none
  listing := none
  stopKnown := false
  waiting := none

/-- The launch once a die has started (R329). -/
def Launch.startOn (l : Launch) (die : Nat) : Launch :=
  { l with
    phase := .running
    started := die :: l.started
    walkers := if l.hdr.kind = 0 && !l.resumed then l.walkers.set die (Walker.fresh (l.rank die)) else l.walkers }

/-- Whether a launch's distributor still has the bitmap to write before its dies start (R260). -/
def Launch.distributes (l : Launch) : Bool := !l.resumed && l.hdr.kind == 2 && l.started.isEmpty

/-- What a die starts for a launch (R329): its walker, its tasks, or its sets; the distributor first writes the bitmap. A
resumed launch only has its warps enabled again (R333). -/
def State.startDie (s : State) (die n : Nat) (l : Launch) : State :=
  if l.resumed then (s.setLaunch n (l.startOn die)).deliverOn die
  else
    let w : Except LaunchErr State := if l.distributes then s.writeFixup die n l else .ok s
    match w with
    | .error e => s.launchFailed die n e
    | .ok s =>
      let s := s.setLaunch n (l.startOn die)
      if l.hdr.kind = 1 then s.deliverOn die else if 2 ≤ l.hdr.kind then s.startSets die n l else s

/-- Whether a die may start for a launch now (R329): it is committed, tick K has begun, and nothing stops it or makes its
distributor wait (R445). What a die that has started waits for holds no other back (R18). -/
def State.mayStart (s : State) (die : Nat) (l : Launch) : Bool :=
  (l.phase == .committed || l.phase == .running) && l.dies.contains die && !l.started.contains die && l.tick ≤ s.ticks &&
    l.trap.isNone && !l.aborted && !(l.distributes && l.waiting.isSome) && s.dieLive die

/-- GANG_START (R329): from tick K on. -/
def execGangStart (launch die : Nat) (s : State) : Host.Outcome State Fault Refusal :=
  match s.launch? launch with
  | none => .next s
  | some l => .next (if s.mayStart die l then s.startDie die launch l else s)

/-- Start a die for a launch if it may. -/
def State.startIf (s : State) (n die : Nat) : State :=
  match s.launch? n with
  | some l => if s.mayStart die l then s.startDie die n l else s
  | none => s

/-- The dies of committed launches that have not started before tick K + 4 begins start now (R5, R18, R329). -/
def State.startLate (s : State) : State :=
  (s.launches.filter fun x => x.2.tick + 4 ≤ s.ticks + 1).foldl (fun s x => x.2.dies.foldl (fun s d => s.startIf x.1 d) s) s

/-- RESERVE_TIMEOUT (R428): a die has not confirmed within 1 ms; the third failure ends the LAUNCH. -/
def execReserveTimeout (launch die : Nat) (s : State) : Host.Outcome State Fault Refusal :=
  match s.launch? launch with
  | none => .next s
  | some l =>
    if l.phase != .reserved || !l.dies.contains die || s.time < l.reservedAt + 1000000 then .next s
    else if l.retries < 2 then .next (s.setLaunch launch { l with retries := l.retries + 1, reservedAt := s.time })
    else
      let s := s.removeLaunch launch
      match AMap.find? s.queues l.queue with
      | some q => .next (s.failPacket l.queue q ⟨10, l.word.toNat, 0, 0, die⟩)
      | none => .next s

/-! ## The resume cursor -/

/-- The lowest index of a walker's range that the launch has not carried through to DONE (R414). -/
def Walker.low (w : Walker) : Nat := (w.retry ++ w.pass ++ w.met ++ w.claims).foldl min w.next

/-- Number of records of the walked tensor, read from its descriptor when no walker has read it yet. -/
def State.recordCount (s : State) (n : Nat) (l : Launch) : Nat :=
  if l.ntot ≠ 0 then l.ntot
  else
    let t := s.readItem s.stokerDie n (l.hdr.ttab.toNat + 8 * (l.hdr.walk.toNat % 16)) 8
    match t.1 with
    | .error _ => 0
    | .ok tb => match (t.2.readItem s.stokerDie n (leNat tb) 512).1 with | .ok d => tileCount d | .error _ => 0

/-- LOW of a rank (R414). -/
def Launch.cursorLow (l : Launch) (ntot : Nat) (stopped : Bool) (k : Nat) : Nat :=
  let d := l.dies.length
  if d ≤ k then 0
  else if !stopped then (k + 1) * ntot / d
  else match AMap.find? l.walkers (l.dies.getD k 0) with
    | some w => if w.ready then w.low else k * ntot / d
    | none => k * ntot / d

/-- The bytes of the resume cursor (R413, R414). -/
def Launch.cursorBytes (l : Launch) (ntot : Nat) (stopped : Bool) : List Byte :=
  leBytes 8 (l.hdr.tag.toNat + 2 ^ 32 * (l.dies.length - 1) + if stopped then 2 ^ 35 else 0) ++ leBytes 8 ntot ++
    (List.range 8).flatMap (fun k => leBytes 4 (l.cursorLow ntot stopped k)) ++ leBytes 16 0

/-- The Stoker writes a walked launch's resume cursor (R414, R445). -/
def State.writeCursor (s : State) (n : Nat) (l : Launch) (stopped : Bool) : Except LaunchErr State :=
  if l.hdr.kind ≠ 0 || l.hdr.resume = 0 || l.failed then .ok s
  else
    let p := s.itemPa s.stokerDie n l.hdr.resume.toNat 1
    match p.1 with
    | .error e => .error e
    | .ok pa => .ok (p.2.writePhys pa (l.cursorBytes (p.2.recordCount n l) stopped))

/-! ## Completion -/

/-- Whether nothing of a launch is left to do (R242). -/
def State.launchIdle (s : State) (n : Nat) (l : Launch) : Bool :=
  s.cores.all (fun c => (c.2.warpsOf n).isEmpty && c.2.blocks.all (fun b => b.2.launch != n) &&
    (c.2.kindling ++ c.2.overflow).all fun e => e.launch != n) &&
  s.travel.all (fun x => x.entry.launch != n) && l.dones.isEmpty && l.discards.isEmpty && l.faulting.isNone &&
  l.trap.isNone && !l.aborted && l.waiting.isNone &&
  s.sourcesDone n l

/-- The end of a launch closes every epoch (R182). -/
def State.applyAll (s : State) (n : Nat) : State :=
  match s.launch? n with
  | none => s
  | some l => if l.contribs.isEmpty then s else s.applyEpoch n (l.contribs.foldl (fun e c => max e c.epoch) 0)

/-- The WALKFAULT events at completion (R409): kind 1 for a stopped walk; kind 2 when COUNT has grown since the last. -/
def State.finalWalkfault (s : State) (n : Nat) (l : Launch) : State :=
  if l.hdr.kind ≠ 0 then s
  else
    let count := s.faultCount n l
    if l.walkStop then s.walkfaultEvent n 1 l count
    else if l.hdr.policy ≠ 0 && l.faultsPosted < count then s.walkfaultEvent n 2 l count
    else s

/-- The launch has ended: the cursor, the events, and DONE (R242, R409, R410, R414, R445). -/
def State.endLaunch (s : State) (n : Nat) (l : Launch) : State :=
  let s := s.applyAll n
  match s.writeCursor n l l.walkStop with
  | .error (.wait va wr) => s.launchFailed s.stokerDie n (.wait va wr)
  | .error (.stop r) => (s.setLaunch n { l with failed := true, contribs := [] }).recordTrap n r
  | .ok s =>
    let s := s.finalWalkfault n l
    (s.removeLaunch n).completePacket l.queue l.num true

/-- LAUNCH_COMPLETE (R242). -/
def execLaunchComplete (launch : Nat) (s : State) : Host.Outcome State Fault Refusal :=
  match s.launch? launch with
  | none => .next s
  | some l => if l.phase == .running && s.launchIdle launch l then .next (s.endLaunch launch l) else .next s

end Sys2Proof.Machine
end

