-- ==== Sys2Proof/Machine/Preempt.lean ====
section
/-! DEFINITION. Stopping a launch and pre-emption (R276, R286, R303, R307, R330 to R334, R372, R373, R414, R443): the LAUNCH
packet with its choice of a victim, the Damper's save, the resumption, and the stop by a trap. -/
namespace Sys2Proof.Machine

/-! ## What a die waits for before it acknowledges -/

/-- Whether what keeps an exit decrement of a warp waits for a page itself (R391, R405). -/
def Core.stuck (c : Core) (slot : Nat) (w : Warp) : Bool :=
  (w.exitDecs.any fun d => d.waiting) || (c.copyq.any fun x => x.slot == slot && x.waiting.isSome) ||
    c.stackq.any fun x => x.slot == slot && x.waiting.isSome

/-- Whether a core has acknowledged the stop of a launch (R303, R331): its memory requests and exit decrements are done, and a
stack command that has started is complete, or stands at an absent page (R391). A save also waits until every empty
register is filled (R62); a stop that discards does not wait for what waits for a page itself (log 123). -/
def Core.still (c : Core) (n : Nat) (save : Bool) : Bool :=
  ((c.warpsOf n).all fun x => x.2.inflight.isEmpty && (x.2.exitDecs.isEmpty || (!save && c.stuck x.1 x.2)) &&
    (!save || (x.2.kEmpty.isEmpty && x.2.vEmpty.isEmpty && x.2.vtokWaits == 0))) &&
  c.stackq.all fun x => x.launch != n || !x.started || x.waiting.isSome

/-- Whether a walker has acknowledged (R331): it has finished the record in hand, including its delivery. A stop that
discards its packets does not wait for the delivery, nor for a page that the walker waits for. -/
def Walker.still (w : Walker) (save : Bool) : Bool :=
  if save then w.out.isNone && w.listing.isNone else w.listing.isNone || w.waiting.isSome

/-- Whether the live dies of a launch have acknowledged its stop (R331, R334): every packet, child and memory request of it
has arrived, every retired block's tile has its DONE (R258), and the tiles that an HWERR ended are handled before a save
(R396), but for one that waits for room in a retry list (R254). -/
def State.halted (s : State) (n : Nat) (l : Launch) (save : Bool) : Bool :=
  s.travel.all (fun x => x.entry.launch != n || s.dieLost (dieOf x.core)) &&
  s.dies.all (fun d => s.dieLost d.1 || d.2.incoming.all fun m => m.launch != n) &&
  s.cores.all (fun c => s.dieLost (dieOf c.1) || c.2.still n save) &&
  l.walkers.all (fun x => s.dieLost x.1 || x.2.still save) && l.dones.all (fun x => s.dieLost x.2) &&
  (!save || (l.discards.isEmpty && (l.faulting.isNone || l.tileWaits))) && l.waiting.isNone

/-! ## The stop of a launch -/

/-- Step 2 of R372 once the cursor is written (R182): the end closes every epoch, and everything of the launch is discarded. -/
def State.discardLaunch (s : State) (n : Nat) : State := (s.applyAll n).removeLaunch n

/-- Withdraw the LAUNCH of a queue that is in Reserve (R334, R427, R428, R432). -/
def State.withdraw (s : State) (n : Nat) : State :=
  (s.launches.filter fun x => x.2.queue == n && x.2.phase == .reserved).foldl (fun s x => s.removeLaunch x.1) s

/-- Steps 3 and 4 of R372, and the error state: the first error of a queue keeps the record (R433), and a later LAUNCH of the
queue that is in Reserve does not start (R427). -/
def State.reportTrap (s : State) (l : Launch) (r : TrapRec) : State :=
  match AMap.find? s.queues l.queue with
  | none => s
  | some q =>
    let first := q.state ≠ 3
    let s := if first then (s.withdraw l.queue).sendWrite (q.status + 32) r.bytes else s
    let s := s.completePacket l.queue l.num false
    let s := s.postEvent l.queue (eventBytes 3 0 l.queue l.num s.time 0)
    if first then s.enterError l.queue r.bytes 0 l.num l.off.toNat else s

/-- The WALKFAULT event of a failed completion (R409): kind 2 when COUNT has grown since the last. -/
def State.failedWalkfault (s : State) (n : Nat) (l : Launch) : State :=
  let count := s.faultCount n l
  if l.hdr.kind = 0 && l.hdr.policy ≠ 0 && l.faultsPosted < count then s.walkfaultEvent n 2 l count else s

/-- A launch that has stopped ends: under an ABORT its packet completes as failed without a record (R432), and else the trap
is reported (R372). -/
def State.endStop (s : State) (n : Nat) (l : Launch) : State :=
  let s := (s.failedWalkfault n l).discardLaunch n
  match l.aborted, l.trap with
  | false, some r => (s.reportTrap l r).settleAbort l.queue
  | _, _ => (s.completePacket l.queue l.num true).settleAbort l.queue

/-- A pre-empted launch comes under the generation that its space has now (R216). -/
def State.renewed (s : State) (n : Nat) (l : Launch) : State × Launch :=
  match l.phase == .saved, AMap.find? s.aspaces l.asid with
  | true, some a => let l := { l with gen := a.gen }; (s.setLaunch n l, l)
  | _, _ => (s, l)

/-- The cursor of a launch that has acknowledged, and its end (R414, R445): its write waits on a page with V = 0, and any other
failure of it changes nothing more. A pre-empted launch's cursor is written under its space's generation (R216). -/
def State.finishStop (s : State) (n : Nat) (l : Launch) : State :=
  let (s, l) := s.renewed n l
  match s.writeCursor n l true with
  | .error (.wait va wr) => s.launchFailed s.stokerDie n (.wait va wr)
  | .error (.stop _) => s.endStop n l
  | .ok t => t.endStop n l

/-- The Damper begins to stop a launch (R331): its dependence entries are delivered no further, and others' may be. -/
def State.damp (s : State) (n : Nat) (l : Launch) : State := (s.setLaunch n { l with phase := .stopping }).deliverAll

/-- LAUNCH_TRAP_STOP (R372, R432): the Damper stops the engines of a launch whose trap has reached the Stoker or that an ABORT
stops; once its dies have acknowledged, it ends. One that the Damper has saved has no engines. -/
def execLaunchTrapStop (launch : Nat) (s : State) : Host.Outcome State Fault Refusal :=
  match s.launch? launch with
  | none => .next s
  | some l =>
    if (l.trap.isNone && !l.aborted) || l.phase == .reserved then .next s
    else if l.phase == .saved then .next (if l.waiting.isNone then s.finishStop launch l else s)
    else if l.phase == .stopping then .next (if s.halted launch l false then s.finishStop launch l else s)
    else .next (s.damp launch l)

/-! ## The sum of R332 -/

/-- Bytes that a core adds to the sum (R332). -/
def Core.saveNeed (c : Core) (n : Nat) (eng : Bool) : Nat :=
  let ws := c.warpsOf n
  if ws.isEmpty then 0
  else 16384 + 4096 * (c.units.filter fun u => u.2 == n).length + (if eng then 836 * 1024 else 0) + 4096 * ws.length

/-- The sum of R332 for a launch's state now. -/
def State.saveNeed (s : State) (n : Nat) (l : Launch) : Nat :=
  65536 * l.dies.length + s.cores.foldl (fun k c => k + c.2.saveNeed n l.eng) 0 + 64 * l.contribs.length

/-! ## The LAUNCH packet -/

/-- Whether a launch may be pre-empted for one of a higher priority (R330, R334): it runs on all its dies, or is still in
Reserve, and its SAVE area holds the sum. -/
def State.preemptable (s : State) (n : Nat) (l : Launch) (prio : Nat) : Bool :=
  l.prio < prio && l.trap.isNone && !l.aborted && 0 < l.saveSize && s.saveNeed n l ≤ l.saveSize &&
    (l.phase == .reserved || (l.phase == .running && l.dies.all (l.started.contains ·)))

/-- The victim of R330: among those whose release makes room at one of some origins, the lowest priority and then the most
recent commit. DESIGN CHOICE (log 144): one in Reserve counts as the most recent, and among several such any. -/
def State.victim (s : State) (n : Nat) (l : Launch) (prio rect : Nat) (os : List Nat) : Option (Nat × Launch) :=
  let key := fun (x : Nat × Launch) => [x.2.prio, if x.2.phase == .reserved then 0 else s.nextOrder - x.2.order]
  let cs := s.launches.filter fun x => s.preemptable x.1 x.2 prio &&
    (match (s.removeLaunch x.1).reserveAny n l rect os with | .error none => false | _ => true)
  best (fun x y => lexLt (key x) (key y)) cs

/-- Reserve a LAUNCH's rectangle under its number. -/
def State.startAt (s : State) (n : Nat) (l : Launch) (rect : Nat) (os : List Nat) : Except (Option BadVal) State :=
  match s.reserveAny n l rect os with
  | .ok t => .ok { t with nextLaunch := n + 1 }
  | .error e => .error e

/-- A LAUNCH for which no rectangle fits now (R329, R330, R334): it waits, after asking for a launch of lower priority to
give way, whose rectangle is then kept for it. One in Reserve is withdrawn at once, and the LAUNCH takes its place. DESIGN
CHOICE (log 144): while a launch is still stopping none is asked. -/
def State.makeWay (s : State) (n : Nat) (l : Launch) (prio rect : Nat) (os : List Nat) : Except (Option BadVal) State :=
  if s.launches.any fun x => x.2.phase == .stopping then .ok s
  else match s.victim n l prio rect os with
  | none => .ok s
  | some v =>
    if v.2.phase == .reserved then (s.removeLaunch v.1).startAt n l rect os
    else .ok (s.damp v.1 { v.2 with yields := some (l.queue, l.num) })

/-- The LAUNCH packet at a queue's read index (R329): checks, choice of a rectangle, and Reserve. A third readback mismatch
has drawn its free values. -/
def State.startLaunch (s : State) (n : Nat) (q : Queue) (p : Pkt) : State :=
  let v := s.launchValues q p
  match v.1 with
  | .error b => v.2.failPacket n q (p.error b)
  | .ok (h, sched) =>
    if v.2.spaceHeld q.asid then s
    else
      let k := s.nextLaunch
      let l := v.2.launchOf n q p h sched
      let rect := match p.field 2 with | some f => f.val 0 | none => 0
      match l.originsFor rect with
      | .error b => v.2.failPacket n q (p.error b)
      | .ok os =>
        match v.2.startAt k l rect os with
        | .ok t => t
        | .error (some b) => (v.2.draw 24).2.failPacket n q (p.error b)
        | .error none =>
          match s.makeWay k l q.eff rect os with
          | .ok t => t
          | .error (some b) => (v.2.draw 24).2.failPacket n q (p.error b)
          | .error none => s

/-- LAUNCH (R329). -/
def execLaunch (queue : Nat) (s : State) : Host.Outcome State Fault Refusal :=
  match s.nextPacket queue with
  | (none, t) => .next t
  | (some (q, p), t) => .next (if p.type = 1 then t.startLaunch queue q p else s)

/-! ## Save -/

/-- Write the resident frames of a warp to its spill area as spill records, the current frame among them, unless it has been
spilled already (R48, R332). A page that takes no write leaves the rest unwritten. -/
def State.spillAll (s : State) (core : Nat) (w : Warp) : State :=
  match s.spillFrames core w false (if w.residents = 0 then [] else w.below ++ [⟨w.base, w.m, 0, w.links.head?⟩]) with
  | .ok (t, _) => t
  | .error _ => s

/-- Write a core's Kindling queue at the head of its overflow slice, ahead of the entries there (R307). -/
def State.drainKindling (s : State) (core n : Nat) (l : Launch) : State :=
  let c := s.core core
  let es := c.kindling.filter fun e => e.launch == n
  let mine := (c.overflow.filter fun e => e.launch == n).length
  let cap := l.sliceCap
  if cap < es.length + mine then s
  else
    let head := AMap.get 0 c.ovfTail n + cap * (es.length + mine + 1) - mine - es.length
    ((List.range es.length).zip es).foldl (fun s x => s.writeSlice core l (head + x.1) x.2) s

/-- A warp as it is saved (R286, R334, R363): a JOINW registration ends with the save, and a warp in SORTWAIT or at a
translation fault issues its instruction again. -/
def Warp.saved (w : Warp) : Warp :=
  match w.park with
  | some (.join va pa _ _) => { w with park := some (.join va pa false false) }
  | some (.sort _) | some (.xlate _) => { w with park := none }
  | _ => w

/-- What the Damper saves of a core (R276, R286, R307, R332). -/
def Core.only (c : Core) (n : Nat) : Core :=
  let mine := fun k => (c.warpsOf n).any fun x => x.1 == k
  let owns := fun a => AMap.find? c.units (a / 4096) == some n
  { c with
    warps := (c.warpsOf n).map fun x => (x.1, x.2.saved)
    blocks := c.blocks.filter fun b => b.2.launch == n
    units := c.units.filter fun u => u.2 == n
    spad := c.spad.filter fun b => owns b.1
    spadPoison := c.spadPoison.filter fun g => owns (64 * g)
    copyq := c.copyq.filter fun x => mine x.slot
    stackq := c.stackq.filter fun x => mine x.slot
    mqueue := c.mqueue.filter fun x => mine x.slot
    rqueue := c.rqueue.filter fun x => mine x.slot
    matFailed := c.matFailed.filter fun x => mine x.slot
    sortFailed := c.sortFailed.filter fun x => mine x.slot
    vtoks := c.vtoks.map fun e => (e.1, e.2.filter fun x => mine x.1)
    kindling := c.kindling.filter fun e => e.launch == n
    overflow := c.overflow.filter fun e => e.launch == n
    hold := []
    issuedNow := [] }

/-- Whether a core holds anything of a launch. -/
def Core.has (c : Core) (n : Nat) : Bool :=
  !(c.warpsOf n).isEmpty || c.blocks.any (fun b => b.2.launch == n) || (c.kindling ++ c.overflow).any fun e => e.launch == n

/-- PREEMPT_SAVE's effect (R331, R332): spill areas, overflow slices and the save area take the state, each Hearth has moved
the launch's mailbox packets to the front of its pending ones, and the rectangle is released. -/
def State.save (s : State) (n : Nat) (l : Launch) : State :=
  let saved := (s.cores.filter fun c => c.2.has n).map fun c => (⟨c.1, c.2.only n⟩ : SavedCore)
  let mail := s.dies.filterMap fun d =>
    let m := (d.2.mailbox ++ d.2.pending.map (·.mail)).filter fun m => m.launch == n
    if m.isEmpty then none else some (d.1, m)
  let chim := s.dies.filterMap fun d =>
    let m := d.2.chimney.filter fun c => c.2.launch == n
    if m.isEmpty then none else some (d.1, m)
  let need := s.saveNeed n l
  let s := s.cores.foldl (fun (s : State) c => (c.2.warpsOf n).foldl (fun (s : State) x =>
    if x.2.status = .live then s.spillAll c.1 x.2 else s) s) s
  let s := (s.cores.map Prod.fst).foldl (fun s c => s.drainKindling c n l) s
  let d := s.draw need
  let s := d.2.writeVirt (192 * l.dies.headD 0) n l.save.toNat ((List.range need).map fun i => Config.saveByte (d.1 + i))
  ((s.clearLaunch n).setLaunch n
    { l with phase := .saved, sets := [], savedCores := saved, savedPending := mail, savedChimney := chim }).settleGens.deliverAll

/-- PREEMPT_SAVE (R331, R332): once the module has acknowledged. -/
def execPreemptSave (launch : Nat) (s : State) : Host.Outcome State Fault Refusal :=
  match s.launch? launch with
  | none => .next s
  | some l =>
    if l.phase == .stopping && l.trap.isNone && !l.aborted && s.halted launch l true then .next (s.save launch l) else .next s

/-! ## Resumption -/

/-- Whether a core has the slots, registers and units that a saved core of a launch needs, its block warps below the child
reserve (R26, R330, log 30). -/
def State.coreFits (s : State) (n : Nat) (l : Launch) (x : SavedCore) : Bool :=
  let c := s.core x.core
  let p := s.pledged x.core
  let block := x.content.blockUse
  let regs := x.content.warps.foldl (fun k w => k + w.2.held) 0
  !c.removed && s.engRoom x.core n l.eng && x.content.warps.all (fun w => !(AMap.get Warp.free c.warps w.1).takesSlot &&
    (w.1 < 48 || (AMap.find? c.warps w.1).isNone)) &&
  x.content.units.all (fun u => (AMap.find? c.units u.1).isNone) &&
  c.usedRegs + p.2 + c.held.2 + regs ≤ 1536 &&
  (x.content.warps.filter fun w => w.2.takesSlot).length + p.1 + c.held.1 ≤ c.freeSlots.length &&
  c.blockUse.1 + p.1 + block.1 ≤ (blockLimit x.core).1 && c.blockUse.2 + p.2 + block.2 ≤ (blockLimit x.core).2

/-- Whether the dependence units of a launch's dies have room for its saved entries (R314, R332). -/
def State.unitsFit (s : State) (l : Launch) : Bool :=
  l.dies.all fun d => s.unitLoad d + (l.tasks.filter fun t => t.die == d).length ≤ 4096

/-- A core with a launch's saved content put back (R276, R286, R307, R333): interrupted and queued commands come first, and one
that stood at an absent page tries it again (log 122). The launch has had warps there, so that its next one clears no tags
(R150). DESIGN CHOICE (log 143): its entries that the queue does not hold come before those of other launches in the slices. -/
def Core.restore (c x : Core) (n : Nat) (eng : Bool) (now : Nat) : Core :=
  let owns := fun a => (AMap.find? x.units (a / 4096)).isSome
  let es := (x.kindling ++ x.overflow).map fun e => { e with arrived := now }
  let k := 2048 - c.kindling.length
  let c := { c with
    warps := x.warps.foldl (fun (m : AMap Warp) w => m.set w.1 w.2) c.warps
    blocks := x.blocks.foldl (fun (m : AMap Block) b => m.set b.1 b.2) c.blocks
    units := x.units.foldl (fun (m : AMap Nat) u => m.set u.1 u.2) c.units
    spad := x.spad.foldl (fun (m : Memory) b => m.write b.1 b.2) (c.spad.filter fun b => !owns b.1)
    spadPoison := (c.spadPoison.filter fun g => !owns (64 * g)) ++ x.spadPoison
    admitted := n :: c.admitted.filter (· != n)
    tags := x.tags
    tagPtr := x.tagPtr
    tokens := x.tokens
    copyq := (x.copyq.map fun y => { y with waiting := none }) ++ c.copyq
    stackq := (x.stackq.map fun y => { y with waiting := none }) ++ c.stackq
    mqueue := x.mqueue ++ c.mqueue
    rqueue := x.rqueue ++ c.rqueue
    matFailed := x.matFailed ++ c.matFailed
    sortFailed := x.sortFailed ++ c.sortFailed
    vtoks := x.vtoks.foldl (fun (m : AMap (List (Nat × Nat))) e => m.set e.1 (e.2 ++ AMap.get [] m e.1)) c.vtoks
    kindling := c.kindling ++ es.take k
    overflow := es.drop k ++ c.overflow }
  if eng then
    { c with acc := x.acc, accPoison := x.accPoison, scale := x.scale, scalePoison := x.scalePoison, bank0 := x.bank0, bank1 := x.bank1,
             bankPoison0 := x.bankPoison0, bankPoison1 := x.bankPoison1, tabBank := x.tabBank, mseq := x.mseq, govern := x.govern,
             latchA := x.latchA, latchS := x.latchS, mxflags := x.mxflags, riddle := x.riddle, rIssued := x.rIssued, routes := x.routes }
  else c

/-- A resumed JOINW waits again (R302, R334): its counter's address is translated anew (R216), and it registers when the die
has room and reads its counter again. Where the address does not translate, the JOINW issues again. -/
def State.rejoin (s : State) (core slot n : Nat) : State :=
  let w := s.warpAt core slot
  match w.park with
  | some (.join va _ _ _) =>
    let r := s.engAddr core n va.toNat false false
    match r.1 with
    | .error _ => r.2.setWarpAt core slot { w with park := none }
    | .ok pa =>
      let d := r.2.die (paDie pa)
      if d.waiters < 4096 then
        (r.2.setDie (paDie pa) { d with waiters := d.waiters + 1 }).setWarpAt core slot { w with park := some (.join va pa true true) }
      else r.2.setWarpAt core slot { w with park := some (.join va pa false false) }
  | _ => s

/-- Put a saved core back. -/
def State.restoreCore (s : State) (n : Nat) (l : Launch) (x : SavedCore) : State :=
  let s := s.setCore x.core ((s.core x.core).restore x.content n l.eng s.clock)
  (x.content.warps.map Prod.fst).foldl (fun s k => s.rejoin x.core k n) s

/-- The launch as it resumes (R216, R333): under the space's generation, and its dies enable its warps again at a commit tick
that the Stoker chooses as for a commit (R329, log 29). -/
def Launch.resume (l : Launch) (gen : BitVec 16) (code : Memory) (tick : Nat) : Launch :=
  { l with phase := .committed, resumed := true, yields := none, started := [], tick := tick, gen := gen, code := code,
           savedCores := [], savedPending := [], savedChimney := [] }

/-- LAUNCH_RESUME's effect (R216, R333): cores, engine queues, Kindling queues, the Hearths' pending packets and the channels
are back. Under a new generation, fetch sees memory as it stands now (log 31); the Flue tables are those that Reserve
checked (log 122). -/
def State.resume (s : State) (n : Nat) (l : Launch) : State :=
  let gen := match AMap.find? s.aspaces l.asid with | some a => a.gen | none => l.gen
  let d := s.draw 1
  let s := d.2.setLaunch n (l.resume gen (if gen = l.gen then l.code else s.mem) (s.ticks + 4 + Config.pick d.1))
  let s := l.savedCores.foldl (fun s x => s.restoreCore n l x) s
  let s := l.savedPending.foldl (fun (s : State) x =>
    s.setDie x.1 { s.die x.1 with pending := (s.die x.1).pending ++ x.2.map fun m => ⟨m, false⟩ }) s
  let s := l.savedChimney.foldl (fun (s : State) x =>
    s.setDie x.1 { s.die x.1 with chimney := x.2.foldl (fun (m : AMap Channel) c => m.set c.1 c.2) (s.die x.1).chimney }) s
  if l.flue.isSome then (s.stampFlue n).writeFlue l (Schedule.ofBytes l.schedule) else s

/-- LAUNCH_RESUME (R330, R333): once a rectangle on the same dies is free again. -/
def execLaunchResume (launch : Nat) (s : State) : Host.Outcome State Fault Refusal :=
  match s.launch? launch with
  | none => .next s
  | some l =>
    let chans := l.savedChimney.all fun x => x.2.all fun c => (AMap.find? (s.die x.1).chimney c.1).isNone
    if l.phase == .saved && l.trap.isNone && !l.aborted && !s.genDue.contains l.asid &&
        s.diesHold launch { l with chim := [] } && s.unitsFit l && chans &&
        l.savedCores.all (s.coreFits launch l) then .next (s.resume launch l)
    else .next s

end Sys2Proof.Machine
end

