-- ==== Sys2Proof/Machine/Stoker.lean ====
section
/-! DEFINITION. The Stoker's other packets and commands (R210, R215, R216, R324, R326, R336, R339, R343, R344, R362, R391,
R405, R432, R444): NOP, INVAL, SIGNAL, WAITV, QUEUE, GENADV, XFER, ASPACE, WINDOW, FIRMWARE, ABORT, and the exchange of
roles. -/
namespace Sys2Proof.Machine

/-- NOP_PACKET (R326): completes at once. -/
def execNopPacket (queue : Nat) (s : State) : Host.Outcome State Fault Refusal :=
  .next (s.quickPacket queue (fun p => p.type == 0) fun _ s => s)

/-! ## Invalidation -/

/-- Whether a cached translation overlaps a range of an address space. -/
def TlbEntry.inRange (e : TlbEntry) (asid va len : Nat) : Bool := e.asid == asid && e.va < va + len && va < e.va + e.size

/-- The dies that have not confirmed a started packet (R215). -/
def Queue.setUnconfirmed (q : Queue) (num : Nat) (dies : List Nat) : Queue :=
  { q with started := q.started.map fun y => if y.num = num then { y with unconfirmed := dies } else y }

/-- INVAL (R215): the packet starts, the range leaves every cache of the module, and every die has to confirm it. -/
def execInval (queue : Nat) (s : State) : Host.Outcome State Fault Refusal :=
  .next (s.withPacket queue (fun p => p.type == 2) fun q p s =>
    ((s.beginPacket queue q p 0).onQueue queue fun r => r.setUnconfirmed q.next (List.range 8)).dropTlb (fun _ => true) (fun _ => true) fun e => e.inRange (p.val 0) (p.val 1) (p.val 2))

/-- A core's warps and commands once an INVAL that covers an address range has completed (R362, R391, R405): those of the
launches of the space that wait in the range go on. -/
def Core.release (c : Core) (mine : Nat → Bool) (hit : Nat → Bool) : Core :=
  let waits := fun (w : Option Word) => match w with | some va => hit va.toNat | none => false
  { c with
    warps := c.warps.map fun x => (x.1, if mine x.2.launch then
      let w := { x.2 with exitDecs := x.2.exitDecs.map fun (d : ExitDec) => if hit d.join.toNat then { d with waiting := false } else d }
      match w.park with
      | some (.xlate va) => if hit va.toNat then { w with park := none } else w
      | _ => w
      else x.2)
    copyq := c.copyq.map fun x => if mine x.launch && waits x.waiting then { x with waiting := none } else x
    stackq := c.stackq.map fun x => if mine x.launch && waits x.waiting then { x with waiting := none } else x }

/-- A launch whose walkers or Stoker waited in the range goes on (R444, R445). -/
def Launch.release (l : Launch) (mine : Nat → Bool) (hit : Nat → Bool) : Launch :=
  let waits := fun (w : Option Word) => match w with | some va => hit va.toNat | none => false
  { l with
    walkers := l.walkers.map fun x => (x.1, if waits x.2.waiting then { x.2 with waiting := none } else x.2)
    waiting := if waits l.waiting then none else l.waiting
    savedCores := l.savedCores.map fun x => { x with content := x.content.release mine hit } }

/-- Everything that waits in a range of an address space goes on. -/
def State.releaseRange (s : State) (asid va len : Nat) : State :=
  let mine := fun n => match s.launch? n with | some l => l.asid == asid | none => false
  let hit := fun a => va ≤ a && a < va + len
  { s with
    cores := s.cores.map fun c => (c.1, c.2.release mine hit)
    launches := s.launches.map fun x => (x.1, if x.2.asid = asid then x.2.release mine hit else x.2) }

/-- INVALIDATION_COMPLETE (R215, R362, R397, R437): dies confirm the oldest INVAL of a queue; it completes once every die that
is not isolated has. -/
def execInvalidationComplete (c : Confirmation) (s : State) : Host.Outcome State Fault Refusal :=
  match AMap.find? s.queues c.queue with
  | none => .next s
  | some q =>
    match q.oldest 2 with
    | none => .next s
    | some x =>
      let left := x.unconfirmed.filter fun d => !c.dies.contains d && !s.dieLost d
      if left.isEmpty then .next ((s.releaseRange (x.val 0) (x.val 1) (x.val 2)).completePacket c.queue x.num true)
      else .next (s.setQueue c.queue (q.setUnconfirmed x.num left))

/-! ## Signals and waits -/

/-- A packet that starts at once and acts when what it waits for has happened: start the next packet if it is one of
them, then let the oldest started one that may act do so and complete. -/
def State.startThen (s : State) (n : Nat) (want : Pkt → Bool) (may : State → Queue → Started → Bool)
    (act : Started → State → State) : State :=
  let s := s.withPacket n want fun q p s => s.beginPacket n q p 0
  match AMap.find? s.queues n with
  | none => s
  | some q =>
    match q.started.find? (may s q) with
    | none => s
    | some x => (act x s).completePacket n x.num true

/-- Whether every earlier packet of the queue has completed. -/
def Queue.isFirst (q : Queue) (x : Started) : Bool := match q.started with | y :: _ => y.num == x.num | [] => false

/-- SIGNAL (R326): after every earlier packet of the queue has completed, a write of 8 bytes; a lost die takes none (log
130). -/
def execSignal (queue : Nat) (s : State) : Host.Outcome State Fault Refusal :=
  .next (s.startThen queue (fun p => p.type == 3) (fun _ q x => x.type == 3 && q.isFirst x) fun x s =>
    if s.onLostDie (x.val 0) then s else (s.writePhys (x.val 0) (leBytes 8 (x.val 1))).notifyZero (x.val 0))

/-- WAITV (R326): the packet starts. -/
def execWaitv (queue : Nat) (s : State) : Host.Outcome State Fault Refusal :=
  .next (s.withPacket queue (fun p => p.type == 4) fun q p s => s.beginPacket queue q p 0)

/-- Complete the first of several started WAITVs whose word is at least its value; a word on a lost die is not read (log
130). -/
def State.tryWaits (s : State) (queue : Nat) : List Started → State
  | [] => s
  | x :: xs =>
    let r := s.readPhys (x.val 0) 8
    if !s.onLostDie (x.val 0) && x.val 1 ≤ leNat r.1 then r.2.completePacket queue x.num true else State.tryWaits r.2 queue xs

/-- WAITV_SATISFIED (R326). -/
def execWaitvSatisfied (queue : Nat) (s : State) : Host.Outcome State Fault Refusal :=
  match AMap.find? s.queues queue with
  | none => .next s
  | some q => .next (s.tryWaits queue (q.started.filter fun x => x.type == 4))

/-! ## Abort, and the creation and destruction of queues -/

/-- Stop a started packet (R432): a launch stops as by R372, without a record, and its packet completes once it has; any other
packet completes as failed at once, an XFER after the bytes that it has performed. -/
def State.stopPacket (s : State) (n : Nat) (x : Started) : State :=
  match x.type, s.launch? x.launch with
  | 1, some l => s.setLaunch x.launch { l with aborted := true }
  | _, _ => s.completePacket n x.num true

/-- The header word of the packet at a queue's read index, 0 when it is not published. -/
def State.nextWord (s : State) (q : Queue) : Nat :=
  let avail := (q.wr - q.ridx).toNat
  if avail < 4 || q.size < avail then 0
  else match (s.ringRead q q.ridx.toNat 4).1 with | .ok b => leNat b | .error _ => 0

/-- The record of an ABORT (R432): the oldest stopped packet, or the packet at the read index. -/
def State.abortRecord (s : State) (q : Queue) (remove : Bool) : Aborting :=
  match q.started with
  | x :: _ => ⟨x.num, x.off, x.word, remove⟩
  | [] => ⟨q.next, q.ridx, BitVec.ofNat 32 (s.nextWord q), remove⟩

/-- ABORT on a queue (R432, R433), which a QUEUE packet may then remove: a RESTART that is held is discarded, a LAUNCH in
Reserve is withdrawn, and the started packets stop. -/
def State.abort (s : State) (n : Nat) (remove : Bool) : State :=
  match AMap.find? s.queues n with
  | none => s
  | some q =>
    let a := match q.abort with | some a => { a with remove := a.remove || remove } | none => s.abortRecord q remove
    let s := (s.withdraw n).onQueue n fun q => { q with restart := false, abort := some a }
    (q.started.foldl (fun s x => s.stopPacket n x) s).settleAbort n

/-- ABORT (R432). -/
def execAbort (queue : Nat) (s : State) : Host.Outcome State Fault Refusal := .next (s.abort queue false)

/-- A queue as its descriptor describes it (R324, R325). -/
def Queue.ofDesc (d : List Byte) : Queue :=
  { Queue.admin with
    ring := fieldN d 0 8
    size := fieldN d 8 4
    prio := fieldN d 12 4 % 8
    status := fieldN d 16 8
    evring := fieldN d 24 8
    evsize := fieldN d 32 4
    ageus := fieldN d 36 4
    asid := fieldN d 40 8 % 65536 }

/-- The status block of a new queue (R325). -/
def newStatus : List Byte := leBytes 8 0 ++ leBytes 8 (2 ^ 64 - 1) ++ List.replicate 48 0

/-- Create a queue from the descriptor that a QUEUE packet names, as check 9 has read it (R324, R325, R423). -/
def State.createQueue (s : State) (p : Pkt) : State :=
  let q := Queue.ofDesc p.desc
  (s.setQueue (p.val 0 % 2 ^ 32) q).sendWrite q.status newStatus

/-- QUEUE_CREATE (R324). -/
def execQueueCreate (queue : Nat) (s : State) : Host.Outcome State Fault Refusal :=
  .next (s.quickPacket queue (fun p => p.type == 5 && p.val 0 / 2 ^ 32 == 1) fun p s => s.createQueue p)

/-- QUEUE_DESTROY (R432): the packet acts as ABORT on the queue that it names, and completes once that queue is gone. -/
def execQueueDestroy (queue : Nat) (s : State) : Host.Outcome State Fault Refusal :=
  let s := s.withPacket queue (fun p => p.type == 5 && p.val 0 / 2 ^ 32 == 2) fun q p s =>
    (s.beginPacket queue q p 0).abort (p.val 0 % 2 ^ 32) true
  match AMap.find? s.queues queue with
  | none => .next s
  | some q =>
    match q.started.find? fun x => x.type == 5 && (AMap.find? s.queues (x.val 0 % 2 ^ 32)).isNone with
    | some x => .next (s.completePacket queue x.num true)
    | none => .next s

/-! ## Address spaces -/

/-- GENADV (R216, R242): once no launch of the space is running. -/
def execGenadv (queue : Nat) (s : State) : Host.Outcome State Fault Refusal :=
  .next (s.startThen queue (fun p => p.type == 6) (fun s _ x => x.type == 6 && !s.spaceBusy (x.val 0) false) fun x s =>
    s.advanceGen (x.val 0))

/-- ASPACE_CREATE (R210): at the generation that the ASID retains, 0 for one never used. -/
def execAspaceCreate (queue : Nat) (s : State) : Host.Outcome State Fault Refusal :=
  .next (s.quickPacket queue (fun p => p.type == 8 && p.val 1 == 1) fun p s =>
    let gen := match AMap.find? s.aspaces (p.val 0) with | some x => x.gen | none => 0
    { s with aspaces := s.aspaces.set (p.val 0) ⟨true, p.val 2, gen⟩ })

/-- ASPACE_SET_ROOT (R210): after the space's launches have completed, the new root, and every cached translation of the
space leaves every cache. -/
def execAspaceSetRoot (queue : Nat) (s : State) : Host.Outcome State Fault Refusal :=
  .next (s.startThen queue (fun p => p.type == 8 && p.val 1 == 2)
    (fun s _ x => x.type == 8 && x.val 1 == 2 && !s.spaceBusy (x.val 0) true) fun x s =>
      (s.onSpace (x.val 0) fun a => { a with root := x.val 2 }).dropTlb (fun _ => true) (fun _ => true) fun e => e.asid == x.val 0)

/-- ASPACE_DESTROY (R210, R216): after the space's launches have completed, the generation advances and the space goes. -/
def execAspaceDestroy (queue : Nat) (s : State) : Host.Outcome State Fault Refusal :=
  .next (s.startThen queue (fun p => p.type == 8 && p.val 1 == 3)
    (fun s _ x => x.type == 8 && x.val 1 == 3 && !s.spaceBusy (x.val 0) true) fun x s =>
      s.onSpace (x.val 0) fun a => { a with live := false, gen := a.gen + 1 })

/-- WINDOW (R336). -/
def execWindow (queue : Nat) (s : State) : Host.Outcome State Fault Refusal :=
  .next (s.quickPacket queue (fun p => p.type == 9) fun p s =>
    if p.val 0 = 0 then { s with window0 := p.val 1 } else { s with window1 := p.val 1 })

/-! ## Eslyn transfers -/

/-- The Eslyn ports that striping uses, in port order (R338, R441). Ports 2q and 2q + 1 attach to plane q. -/
def State.livePorts (s : State) : List Nat := (List.range 20).filter fun p => !s.eslynLost.contains p

/-- The units of 256 B of a transfer, striped across ports in their order (R338). -/
def stripe (x : Started) (queue : Nat) (ports : List Nat) (b : List Byte) : List Outbound :=
  (splitN 256 (b.length / 256) b).zipIdx.map fun u =>
    ⟨x.val 0, x.val 1, BitVec.ofNat 64 (x.val 3 + 256 * u.2), u.1, ports.getD (u.2 % ports.length) 0, queue, x.num⟩

/-- Send the bytes of an XFER whose turn has come (R338, R339): none while no port is live or while a page of them does not
answer, is poisoned or lies on a lost die, which the packet waits for (DEDUCED, log 32). -/
def State.sendXfer (s : State) (n : Nat) (x : Started) : State :=
  match AMap.find? s.queues n, s.livePorts with
  | none, _ => s
  | _, [] => s
  | some q, ports =>
    let r := s.spaceRead q.asid (x.val 2) (x.val 4)
    match r.1 with
    | .error _ => r.2
    | .ok b =>
      let s := r.2.setQueue n { q with started := q.started.map fun y => if y.num = x.num then { y with sent := true } else y }
      { s with eslynOut := s.eslynOut ++ stripe x n ports b }

/-- Whether a unit is still in flight (R441): its XFER has not completed. -/
def State.inFlight (s : State) (u : Outbound) : Bool :=
  match AMap.find? s.queues u.queue with
  | some q => q.started.any fun x => x.num == u.num && x.type == 7
  | none => false

/-- The units in flight on a lost port are sent again on the live ports, in their order (R441). -/
def State.resend (s : State) (port : Nat) : State :=
  match s.livePorts with
  | [] => s
  | ports =>
    { s with eslynOut := s.eslynOut.zipIdx.map fun u =>
        if u.1.port = port && s.inFlight u.1 then { u.1 with port := ports.getD (u.2 % ports.length) 0 } else u.1 }

/-- XFER (R339): the packet starts; its local bytes are read after every earlier packet of the queue has completed. -/
def execXfer (queue : Nat) (s : State) : Host.Outcome State Fault Refusal :=
  let s := s.withPacket queue (fun p => p.type == 7) fun q p s => s.beginPacket queue q p 0
  match AMap.find? s.queues queue with
  | none => .next s
  | some q =>
    match q.started with
    | x :: _ => .next (if x.type = 7 && !x.sent then s.sendXfer queue x else s)
    | [] => .next s

/-- XFER_COMPLETE (R339, R441): every byte has been performed at the remote memory sides; none is on a lost port. -/
def execXferComplete (queue : Nat) (s : State) : Host.Outcome State Fault Refusal :=
  match AMap.find? s.queues queue with
  | none => .next s
  | some q =>
    match q.started.find? fun x => x.type == 7 && x.sent with
    | some x =>
      let lost := s.eslynOut.any fun u => u.queue == queue && u.num == x.num && s.eslynLost.contains u.port
      .next (if lost then s else s.completePacket queue x.num true)
    | none => .next s

/-- The pieces of a range that an inbound write reaches: pages of region 00 with W, none on a lost die (R437). -/
def State.inboundPieces (s : State) (asid : Nat) (ps : List (Nat × Nat)) : Option (List (Nat × Nat)) :=
  ps.foldr (fun p acc => match s.spacePa asid p.1 true, acc with
    | some pa, some l => if s.onLostDie pa then none else some ((pa, p.2) :: l)
    | _, _ => none) (some [])

/-- ESLYN_INBOUND_WRITE (R339): a remote module's bytes are written under the space's current generation; bytes for pages
that do not take them are dropped (log 32). -/
def execEslynInboundWrite (asid : Nat) (va : Word) (data : List Byte) (s : State) : Host.Outcome State Fault Refusal :=
  match s.inboundPieces asid (cut64K (data.length / 65536 + 2) va.toNat data.length) with
  | some ps => .next (s.writePieces ps data)
  | none => .next s

/-! ## Firmware -/

/-- The flash bank of an image kind. -/
def State.bank (s : State) (kind : Nat) : Flash := AMap.get ⟨[], none⟩ s.flash kind
def State.setBank (s : State) (kind : Nat) (f : Flash) : State := { s with flash := s.flash.set kind f }

/-- Operation and kind in the first word of a FIRMWARE body (R344). -/
def fwOp (x : Nat) : Nat := x % 16
def fwKind (x : Nat) : Nat := bits x 11 8

/-- FIRMWARE_STAGE (R344): the packet starts, and the inactive bank is being written. -/
def execFirmwareStage (queue : Nat) (s : State) : Host.Outcome State Fault Refusal :=
  .next (s.withPacket queue (fun p => p.type == 10 && fwOp (p.val 0) == 1) fun q p s =>
    let k := fwKind (p.val 0)
    (s.beginPacket queue q p 0).setBank k { s.bank k with staged := none })

/-- FIRMWARE_STAGE_COMPLETE (R344): the bank holds the image when its signature verifies (log 15), and is empty if not. -/
def execFirmwareStageComplete (queue : Nat) (s : State) : Host.Outcome State Fault Refusal :=
  match AMap.find? s.queues queue with
  | none => .next s
  | some q =>
    match q.started.find? fun x => x.type == 10 && fwOp (x.val 0) == 1 with
    | none => .next s
    | some x =>
      let k := fwKind (x.val 0)
      let r := s.readPhys (x.val 1) (x.val 2)
      let s := r.2.setBank k { r.2.bank k with staged := if Config.verifies r.1 then some r.1 else none }
      .next (s.completePacket queue x.num true)

/-- The standby Stoker's die (R15). -/
def State.standbyDie (s : State) : Nat := if s.stokerB then 0 else 7

/-- What an activation does (R343, R344): for kind 1 the standby boots the staged image, verifies it and imports the state
table, whose version is equal to or one below its own (log 128: a standby that is not live, an image that no longer verifies
and a version that is not accepted change nothing); for kinds 2 and 3 the image as staged now applies at the next reset,
every record activated until then among them. -/
def State.activate (s : State) (kind : Nat) : State :=
  match (s.bank kind).staged with
  | none => s
  | some image =>
    if kind = 3 then { s with activateDue := s.activateDue.set 3 image, recordsDue := s.recordsDue ++ [image] }
    else if kind ≠ 1 then { s with activateDue := s.activateDue.set kind image }
    else
      let v := Config.tableVersion image
      if s.standbyLive && s.dieLive s.standbyDie && Config.verifies image && (s.verActive = v || s.verActive + 1 = v) then
        { s.setBank 1 ⟨image, none⟩ with standbyReady := true, verStandby := v }
      else s

/-- FIRMWARE_ACTIVATE (R344). DESIGN CHOICE (log 128): the packet completes at once. -/
def execFirmwareActivate (queue : Nat) (s : State) : Host.Outcome State Fault Refusal :=
  .next (s.quickPacket queue (fun p => p.type == 10 && fwOp (p.val 0) == 2) fun p s => s.activate (fwKind (p.val 0)))

/-- STOKER_ROLE_EXCHANGE (R343): at a packet boundary, with no LAUNCH between parse and issue; the former active Stoker
then takes the update in turn and stands by. -/
def execStokerRoleExchange (s : State) : Host.Outcome State Fault Refusal :=
  if s.standbyReady && s.standbyLive && s.dieLive s.standbyDie && s.launches.all (fun x => x.2.phase != .reserved) then
    .next { s with stokerB := !s.stokerB, standbyReady := false, verActive := s.verStandby }
  else .next s

end Sys2Proof.Machine
end

