-- ==== Sys2Proof/Machine/Platform.lean ====
section
/-! DEFINITION. The platform beneath the launches (R17, R217, R318, R322, R336, R340 to R347, R392 to R397, R434 to R442):
ticks and frames, link lanes, memory errors and scrubbing, clocks and telemetry, host and Eslyn ports, reset, and the loss of
links, cores, dies and Stokers. -/
namespace Sys2Proof.Machine

/-! ## Ticks, frames and lanes -/

/-- CHIMNEY_TICK (R5, R322, R323, R329, R346): dies of a gang that must start before the next tick start; that tick begins,
module-level phases that are full complete on every die, and a new core clock takes effect. -/
def execChimneyTick (s : State) : Host.Outcome State Fault Refusal :=
  if s.time < 128 * (s.ticks + 1) then .next s
  else
    let s := (List.range 8).foldl (fun s d => s.wakeChim d true) s.startLate
    .next { s with ticks := s.ticks + 1, mhz := s.mhzNext.getD s.mhz, mhzNext := none }

/-- A link direction at the start of a frame (R434): spares take the places of the lanes that have failed, and the counts of
a frame start again. -/
def FlueDir.newFrame (d : FlueDir) : FlueDir := { d with failed := d.failed ++ d.due, due := [], errors := [] }

/-- FLUE_FRAME (R318, R321, R434): the next frame begins and carries what its slots carry. -/
def execFlueFrame (s : State) : Host.Outcome State Fault Refusal :=
  if s.time < 512 * (s.frames + 1) then .next s
  else
    .next (({ s with frames := s.frames + 1, flue := s.flue.map fun f => (f.1, f.2.newFrame) } : State).serveFrame)

/-- FLIT_REPLAY (R434, R435): a flit fails its CRC on a lane that carries flits and is sent again; the 16th failure of a lane
in one frame fails the lane. When it is a replay that fails, the failures in a row rise; they end when a replay passes, unless
the 8th has lost the direction (log 45). -/
def execFlitReplay (direction : Nat) (flit : FailedFlit) (s : State) : Host.Outcome State Fault Refusal :=
  let d := s.dir direction
  if 20 ≤ direction || d.lost || !d.carrying.contains flit.lane then .next s
  else
    let n := AMap.get 0 d.errors flit.lane + 1
    let row := if flit.again then d.replays + 1 else d.replays
    let d := { d with errors := d.errors.set flit.lane n, replays := if flit.passes && row < 8 then 0 else row }
    .next (s.setDir direction (if 16 ≤ n then d.fail flit.lane else d))

/-- FLUE_LANE_CALIBRATION (R345, R434): once per 10 ms in each direction, lanes whose margin is below limit have failed. -/
def execFlueLaneCalibration (direction : Nat) (failing : List Nat) (s : State) : Host.Outcome State Fault Refusal :=
  let d := s.dir direction
  let early := match d.calibrated with | some t => s.time < t + 10000000 | none => false
  if 20 ≤ direction || d.lost || early then .next s
  else .next (s.setDir direction { failing.foldl FlueDir.fail d with calibrated := some s.time })

/-! ## Stops by the platform -/

/-- The mask of live dies (R442). -/
def State.liveMask (s : State) : Nat := (List.range 8).foldl (fun m d => if s.dieLive d then m + 2 ^ d else m) 0

/-- Post a SYSFAULT event to queue 0 (R442). -/
def State.sysfault (s : State) (kind num : Nat) : State := s.postEvent 0 (eventBytes 8 kind 0 num s.time s.liveMask)

/-- Withdraw the LAUNCHes in Reserve that a test selects (R334, R428). -/
def State.withdrawIf (s : State) (f : Launch → Bool) : State :=
  (s.launches.filter fun x => x.2.phase == .reserved && f x.2).foldl (fun s x => s.removeLaunch x.1) s

/-- Record a stop for every started launch that a test selects (R372, R443). -/
def State.stopIf (s : State) (f : Nat → Launch → Bool) (r : TrapRec) : State :=
  (s.launches.filter fun x => x.2.phase != .reserved && f x.1 x.2).foldl (fun s x => s.recordTrap x.1 r) s

/-- Stop launches that hold a die, and let their spaces' generations advance once no launch of them runs (R216, R397, R437). -/
def State.stopHolders (s : State) (f : Nat → Launch → Bool) (r : TrapRec) : State :=
  let ls := s.launches.filter fun x => x.2.phase != .reserved && f x.1 x.2
  let s := s.stopIf f r
  ({ s with genDue := (s.genDue ++ ls.map fun x => x.2.asid).eraseDups } : State).settleGens

/-! ## Links -/

/-- The loss of a link direction (R435, R443). -/
def State.loseLink (s : State) (k : Nat) : State :=
  let s := (s.setDir k { s.dir k with lost := true }).liveRoutes.reroute
  let uses := fun (l : Launch) => l.links.any fun x => x / 2 == k / 2
  let s := s.withdrawIf uses
  (s.stopIf (fun _ l => uses l) (stopRec (dieAgent (linkEnds (k / 2)).1) gLINK (1 + 16 * k) 0 0)).sysfault 1 k

/-- FLUE_LINK_LOSS (R435): a third lane has failed, or replay has failed 8 times in a row. -/
def execFlueLinkLoss (direction : Nat) (s : State) : Host.Outcome State Fault Refusal :=
  let d := s.dir direction
  if 20 ≤ direction || d.lost || (d.failures < 3 && d.replays < 8) then .next s
  else .next (s.loseLink direction)

/-! ## Memory -/

/-- HBM_REFRESH (R345): only time passes. -/
def execHbmRefresh (_die _group _channel : Nat) (s : State) : Host.Outcome State Fault Refusal := .next s

/-- PATROL_SCRUB (R395): a line that cannot be corrected is poisoned, and MEMERR kind 1 is posted. A die-cache line that holds
poison is written back, which poisons HBM, and MEMERR kind 2 is posted (log 111). -/
def execPatrolScrub (pa : Nat) (bad : Bool) (s : State) : Host.Outcome State Fault Refusal :=
  let g := pa / 64
  if 2 ^ 44 ≤ pa || !paExists pa then .next s
  else if s.dirtyPoison.contains g then .next (s.writeBack g)
  else if bad then .next ((s.poisonMem pa 1).postEvent 0 (memErrBytes 1 0 s.time (64 * g)))
  else .next s

/-- MEMORY_SIDE_REQUEST (R217, R392): performed when its generation is the current one, rejected when not; an isolated or fenced
die takes no traffic (R437, R439). -/
def execMemorySideRequest (asid gen pa : Nat) (write : Option (List Byte)) (s : State) : Host.Outcome State Fault Refusal :=
  let now := match AMap.find? s.aspaces asid with | some a => a.gen.toNat | none => 0
  if s.onLostDie pa then .next s
  else if gen % 65536 ≠ now then .next (s.reject (rejectDie pa) asid (BitVec.ofNat 16 gen))
  else match write with
    | some b => .next (s.writePhys pa b)
    | none => .next s

/-- The launches that have something on a core. -/
def State.onCore (s : State) (core n : Nat) : Bool := (s.core core).has n

/-- HWERR 2 without a raising warp (R357, R393, R443). -/
def tablesRec (coreid : Nat) : TrapRec := stopRec coreid gHWERR 0 0 (2 ^ 28 * 2)

/-- HWERR 2 for one of a core's tables, which counts against the core and stops every launch on it (R393, R436). -/
def State.tablesFail (s : State) (core : Nat) : State :=
  (s.countHwerr core gHWERR 2).stopIf (fun n _ => s.onCore core n) (tablesRec (coreId core))

/-- What an uncorrectable error becomes (R393). One of the tag table or of the Kindling queue makes its core fail, and one of
the route counters does not alone (R436). -/
def State.uncorrectable (s : State) : StoragePlace → State
  | .memory pa => if 2 ^ 44 ≤ pa || !paExists pa then s else s.poisonMem pa 1
  | .dirtyLine pa => if 2 ^ 44 ≤ pa || !paExists pa then s else s.poisonWritten pa 1
  | .cleanCopy core pa =>
    let s := s.dropL1 core fun x => x.line == pa / 256
    s.dropTlb (· == core) (· == dieOf core) fun e => e.pa ≤ pa && pa < e.pa + e.size
  | .scratchpad core off => if 2 ^ 20 ≤ off then s else s.poisonSpad core off 1
  | .vreg core slot off lane =>
    let w := s.warpAt core slot
    if w.status = .free || 32 ≤ lane then s
    else s.setWarpAt core slot { w with vPoison := w.vPoison ++ [⟨off, lane, 2, 0, 0, 0, 0⟩] }
  | .kreg core slot k =>
    let w := s.warpAt core slot
    if w.status = .free || k = 0 || 64 ≤ k then s
    else s.setWarpAt core slot { w with kPoison := w.kPoison ++ [⟨k, 0, 2, 0, 0, 0, 0⟩] }
  | .accRow core tile row =>
    let c := s.core core
    let r := 128 * tile + row
    if 8 ≤ tile || 128 ≤ row || c.accPoison.contains r then s else s.setCore core { c with accPoison := c.accPoison ++ [r] }
  | .riddleCells core => s.setCore core { s.core core with riddle := { (s.core core).riddle with poison := true } }
  | .weightLatch core active =>
    let c := s.core core
    let bad := fun (l : Option Latch) => l.map fun x => { x with poison := true }
    s.setCore core (if active then { c with latchA := bad c.latchA } else { c with latchS := bad c.latchS })
  | .scaleMemory core => s.poisonScale core
  | .tableBank core bank => s.poisonBank core bank
  | .tagTable core => (s.setCore core { s.core core with tablesBad := true }).tablesFail core
  | .kindlingQueue core => (s.setCore core { s.core core with tablesBad := true }).tablesFail core
  | .routeCounters core => s.tablesFail core
  | .mailbox die =>
    let d := s.die die
    let mine := fun n => s.onCore (192 * die) n || (d.mailbox ++ d.incoming ++ d.pending.map (·.mail)).any fun m => m.launch == n
    (s.setDie die { s.die die with mailboxBad := true }).stopIf (fun n _ => mine n) (tablesRec (coreId (192 * die)))

/-- UNCORRECTABLE_ERROR (R393). -/
def execUncorrectableError (place : StoragePlace) (s : State) : Host.Outcome State Fault Refusal := .next (s.uncorrectable place)

/-! ## Clocks, power and telemetry -/

/-- The module's power limit in mW (R341, R346): 3.6 kW, or the lower limit of a record. -/
def State.limit (s : State) : Nat :=
  match AMap.find? s.records 4 with | some r => min 3600000 (Config.powerLimit r) | none => 3600000

/-- The module's power as measured now, and since when it has stayed below 95 % of the limit (R346). -/
def State.measure (s : State) (mw : Nat) : State :=
  { s with power := mw, lowSince := if 100 * mw < 95 * s.limit then some (s.lowSince.getD s.time) else none }

/-- TELEMETRY_SAMPLING (R346, R347): every 1 ms; the sensors' values are free (log 13). DEDUCED (log 136): the module's power is the
sum of what its dies' sensors show at the sample. -/
def execTelemetrySampling (s : State) : Host.Outcome State Fault Refusal :=
  if s.time < (s.die 0).telemetry.time.toNat + 1000000 then .next s
  else
    let s := (List.range 8).foldl (fun (s : State) d =>
      let r := s.draw 3
      let t : Telemetry := ⟨BitVec.ofNat 64 s.time, BitVec.ofNat 32 s.mhz, Config.sensor r.1, Config.sensor (r.1 + 1),
        Config.sensor (r.1 + 2), (s.die d).reject⟩
      r.2.setDie d { r.2.die d with telemetry := t }) s
    .next (s.measure ((List.range 8).foldl (fun n d => n + (s.die d).telemetry.power.toNat) 0))

/-- POWER_STEP_DOWN (R346): above the limit, 50 MHz less at the next tick, at most once per 1 ms, to no less than 350 MHz. -/
def execPowerStepDown (s : State) : Host.Outcome State Fault Refusal :=
  let f := s.mhzNext.getD s.mhz
  if s.power ≤ s.limit || s.time < s.stepAt + 1000000 || f < 400 then .next s
  else .next { s with mhzNext := some (f - 50), stepAt := s.time }

/-- POWER_STEP_UP (R346): once the power has stayed below 95 % of the limit for 10 ms, 50 MHz more at the next tick, at most
once per 10 ms, to no more than 700 MHz. -/
def execPowerStepUp (s : State) : Host.Outcome State Fault Refusal :=
  let f := s.mhzNext.getD s.mhz
  let low := match s.lowSince with | some t => t + 10000000 ≤ s.time | none => false
  if !low || s.time < s.upAt + 10000000 || 650 < f then .next s
  else .next { s with mhzNext := some (f + 50), upAt := s.time }

/-- FLASH_WEAR_MANAGEMENT (R345): only replies to the host come later. -/
def execFlashWearManagement (s : State) : Host.Outcome State Fault Refusal := .next s

/-! ## Ports -/

/-- A die's telemetry block as BAR2 shows it (R347): 64 bytes. -/
def Telemetry.bytes (t : Telemetry) : List Byte :=
  leBytes 8 t.time.toNat ++ leBytes 4 t.mhz.toNat ++ leBytes 4 t.power.toNat ++ leBytes 4 t.hot.toNat ++ leBytes 4 t.hbm.toNat ++
    leBytes 4 t.reject.toNat ++ List.replicate 36 0

/-- Bytes of BAR2 (R335, R347): the telemetry blocks at 0x1000. What the module controller's mailbox beside them reads as no
rule says; it is free (log 13). -/
def State.bar2 (s : State) (off n : Nat) : List Byte × State :=
  let d := s.draw n
  ((List.range n).map fun i =>
    let a := off + i
    if 0x1000 ≤ a && a < 0x1200 then ((s.die ((a - 0x1000) / 64)).telemetry.bytes).getD ((a - 0x1000) % 64) 0
    else Config.busByte (d.1 + i), d.2)

/-- A host's atomic operation of 4 or 8 bytes on device memory (R335, R336): what it returns goes back to the host, and one
that leaves a counter at 0 notifies its waiters (R302). -/
def State.hostAtomic (s : State) (pa n : Nat) (f : Nat → Option Nat) : State :=
  let old := s.mem.readN pa n
  let s := { s with hostReads := s.hostReads ++ [leBytes n old] }
  match f old with
  | some x => (s.writePhys pa (leBytes n (x % 2 ^ (8 * n)))).notifyZero pa
  | none => s

/-- What a host access does to device memory (R335, R336). -/
def State.hostOp (s : State) (pa n : Nat) : HostOp → State
  | .read => { s with hostReads := s.hostReads ++ [s.mem.bytes pa n] }
  | .write b => s.writePhys pa b
  | .fetchAdd x => s.hostAtomic pa n fun old => some (old + x.toNat)
  | .swap x => s.hostAtomic pa n fun _ => some x.toNat
  | .cas a x => s.hostAtomic pa n fun old => if old = a.toNat % 2 ^ (8 * n) then some x.toNat else none

/-- Bytes that a host access covers, none when it is an atomic of another size or not aligned. -/
def hostSize (op : HostOp) (pa n : Nat) : Option Nat :=
  match op with
  | .read => some n
  | .write b => some b.length
  | _ => if (n = 4 || n = 8) && pa % n = 0 then some n else none

/-- HOST_WINDOW_ACCESS (R335, R336, R347, R437): an access through BAR4, or from offset 2³⁶ on a read of BAR2. A port on an
isolated die does not answer, and memory of an isolated die is not reached. DESIGN CHOICE (log 13): a write to BAR2 changes
nothing. -/
def execHostWindowAccess (port offset n : Nat) (op : HostOp) (s : State) : Host.Outcome State Fault Refusal :=
  let pa := (if port = 0 then s.window0 else s.window1) + offset
  if 2 ≤ port || s.dieLost (portDie port) then .next s
  else if 2 ^ 36 ≤ offset then
    if op == .read && offset + n ≤ 2 ^ 36 + 2 ^ 16 then
      let r := s.bar2 (offset - 2 ^ 36) n
      .next { r.2 with hostReads := r.2.hostReads ++ [r.1] }
    else .next s
  else match hostSize op pa n with
    | some k => .next (if 2 ^ 36 < offset + k || s.onLostDie pa then s else s.hostOp pa n op)
    | none => .next s

/-- The states of the flash banks (R344): for each kind whether a staged image waits in it. -/
def State.bankStates (s : State) : List Nat := [1, 2, 3].map fun k => if (s.bank k).staged.isSome then 1 else 0

/-- SPDM_REQUEST (R342, R344): the answer reports what boot has measured and the states of the banks, signed with the identity
key; its encoding is free (log 13). -/
def execSpdmRequest (port : Nat) (request : List Byte) (s : State) : Host.Outcome State Fault Refusal :=
  if 2 ≤ port || request.isEmpty || s.dieLost (portDie port) then .next s
  else
    let d := s.draw 1
    let b := Config.spdmAnswer Config.identity request s.measured s.bankStates d.1
    .next { d.2 with spdmOut := d.2.spdmOut ++ [b] }

/-- ESLYN_PORT_LOSS (R441): the port leaves striping, and what was in flight on it is sent again. -/
def execEslynPortLoss (port : Nat) (s : State) : Host.Outcome State Fault Refusal :=
  if 20 ≤ port || s.eslynLost.contains port then .next s
  else .next ((({ s with eslynLost := s.eslynLost ++ [port] } : State).resend port).sysfault 4 port)

/-! ## Cores -/

/-- Whether three times lie within one second (R436). -/
def threeWithin (l : List Nat) : Bool :=
  (List.range l.length).any fun i => match l[i]?, l[i + 2]? with | some a, some b => b < a + 1000000000 | _, _ => false

/-- Whether a launch has reserved a set on a core that its die has not started yet (R317, R329). -/
def Launch.setOn (l : Launch) (core : Nat) : Bool := l.sets.any (fun x => x.2.1 == core) && !l.started.contains (dieOf core)

/-- CORE_FAILURE (R436): launches on the core stop, the core admits nothing more, and the journal records it. One in Reserve
with a set on the core is withdrawn, and one that has committed but not started it there stops (log 129). -/
def execCoreFailure (core : Nat) (s : State) : Host.Outcome State Fault Refusal :=
  let c := s.core core
  let box := inDie core == 0 && (s.die (dieOf core)).mailboxBad
  if 1536 ≤ core || c.removed || !(threeWithin c.hwerr2 || c.tablesBad || box) then .next s
  else
    let s := s.withdrawIf fun l => l.setOn core
    let s := s.stopIf (fun n l => s.onCore core n || l.setOn core) (tablesRec (coreId core))
    let s := s.setCore core { s.core core with removed := true }
    .next (({ s with journal := s.journal ++ [core] } : State).sysfault 6 (coreId core))

/-- Spare cores of a die (R9). -/
def spareCores : Nat := 8

/-- The cores of a die that its spares replace, in the order in which they take them (R9, R436): those of the signed record,
and then the failures of the repair journal. A core that fails again takes another spare. DESIGN CHOICE (log 121): no rule
says which failed cores get the spares when more have failed than there are; the journal's order decides. -/
def State.replaced (s : State) (die : Nat) : List Nat :=
  ((match AMap.find? s.records 1 with | some r => Config.spareCores r | none => []) ++ s.journal).filter fun c => dieOf c == die

/-- Whether a failed core stays removed at its die's reset: the die has no spare left for it (R9, R436). DESIGN CHOICE for
the order in which spares are given: log 121. -/
def State.noSpare (s : State) (core : Nat) : Bool := ((s.replaced (dieOf core)).drop spareCores).contains core

/-! ## Stokers -/

/-- The standby takes over (R440, R343): launches in Reserve are rolled back and stay in their queues, committed ones run
on, and the state table is the standby's copy. -/
def State.failover (s : State) : State :=
  let s := s.withdrawIf fun _ => true
  ({ s with stokerB := !s.stokerB, standbyLive := false, standbyReady := false, verActive := s.verStandby } : State).sysfault 2 0

/-- Whether the standby can take over (R440). -/
def State.standbyAble (s : State) : Bool := s.standbyLive && s.dieLive s.standbyDie

/-- STOKER_FAILOVER (R440): 300 µs of silence. -/
def execStokerFailover (s : State) : Host.Outcome State Fault Refusal := .next (if s.standbyAble then s.failover else s)

/-! ## Dies -/

/-- Isolate a die (R437, R440): the launches whose rectangles hold it stop, and the standby takes over when the die is the
active Stoker's. -/
def State.isolate (s : State) (die : Nat) : State :=
  let s := s.setDie die { s.die die with isolated := true }
  let s := if die = s.stokerDie && s.standbyAble then s.failover
    else if die = s.standbyDie then { s with standbyLive := false, standbyReady := false } else s
  let s := s.withdrawIf fun l => l.dies.contains die
  let s := s.stopHolders (fun _ l => l.dies.contains die) (stopRec (dieAgent die) gLINK 2 0 0)
  s.liveRoutes.reroute.sysfault 5 die

/-- DIE_ISOLATION (R437). -/
def execDieIsolation (die : Nat) (s : State) : Host.Outcome State Fault Refusal :=
  if 8 ≤ die || (s.die die).isolated then .next s else .next (s.isolate die)

/-- A core of a die as the die's reset leaves it. The Damper's save keeps the tails of the overflow slices and the serials of
the child warps of launches that are saved (R295, R297). -/
def State.resetCore (s : State) (core : Nat) : Core :=
  let c := if inDie core = 0 then (hearthCore (dieOf core)).2 else Core.reset
  let kept := fun (x : Nat × Nat) => (s.launch? x.1).isSome
  { c with removed := s.noSpare core
           ovfTail := (s.core core).ovfTail.filter kept
           childSerial := (s.core core).childSerial.filter kept }

/-- Whether a launch has a block, a child, a walker, a packet, a task or a reserved set on a die (R397). -/
def State.onDie (s : State) (die n : Nat) (l : Launch) : Bool :=
  let d := s.die die
  (s.cores.any fun c => dieOf c.1 == die && c.2.has n) ||
    (l.phase != .saved && (l.walkers.any (fun x => x.1 == die) || l.tasks.any (fun t => t.die == die) ||
      l.sets.any fun x => dieOf x.2.1 == die)) ||
    (d.mailbox ++ d.incoming ++ d.pending.map (·.mail)).any (fun m => m.launch == n) ||
    s.travel.any fun x => x.entry.launch == n && dieOf x.core == die

/-- An INVAL counts a die as confirmed (R215, R397). -/
def Queue.confirmDie (q : Queue) (die : Nat) : Queue :=
  { q with started := q.started.map fun y => { y with unconfirmed := y.unconfirmed.filter (· != die) } }

/-- The reset of a die on which no launch has anything (R397, R436, R440): its cores, caches and mailbox are as after boot, it
is live again unless it has fenced itself (log 124), pending INVALs count it as confirmed, and a former Stoker on it
restarts as standby. -/
def State.resetDie (s : State) (die : Nat) : State :=
  let s := ((s.cores.map Prod.fst).filter fun c => dieOf c == die).foldl (fun (s : State) c => s.setCore c (s.resetCore c)) s
  let d := s.die die
  let s := s.setDie die { Die.reset with chimney := d.chimney, reject := d.reject, telemetry := d.telemetry, fenced := d.fenced,
                                         isolated := d.isolated && d.fenced, rejectAt := d.rejectAt }
  let s : State := { s with queues := s.queues.map fun (q : Nat × Queue) => (q.1, q.2.confirmDie die) }
  { s.liveRoutes.reroute with standbyLive := s.standbyLive || (die == s.standbyDie && s.dieLive die) }

/-- DIE_RESET (R397): the launches with something on the die stop and their generations advance; once they have gone, the die
is reset. -/
def execDieReset (die : Nat) (s : State) : Host.Outcome State Fault Refusal :=
  if 8 ≤ die then .next s
  else
    let s := s.withdrawIf fun l => l.dies.contains die
    let s := s.stopHolders (s.onDie die) (stopRec (dieAgent die) gLINK 2 0 0)
    if s.launches.any fun x => s.onDie die x.1 x.2 then .next (s.setDie die { s.die die with resetDue := true })
    else .next (s.resetDie die)

/-! ## Splits -/

/-- The group of dies that continues when the live dies fall into groups that do not reach each other (R439): the largest,
and among the largest the one with the active Stoker. -/
def State.continuing (s : State) : List Nat :=
  let live := (List.range 8).filter s.dieLive
  let groups := live.map fun d => s.reach 8 [d]
  (best (fun x y => y.length < x.length || (x.length == y.length && x.contains s.stokerDie && !y.contains s.stokerDie)) groups).getD []

/-- An address by a fenced die's own host port: the same one, with its port, in regions 01 and 10 (R209, R439). -/
def byPort (pa die : Nat) : Nat :=
  if regionOf pa = 0 || regionOf pa = 3 then pa
  else pa - 2 ^ 43 * bits pa 43 43 + if die = portDie 0 then 0 else 2 ^ 43

/-- The SYSFAULT event of kind 3 that a fenced group posts through its die's host port (R439, R442, log 130); it is lost where
queue 0's event ring or status block lies on a die outside the group. -/
def State.fenceReport (s : State) (mask : Nat) (group : List Nat) (die : Nat) : State :=
  match AMap.find? s.queues 0 with
  | none => s
  | some q =>
    let far := fun pa => regionOf pa = 0 && !group.contains (paDie pa)
    if far q.eventPa || far q.status then s.setQueue 0 q.loseEvent
    else
      let t := (s.setQueue 0 { q with evring := byPort q.evring die, status := byPort q.status die }).postEvent 0
        (eventBytes 8 3 0 die s.time mask)
      match AMap.find? t.queues 0 with
      | some r => t.setQueue 0 { r with evring := q.evring, status := q.status }
      | none => t

/-- MESH_SPLIT (R439, R440): the dies of the other group fence themselves, and those with a host port report; the standby
takes over when the continuing group lacks the active Stoker, and then that group isolates the fenced dies. -/
def execMeshSplit (s : State) : Host.Outcome State Fault Refusal :=
  let keep := s.continuing
  let out := (List.range 8).filter fun d => s.dieLive d && !keep.contains d
  if out.isEmpty then .next s
  else
    let take := !keep.contains s.stokerDie
    let fence := fun (s : State) => out.foldl (fun (s : State) d => s.setDie d { s.die d with fenced := true }) s
    let s := (out.filter fun d => d == 0 || d == 7).foldl (fun (t : State) d => t.fenceReport (fence s).liveMask out d) s
    let s := fence s
    let s := if take && s.standbyAble then s.failover else s
    .next (out.foldl State.isolate s)

/-! ## Module reset -/

/-- Whether a configuration record is one of R341: its MAGIC, KIND and LEN, a signature of 4,627 bytes behind the payload, and
the signature verifies (log 15). -/
def recordValid (r : List Byte) : Bool :=
  let n := fieldN r 8 4
  fieldN r 0 4 == 0x4B434652 && 1 ≤ fieldN r 4 2 && fieldN r 4 2 ≤ 5 && n ≤ 61440 && r.length == 12 + n + 4627 && Config.verifies r

/-- The records that apply once one more is weighed (R341): it replaces one of its KIND when it is valid and has a higher
VERSION. -/
def weighRecord (m : AMap (List Byte)) (r : List Byte) : AMap (List Byte) :=
  let newer := match AMap.find? m (fieldN r 4 2) with | some x => fieldN x 6 2 < fieldN r 6 2 | none => true
  if recordValid r && newer then AMap.set m (fieldN r 4 2) r else m

/-- The records that boot verifies, those of a lower VERSION among them (R340 to R342). -/
def State.verified (s : State) : List (List Byte) := (s.records.map Prod.snd ++ s.recordsDue).filter recordValid

/-- The records that apply at boot (R340, R341, R344): of each KIND the valid one of the highest VERSION, the activated ones
among them. -/
def State.bootRecords (s : State) : AMap (List Byte) :=
  s.recordsDue.foldl weighRecord (s.records.filter fun x => recordValid x.2)

/-- The flash bank of an image kind at a reset (R344): an activated image that verifies becomes the active one. -/
def State.applyBank (s : State) (kind : Nat) : Flash :=
  let f := s.bank kind
  match AMap.find? s.activateDue kind with
  | some image => if Config.verifies image then { f with active := image, staged := if f.staged = some image then none else f.staged } else f
  | none => f

/-- The link directions after boot (R340, R434): the lanes that a record's spares replace carry no flits. -/
def bootLanes (records : AMap (List Byte)) : AMap FlueDir :=
  match AMap.find? records 2 with
  | none => []
  | some r => (Config.spareLanes r).foldl (fun (m : AMap FlueDir) x =>
      if 20 ≤ x.1 then m else let d := (AMap.get FlueDir.fresh m x.1).fail x.2; m.set x.1 d.newFrame) []

/-- The module after a reset and boot (R340, R341, R344, R436): device memory is cleared, activated images and valid records
apply, and spares take the places of failed cores. HBM repairs change nothing that is visible (log 33). What has left the
module stays recorded. -/
def State.rebooted (s : State) : State :=
  let records := s.bootRecords
  let flash := [(1, s.applyBank 1), (2, s.applyBank 2), (3, s.applyBank 3)]
  let stoker := (s.applyBank 1).active
  let version := if stoker.isEmpty then s.verActive else Config.tableVersion stoker
  let spared : State := { s with records := records }
  let cores := ((s.cores.map Prod.fst ++ s.journal).eraseDups).foldl
    (fun (m : AMap Core) c => m.set c { AMap.get Core.reset m c with removed := spared.noSpare c }) State.reset.cores
  { State.reset with
    schedule := s.schedule
    curCore := s.curCore
    curSlot := s.curSlot
    freeCtr := s.freeCtr
    steps := s.steps
    cores := cores
    flash := flash
    flue := bootLanes records
    journal := s.journal
    records := records
    measured := ((flash.map fun f => f.2.active).filter Config.verifies ++ s.verified).eraseDups
    verActive := version
    verStandby := version
    domain := match AMap.find? records 5 with | some r => Config.domainOf r % 1024 | none => s.domain
    busWrites := s.busWrites ++ State.reset.busWrites
    eslynOut := s.eslynOut
    msix := s.msix
    spdmOut := s.spdmOut
    hostReads := s.hostReads }

/-- MODULE_RESET (R340). -/
def execModuleReset (s : State) : Host.Outcome State Fault Refusal := .next s.rebooted

end Sys2Proof.Machine
end

