-- ==== Sys2Proof/Machine/Dispatch.lean ====
section
/-! DEFINITION. Which meaning an instruction has: one arm for each constructor of Instr. -/
namespace Sys2Proof.Machine

/-- The meaning of each instruction and of each agent step. -/
def exec (i : Instr) (s : State) : Host.Outcome State Fault Refusal :=
  match i with
  | .ill w => Sys2Proof.Machine.execIll w s
  | .iadd w => Sys2Proof.Machine.execIadd w s
  | .isub w => Sys2Proof.Machine.execIsub w s
  | .imul w => Sys2Proof.Machine.execImul w s
  | .imulh w => Sys2Proof.Machine.execImulh w s
  | .imad w => Sys2Proof.Machine.execImad w s
  | .imin w => Sys2Proof.Machine.execImin w s
  | .imax w => Sys2Proof.Machine.execImax w s
  | .iabs w => Sys2Proof.Machine.execIabs w s
  | .ineg w => Sys2Proof.Machine.execIneg w s
  | .and w => Sys2Proof.Machine.execAnd w s
  | .or w => Sys2Proof.Machine.execOr w s
  | .xor w => Sys2Proof.Machine.execXor w s
  | .andn w => Sys2Proof.Machine.execAndn w s
  | .shl w => Sys2Proof.Machine.execShl w s
  | .shr w => Sys2Proof.Machine.execShr w s
  | .sar w => Sys2Proof.Machine.execSar w s
  | .rol w => Sys2Proof.Machine.execRol w s
  | .clz w => Sys2Proof.Machine.execClz w s
  | .popc w => Sys2Proof.Machine.execPopc w s
  | .brev w => Sys2Proof.Machine.execBrev w s
  | .bfx w => Sys2Proof.Machine.execBfx w s
  | .bfi w => Sys2Proof.Machine.execBfi w s
  | .sel w => Sys2Proof.Machine.execSel w s
  | .isetp w => Sys2Proof.Machine.execIsetp w s
  | .mov w => Sys2Proof.Machine.execMov w s
  | .movlo w => Sys2Proof.Machine.execMovlo w s
  | .movhi w => Sys2Proof.Machine.execMovhi w s
  | .idot4 w => Sys2Proof.Machine.execIdot4 w s
  | .isat w => Sys2Proof.Machine.execIsat w s
  | .fadd w => Sys2Proof.Machine.execFadd w s
  | .fsub w => Sys2Proof.Machine.execFsub w s
  | .fmul w => Sys2Proof.Machine.execFmul w s
  | .ffma w => Sys2Proof.Machine.execFfma w s
  | .fmin w => Sys2Proof.Machine.execFmin w s
  | .fmax w => Sys2Proof.Machine.execFmax w s
  | .fsetp w => Sys2Proof.Machine.execFsetp w s
  | .fclass w => Sys2Proof.Machine.execFclass w s
  | .frcp w => Sys2Proof.Machine.execFrcp w s
  | .frsq w => Sys2Proof.Machine.execFrsq w s
  | .fsqrt w => Sys2Proof.Machine.execFsqrt w s
  | .fexp2 w => Sys2Proof.Machine.execFexp2 w s
  | .flog2 w => Sys2Proof.Machine.execFlog2 w s
  | .ftab w => Sys2Proof.Machine.execFtab w s
  | .fcvt w => Sys2Proof.Machine.execFcvt w s
  | .i2f w => Sys2Proof.Machine.execI2f w s
  | .f2i w => Sys2Proof.Machine.execF2i w s
  | .frnd w => Sys2Proof.Machine.execFrnd w s
  | .fdot2 w => Sys2Proof.Machine.execFdot2 w s
  | .fldexp w => Sys2Proof.Machine.execFldexp w s
  | .lperm w => Sys2Proof.Machine.execLperm w s
  | .benes w => Sys2Proof.Machine.execBenes w s
  | .vote w => Sys2Proof.Machine.execVote w s
  | .lscan w => Sys2Proof.Machine.execLscan w s
  | .lred w => Sys2Proof.Machine.execLred w s
  | .subx w => Sys2Proof.Machine.execSubx w s
  | .pack w => Sys2Proof.Machine.execPack w s
  | .unpack w => Sys2Proof.Machine.execUnpack w s
  | .elect w => Sys2Proof.Machine.execElect w s
  | .lsr w => Sys2Proof.Machine.execLsr w s
  | .ld w => Sys2Proof.Machine.execLd w s
  | .st w => Sys2Proof.Machine.execSt w s
  | .lds w => Sys2Proof.Machine.execLds w s
  | .sts w => Sys2Proof.Machine.execSts w s
  | .ldc w => Sys2Proof.Machine.execLdc w s
  | .stc w => Sys2Proof.Machine.execStc w s
  | .atom w => Sys2Proof.Machine.execAtom w s
  | .cas w => Sys2Proof.Machine.execCas w s
  | .faddo w => Sys2Proof.Machine.execFaddo w s
  | .fadda w => Sys2Proof.Machine.execFadda w s
  | .pfetch w => Sys2Proof.Machine.execPfetch w s
  | .tlook w => Sys2Proof.Machine.execTlook w s
  | .tins w => Sys2Proof.Machine.execTins w s
  | .tinv w => Sys2Proof.Machine.execTinv w s
  | .rcnt w => Sys2Proof.Machine.execRcnt w s
  | .brd w => Sys2Proof.Machine.execBrd w s
  | .spawn w => Sys2Proof.Machine.execSpawn w s
  | .spawnt w => Sys2Proof.Machine.execSpawnt w s
  | .exitl w => Sys2Proof.Machine.execExitl w s
  | .nop w => Sys2Proof.Machine.execNop w s
  | .uadd w => Sys2Proof.Machine.execUadd w s
  | .usub w => Sys2Proof.Machine.execUsub w s
  | .umul w => Sys2Proof.Machine.execUmul w s
  | .umulh w => Sys2Proof.Machine.execUmulh w s
  | .umin w => Sys2Proof.Machine.execUmin w s
  | .umax w => Sys2Proof.Machine.execUmax w s
  | .uand w => Sys2Proof.Machine.execUand w s
  | .uor w => Sys2Proof.Machine.execUor w s
  | .uxor w => Sys2Proof.Machine.execUxor w s
  | .ushl w => Sys2Proof.Machine.execUshl w s
  | .ushr w => Sys2Proof.Machine.execUshr w s
  | .usar w => Sys2Proof.Machine.execUsar w s
  | .uclz w => Sys2Proof.Machine.execUclz w s
  | .upopc w => Sys2Proof.Machine.execUpopc w s
  | .ubfx w => Sys2Proof.Machine.execUbfx w s
  | .ubfi w => Sys2Proof.Machine.execUbfi w s
  | .umov w => Sys2Proof.Machine.execUmov w s
  | .umovlo w => Sys2Proof.Machine.execUmovlo w s
  | .umovhi w => Sys2Proof.Machine.execUmovhi w s
  | .ucmp w => Sys2Proof.Machine.execUcmp w s
  | .udiv w => Sys2Proof.Machine.execUdiv w s
  | .urem w => Sys2Proof.Machine.execUrem w s
  | .widf w => Sys2Proof.Machine.execWidf w s
  | .uld w => Sys2Proof.Machine.execUld w s
  | .ust w => Sys2Proof.Machine.execUst w s
  | .uatom w => Sys2Proof.Machine.execUatom w s
  | .bra w => Sys2Proof.Machine.execBra w s
  | .brz w => Sys2Proof.Machine.execBrz w s
  | .brnz w => Sys2Proof.Machine.execBrnz w s
  | .call w => Sys2Proof.Machine.execCall w s
  | .callr w => Sys2Proof.Machine.execCallr w s
  | .ret w => Sys2Proof.Machine.execRet w s
  | .enter w => Sys2Proof.Machine.execEnter w s
  | .loop w => Sys2Proof.Machine.execLoop w s
  | .rep w => Sys2Proof.Machine.execRep w s
  | .exit w => Sys2Proof.Machine.execExit w s
  | .brk w => Sys2Proof.Machine.execBrk w s
  | .trap w => Sys2Proof.Machine.execTrap w s
  | .tret w => Sys2Proof.Machine.execTret w s
  | .jmpr w => Sys2Proof.Machine.execJmpr w s
  | .bar w => Sys2Proof.Machine.execBar w s
  | .chim w => Sys2Proof.Machine.execChim w s
  | .fence w => Sys2Proof.Machine.execFence w s
  | .closeb w => Sys2Proof.Machine.execCloseb w s
  | .waitb w => Sys2Proof.Machine.execWaitb w s
  | .joinw w => Sys2Proof.Machine.execJoinw w s
  | .joina w => Sys2Proof.Machine.execJoina w s
  | .welect w => Sys2Proof.Machine.execWelect w s
  | .oflush w => Sys2Proof.Machine.execOflush w s
  | .ptok w => Sys2Proof.Machine.execPtok w s
  | .vtok w => Sys2Proof.Machine.execVtok w s
  | .tcopy w => Sys2Proof.Machine.execTcopy w s
  | .tcopym w => Sys2Proof.Machine.execTcopym w s
  | .sgather w => Sys2Proof.Machine.execSgather w s
  | .sreduce w => Sys2Proof.Machine.execSreduce w s
  | .scvt w => Sys2Proof.Machine.execScvt w s
  | .wload w => Sys2Proof.Machine.execWload w s
  | .mma w => Sys2Proof.Machine.execMma w s
  | .mmas w => Sys2Proof.Machine.execMmas w s
  | .accrd w => Sys2Proof.Machine.execAccrd w s
  | .accwr w => Sys2Proof.Machine.execAccwr w s
  | .accz w => Sys2Proof.Machine.execAccz w s
  | .accwait w => Sys2Proof.Machine.execAccwait w s
  | .sortld w => Sys2Proof.Machine.execSortld w s
  | .sort w => Sys2Proof.Machine.execSort w s
  | .sortst w => Sys2Proof.Machine.execSortst w s
  | .sortwait w => Sys2Proof.Machine.execSortwait w s
  | .sortstop w => Sys2Proof.Machine.execSortstop w s
  | .tabld w => Sys2Proof.Machine.execTabld w s
  | .tabsw w => Sys2Proof.Machine.execTabsw w s
  | .benset w => Sys2Proof.Machine.execBenset w s
  | .rsnap w => Sys2Proof.Machine.execRsnap w s
  | .tsubmit w => Sys2Proof.Machine.execTsubmit w s
  | .tdone w => Sys2Proof.Machine.execTdone w s
  | .mbrecv w => Sys2Proof.Machine.execMbrecv w s
  | .mbfwd w => Sys2Proof.Machine.execMbfwd w s
  | .blkgo w => Sys2Proof.Machine.execBlkgo w s
  | .csrr w => Sys2Proof.Machine.execCsrr w s
  | .csrw w => Sys2Proof.Machine.execCsrw w s
  | .csrs w => Sys2Proof.Machine.execCsrs w s
  | .csrc w => Sys2Proof.Machine.execCsrc w s
  | .xlinv w => Sys2Proof.Machine.execXlinv w s
  | .loadComplete core slot => Sys2Proof.Machine.execLoadComplete core slot s
  | .vtokTokenArrival core channel => Sys2Proof.Machine.execVtokTokenArrival core channel s
  | .joinwWake core slot => Sys2Proof.Machine.execJoinwWake core slot s
  | .joinwPoll core slot => Sys2Proof.Machine.execJoinwPoll core slot s
  | .childExitDecrement core slot => Sys2Proof.Machine.execChildExitDecrement core slot s
  | .warpRelease core slot => Sys2Proof.Machine.execWarpRelease core slot s
  | .kindlingEntryArrival core => Sys2Proof.Machine.execKindlingEntryArrival core s
  | .childWarpForm core => Sys2Proof.Machine.execChildWarpForm core s
  | .warpReturn core => Sys2Proof.Machine.execWarpReturn core s
  | .spawnDeadlock core => Sys2Proof.Machine.execSpawnDeadlock core s
  | .copyExecute core pos => Sys2Proof.Machine.execCopyExecute core pos s
  | .tabldExecute core pos => Sys2Proof.Machine.execTabldExecute core pos s
  | .sgatherExecute core pos => Sys2Proof.Machine.execSgatherExecute core pos s
  | .sreduceExecute core pos => Sys2Proof.Machine.execSreduceExecute core pos s
  | .scvtExecute core pos => Sys2Proof.Machine.execScvtExecute core pos s
  | .wloadExecute core => Sys2Proof.Machine.execWloadExecute core s
  | .mmaExecute core => Sys2Proof.Machine.execMmaExecute core s
  | .mmasExecute core => Sys2Proof.Machine.execMmasExecute core s
  | .accrdExecute core => Sys2Proof.Machine.execAccrdExecute core s
  | .accwrExecute core => Sys2Proof.Machine.execAccwrExecute core s
  | .acczExecute core => Sys2Proof.Machine.execAcczExecute core s
  | .sortldExecute core => Sys2Proof.Machine.execSortldExecute core s
  | .sortStart core => Sys2Proof.Machine.execSortStart core s
  | .sortStep core => Sys2Proof.Machine.execSortStep core s
  | .sortstExecute core => Sys2Proof.Machine.execSortstExecute core s
  | .orderedAddEpochApply launch => Sys2Proof.Machine.execOrderedAddEpochApply launch s
  | .mailboxPacketArrival die => Sys2Proof.Machine.execMailboxPacketArrival die s
  | .walkRecord die launch => Sys2Proof.Machine.execWalkRecord die launch s
  | .walkerRetryPass die launch => Sys2Proof.Machine.execWalkerRetryPass die launch s
  | .tileDone die launch => Sys2Proof.Machine.execTileDone die launch s
  | .hwerrTileDiscard launch => Sys2Proof.Machine.execHwerrTileDiscard launch s
  | .walkfault launch => Sys2Proof.Machine.execWalkfault launch s
  | .doorbellWrite queue offset => Sys2Proof.Machine.execDoorbellWrite queue offset s
  | .eventReadOffsetWrite queue offset => Sys2Proof.Machine.execEventReadOffsetWrite queue offset s
  | .restart queue => Sys2Proof.Machine.execRestart queue s
  | .restartApply queue => Sys2Proof.Machine.execRestartApply queue s
  | .abort queue => Sys2Proof.Machine.execAbort queue s
  | .doorbellRegisterWrite queue offset value => Sys2Proof.Machine.execDoorbellRegisterWrite queue offset value s
  | .nopPacket queue => Sys2Proof.Machine.execNopPacket queue s
  | .launch queue => Sys2Proof.Machine.execLaunch queue s
  | .launchCommit launch => Sys2Proof.Machine.execLaunchCommit launch s
  | .gangStart launch die => Sys2Proof.Machine.execGangStart launch die s
  | .launchComplete launch => Sys2Proof.Machine.execLaunchComplete launch s
  | .reserveTimeout launch die => Sys2Proof.Machine.execReserveTimeout launch die s
  | .inval queue => Sys2Proof.Machine.execInval queue s
  | .invalidationComplete c => Sys2Proof.Machine.execInvalidationComplete c s
  | .signal queue => Sys2Proof.Machine.execSignal queue s
  | .waitv queue => Sys2Proof.Machine.execWaitv queue s
  | .queueCreate queue => Sys2Proof.Machine.execQueueCreate queue s
  | .queueDestroy queue => Sys2Proof.Machine.execQueueDestroy queue s
  | .genadv queue => Sys2Proof.Machine.execGenadv queue s
  | .xfer queue => Sys2Proof.Machine.execXfer queue s
  | .eslynInboundWrite asid va data => Sys2Proof.Machine.execEslynInboundWrite asid va data s
  | .aspaceCreate queue => Sys2Proof.Machine.execAspaceCreate queue s
  | .aspaceSetRoot queue => Sys2Proof.Machine.execAspaceSetRoot queue s
  | .aspaceDestroy queue => Sys2Proof.Machine.execAspaceDestroy queue s
  | .window queue => Sys2Proof.Machine.execWindow queue s
  | .firmwareStage queue => Sys2Proof.Machine.execFirmwareStage queue s
  | .firmwareActivate queue => Sys2Proof.Machine.execFirmwareActivate queue s
  | .queueAging queue => Sys2Proof.Machine.execQueueAging queue s
  | .preemptSave launch => Sys2Proof.Machine.execPreemptSave launch s
  | .launchResume launch => Sys2Proof.Machine.execLaunchResume launch s
  | .launchTrapStop launch => Sys2Proof.Machine.execLaunchTrapStop launch s
  | .flitReplay direction flit => Sys2Proof.Machine.execFlitReplay direction flit s
  | .flueLaneCalibration direction failing => Sys2Proof.Machine.execFlueLaneCalibration direction failing s
  | .flueLinkLoss direction => Sys2Proof.Machine.execFlueLinkLoss direction s
  | .hbmRefresh die group channel => Sys2Proof.Machine.execHbmRefresh die group channel s
  | .patrolScrub pa bad => Sys2Proof.Machine.execPatrolScrub pa bad s
  | .memorySideRequest asid gen pa write => Sys2Proof.Machine.execMemorySideRequest asid gen pa write s
  | .uncorrectableError place => Sys2Proof.Machine.execUncorrectableError place s
  | .hostWindowAccess port offset n op => Sys2Proof.Machine.execHostWindowAccess port offset n op s
  | .spdmRequest port request => Sys2Proof.Machine.execSpdmRequest port request s
  | .coreFailure core => Sys2Proof.Machine.execCoreFailure core s
  | .dieIsolation die => Sys2Proof.Machine.execDieIsolation die s
  | .eslynPortLoss port => Sys2Proof.Machine.execEslynPortLoss port s
  | .dieReset die => Sys2Proof.Machine.execDieReset die s
  | .xferComplete queue => Sys2Proof.Machine.execXferComplete queue s
  | .firmwareStageComplete queue => Sys2Proof.Machine.execFirmwareStageComplete queue s
  | .waitvSatisfied queue => Sys2Proof.Machine.execWaitvSatisfied queue s
  | .flueFrame => Sys2Proof.Machine.execFlueFrame s
  | .chimneyTick => Sys2Proof.Machine.execChimneyTick s
  | .stokerRoleExchange => Sys2Proof.Machine.execStokerRoleExchange s
  | .schedulingRotation => Sys2Proof.Machine.execSchedulingRotation s
  | .telemetrySampling => Sys2Proof.Machine.execTelemetrySampling s
  | .powerStepDown => Sys2Proof.Machine.execPowerStepDown s
  | .powerStepUp => Sys2Proof.Machine.execPowerStepUp s
  | .moduleReset => Sys2Proof.Machine.execModuleReset s
  | .meshSplit => Sys2Proof.Machine.execMeshSplit s
  | .stokerFailover => Sys2Proof.Machine.execStokerFailover s
  | .flashWearManagement => Sys2Proof.Machine.execFlashWearManagement s

end Sys2Proof.Machine
end

