-- ==== Sys2Proof/Machine/Sched.lean ====
section
/-! DEFINITION. One step of the module: time passes, and either a warp issues an instruction or an agent does one
piece of its work (log 1). What comes before an instruction's own meaning stands here: frames that return (R40), the
pops of R154, instruction fetch (R87), the fields of a REP iteration (R107); and, for an empty schedule, the ranking of
R37 and R38. -/
namespace Sys2Proof.Machine

/-! ## Readiness -/

/-- Whether a warp is a Hearth context that runs the dispatcher of boot (R308, log 107). -/
def State.dispatches (s : State) (c k : Nat) : Bool := (s.warpAt c k).kind == .hearth && (s.die (dieOf c)).dispatcher

/-- Whether a warp may issue at all (R37, R39, R333): it is resident and not parked, its die works, and its launch runs and
has started on the die. A Hearth context belongs to no launch; one that runs the dispatcher issues when that has
something to do, and one whose MBFWD packet has not left yet waits (R207). A child warp is ready in the cycle after its
formation (R297). -/
def State.canIssue (s : State) (c k : Nat) : Bool :=
  let w := s.warpAt c k
  c < 1536 && k ≤ 48 && w.status == .live && w.park.isNone && s.dieLive (dieOf c) &&
  (if w.kind == .hearth then !s.forwarding (dieOf c) && (!(s.die (dieOf c)).dispatcher || s.dispatchable (dieOf c))
   else match s.launch? w.launch with | some l => l.phase == .running && l.started.contains (dieOf c) | none => false) &&
  (w.kind != .child || decide (w.since < s.clock))

/-- The module as the warp in slot k of core c comes to issue. -/
def State.turnTo (s : State) (c k : Nat) : State :=
  { s with curCore := c, curSlot := k, stalled := s.stalled.filter (· != (c, k)) }

/-! ## From the pc to an instruction -/

/-- What the words at a warp's pc lead to: a state in which this step is over (a stall, or a trap before any
instruction), or an instruction to run. -/
inductive Ready where
  | over (s : State)
  | run (i : Instr) (s : State)
  deriving DecidableEq, Repr

/-- Whether the word at the warp's pc is a uniform one, for a trap before the instruction issues (R355). -/
def State.uniAt (s : State) (w : Warp) : Bool :=
  match s.fetchWord w w.pc.toNat with
  | .ok b => bit (leNat b) 31
  | .error _ => false

/-- The warp as it stands before its next instruction: lent frames back (R40), then the pops of R154; a REP already
under way is one instruction, before which R154 has been applied. -/
def State.ahead (s : State) : Except Stop State :=
  let w := s.w
  match s.refill s.curCore (s.uniAt w) w with
  | .error e => .error e
  | .ok (t, w) =>
    if w.rep.isSome then .ok (t.setW w)
    else match t.reconverge t.curCore (t.uniAt w) (w.div.length + w.divSpilled + 1) w with
    | .error e => .error e
    | .ok (t, w) => .ok (t.setW w)

/-- The instruction with the fields of a REP iteration (R107). -/
def RepState.stepped (r : RepState) (i : Instr) : Instr :=
  match i.form with
  | .lane opc w => match AMap.find? laneTable opc with | some f => f (r.lane w) | none => i
  | .uni opc w => match AMap.find? uniTable opc with | some f => f (r.uni w) | none => i
  | _ => i

/-- The trap of a word that decodes to no instruction (R113, R357): ILLEGAL, reason 1. -/
def reservedTrap (b : List Byte) : Trap :=
  trapOf (bit (leNat (b.take 4)) 31) gILLEGAL (leNat (b.take 4)) (leNat (b.drop 4)) 1

/-- The instruction that the issuing warp comes to (R87, R107). -/
def State.nextInstr (s : State) : Ready :=
  match s.w.rep with
  | some r =>
    match decodeWords r.word (if hasSecond r.word then some r.tail else none) with
    | .ok i => .run (r.stepped i) s
    | .error _ => .over (s.takeTrap (reservedTrap (wordBytes r.word)))
  | none =>
  match s.fetchInstr s.w s.w.pc with
  | .error t => .over (s.takeTrap t)
  | .ok (.error _, b) => .over (s.takeTrap (reservedTrap b))
  | .ok (.ok i, _) => .run i s

/-- What the warp in slot k of core c does when its turn comes. -/
def State.ready (s : State) (c k : Nat) : Ready :=
  let s := s.turnTo c k
  match s.ahead with
  | .error e => .over (s.settle (.error e))
  | .ok t => t.nextInstr

/-! ## The order of issue (R33, R37, R38) -/

/-- Whether a warp would stall if it issued now (R51, R187): it is not ready. -/
def State.stalls (s : State) (c k : Nat) : Bool :=
  match s.ready c k with
  | .over t => t.stalled.contains (c, k)
  | .run i t => match exec i t with | .next u => u.stalled.contains (c, k) | _ => false

/-- Whether a warp is ready (R37). -/
def State.isReady (s : State) (c k : Nat) : Bool := s.canIssue c k && (s.dispatches c k || !s.stalls c k)

/-- Whether a warp of a core could not have waited in a cycle (R38, R297): it issued in it, or the Bellows formed it in
it. -/
def Core.busyIn (x : Core) (cycle k : Nat) (w : Warp) : Bool :=
  x.issuedNow.any (fun y => y.cycle == cycle && y.slot == k) || (w.kind == .child && w.since == cycle)

/-- The count of R38 after n cycles from a first one: each counts in which a ready warp did not issue. -/
def State.waitedAfter (s : State) (start n : Nat) (c : Nat × Core) (x : Nat × Warp) : Nat :=
  if s.isReady c.1 x.1 then x.2.waited + (if c.2.busyIn start x.1 x.2 then n - 1 else n) else x.2.waited

/-- Time passes for the warps that are ready (R38). -/
def State.waitAll (s : State) (start n : Nat) : State :=
  { s with cores := s.cores.map fun c => (c.1, { c.2 with warps := c.2.warps.map fun x =>
      (x.1, { x.2 with waited := s.waitedAfter start n c x }) }) }

/-- The latest value that TIME may take (R318, R322): the next tick begins at TIME 128t and the next frame 512 ns after the
one before it, so that TIME stands at the nearer of the two until it has begun. -/
def State.timeLimit (s : State) : Nat := min (128 * (s.ticks + 1)) (512 * (s.frames + 1))

/-- Time passes during a step: free advances of CLOCK and TIME (log 8), TIME up to the next tick or frame, and the waits of
ready warps. -/
def State.pass (s : State) : State :=
  ({ s with steps := s.steps + 1, clock := s.clock + Config.cyclesOf s.steps
            time := max s.time (min (s.time + Config.nsOf s.steps) s.timeLimit) } : State).waitAll
    s.clock (Config.cyclesOf s.steps)

/-- Engine commands: the uniform opcodes 0x40 to 0x59 (R187). -/
def isCommand (i : Instr) : Bool := match i.form with | .uni opc _ => 0x40 ≤ opc && opc ≤ 0x59 | _ => false

/-- Whether a warp's next instruction is a uniform one, and whether it is an engine command (R31, R33). DEDUCED (log 138): a turn
that ends in a trap before any instruction takes a pipe of the kind of the word at the warp's pc. -/
def State.nextKind (s : State) (c k : Nat) : Bool × Bool :=
  if s.dispatches c k then (true, true)
  else match s.ready c k with
  | .run i _ => (isUni i, isCommand i)
  | .over _ => (s.uniAt (s.warpAt c k), false)

/-- The class of a ready warp in R37: 0 starving, 1 child, 2 other. -/
def Warp.rank (w : Warp) : Nat := if 64 ≤ w.waited then 0 else if w.kind = .child then 1 else 2

/-- Whether one ready warp of a core comes before another (R37). -/
def ranksBefore (a b : Nat × Warp) : Bool :=
  a.2.rank < b.2.rank || (a.2.rank == b.2.rank &&
    (a.2.since < b.2.since || (a.2.since == b.2.since && a.1 < b.1)))

/-- Instructions of a kind of pipe that a core issues in a cycle (R37). -/
def pipesOf (uni : Bool) : Nat := if uni then 2 else 4

/-- What a core has issued in the cycle that CLOCK counts now. -/
def State.issuedIn (s : State) (c : Nat) : List Issue := (s.core c).issuedNow.filter fun x => x.cycle == s.clock

/-- The ready warps of a core that have not issued in this cycle, without one (R37). -/
def State.rivals (s : State) (c k : Nat) : List (Nat × Warp) :=
  (s.core c).warps.filter fun x => x.1 != k && !((s.issuedIn c).any fun y => y.slot == x.1) && s.isReady c x.1

/-- Whether a warp is among the picks of its kind of pipe in this cycle (R37): with what the core has issued and the ready
warps that rank before it, a pipe is left. -/
def State.picked (s : State) (c k : Nat) : Bool :=
  let uni := (s.nextKind c k).1
  let used := ((s.issuedIn c).filter fun x => x.uni == uni).length
  let ahead := ((s.rivals c k).filter fun x => (s.nextKind c x.1).1 == uni && ranksBefore x (k, s.warpAt c k)).length
  used + ahead < pipesOf uni

/-- Whether a warp's engine command keeps the order of the port (R33): no command of a higher slot has issued in this cycle,
and no pick of a lower slot has one to issue. -/
def State.inPortOrder (s : State) (c k : Nat) : Bool :=
  !(s.nextKind c k).2 ||
    (!((s.issuedIn c).any fun x => x.command && k < x.slot) &&
     !((s.rivals c k).any fun x => x.1 < k && (s.nextKind c x.1).2 && s.picked c x.1))

/-- Whether a warp may issue now beside what its core issues in this cycle (R33, R37): at most one instruction of each warp,
and as R37 ranks the ready warps. -/
def State.mayGo (s : State) (c k : Nat) : Bool :=
  match s.issuedIn c, s.rivals c k with
  | [], [] => true
  | done, _ => !(done.any fun x => x.slot == k) && s.picked c k && s.inPortOrder c k

/-- After a warp's turn, which its kind of pipe served: a warp that stalled is only noted; one that issued an instruction, or,
DEDUCED (log 138), took a trap before any, has its wait cleared (R38), its core notes the issue for this cycle (R33, R37, R38)
and is not deadlocked (R404). -/
def State.issued (s : State) (c k : Nat) (kind : Bool × Bool) : State :=
  if s.stalled.contains (c, k) then s
  else
    let co := s.core c
    { s.setCore c { co with warps := co.warps.map (fun x => if x.1 = k then (k, { x.2 with waited := 0 }) else x),
                            issuedNow := s.issuedIn c ++ [⟨s.clock, k, kind.1, kind.2⟩]
                            deadlockSince := none } with stalled := [] }

/-- One issue of the warp in slot k of core c; a dispatcher of boot takes its turn (R308). -/
def State.issueStep (s : State) (c k : Nat) : Host.Outcome State Fault Refusal :=
  if s.canIssue c k && s.mayGo c k then
    if s.dispatches c k then .next (((s.turnTo c k).dispatch (dieOf c)).issued c k (true, true))
    else match s.ready c k with
    | .over t => .next (t.issued c k (s.uniAt (s.warpAt c k), false))
    | .run i t =>
      match exec i t with
      | .next u => .next (u.issued c k (isUni i, isCommand i))
      | r => r
  else .next s

/-! ## The agents -/

/-- The die whose hardware does an agent's step, where a die does it. -/
def stepDie : Instr → Option Nat
  | .loadComplete c _ | .joinwWake c _ | .joinwPoll c _ | .childExitDecrement c _ | .warpRelease c _ | .vtokTokenArrival c _
  | .kindlingEntryArrival c | .childWarpForm c | .warpReturn c | .spawnDeadlock c | .copyExecute c _ | .tabldExecute c _
  | .sgatherExecute c _ | .sreduceExecute c _ | .scvtExecute c _ | .wloadExecute c | .mmaExecute c | .mmasExecute c
  | .accrdExecute c | .accwrExecute c | .acczExecute c | .sortldExecute c | .sortStart c | .sortStep c | .sortstExecute c =>
    some (dieOf c)
  | .mailboxPacketArrival d | .walkRecord d _ | .walkerRetryPass d _ | .tileDone d _ | .gangStart _ d => some d
  | _ => none

/-- Whether a step is one of a die that is isolated or has fenced itself: it has stopped its engines (R437, R439). -/
def State.deadStep (s : State) (i : Instr) : Bool := match stepDie i with | some d => s.dieLost d | none => false

/-- One step of an agent. A word of a warp's program is no agent's step; only a warp issues it. The notes of stalled
warps stay for SPAWN_DEADLOCK and are dropped by every other step, which may have served them. -/
def State.agentStep (s : State) (i : Instr) : Host.Outcome State Fault Refusal :=
  match i.form, i with
  | .step, i =>
    if s.deadStep i then .next s
    else match i with
    | .spawnDeadlock c => exec (.spawnDeadlock c) s
    | i => exec i { s with stalled := [] }
  | _, _ => .next s

/-! ## The order when the schedule is empty (log 1) -/

/-- The agent steps for which a core holds work. -/
def Core.steps (c : Nat) (x : Core) : List Instr :=
  (x.warps.flatMap fun y =>
    (if y.2.inflight.isEmpty then [] else [Instr.loadComplete c y.1]) ++
    (match y.2.park with | some (.join _ _ _ _) => [Instr.joinwWake c y.1, Instr.joinwPoll c y.1] | _ => []) ++
    (if y.2.exitDecs.isEmpty then [] else [Instr.childExitDecrement c y.1]) ++
    (if y.2.status = .retired then [Instr.warpRelease c y.1] else [])) ++
  (x.vtoks.map fun y => Instr.vtokTokenArrival c y.1) ++
  (x.copyq.zipIdx.map fun y => if y.1.dir = 4 then Instr.tabldExecute c y.2 else Instr.copyExecute c y.2) ++
  (x.stackq.zipIdx.map fun y =>
    if y.1.kind = 0 then Instr.sgatherExecute c y.2
    else if y.1.kind = 1 then Instr.sreduceExecute c y.2 else Instr.scvtExecute c y.2) ++
  (match x.mqueue with
   | [] => []
   | y :: _ => match y.kind with
     | .wload => [Instr.wloadExecute c]
     | .mma => [Instr.mmaExecute c]
     | .mmas => [Instr.mmasExecute c]
     | .accrd => [Instr.accrdExecute c]
     | .accwr => [Instr.accwrExecute c]
     | .accz => [Instr.acczExecute c]) ++
  (match x.rqueue with
   | [] => []
   | y :: _ =>
     if y.kind = 0 then [Instr.sortldExecute c]
     else if y.kind = 1 then [Instr.sortStart c, Instr.sortStep c] else [Instr.sortstExecute c]) ++
  (if x.warps.any (fun y => y.2.status == .evicted) then [Instr.warpReturn c] else []) ++
  (if x.kindling.isEmpty && x.overflow.isEmpty then [] else [Instr.childWarpForm c, Instr.spawnDeadlock c])

/-- The agent steps for which a launch may have work. -/
def Launch.steps (n : Nat) (l : Launch) : List Instr :=
  (if l.trap.isSome || l.aborted then [Instr.launchTrapStop n] else []) ++
  [Instr.launchCommit n] ++ l.dies.map (Instr.gangStart n) ++ l.dies.map (Instr.reserveTimeout n) ++
  (l.walkers.flatMap fun x => [Instr.walkRecord x.1 n, Instr.walkerRetryPass x.1 n]) ++
  (l.dones.map fun x => Instr.tileDone x.2 n) ++
  (if l.discards.isEmpty && l.faulting.isNone then [] else [Instr.hwerrTileDiscard n]) ++
  (if l.hdr.kind = 0 then [Instr.walkfault n] else []) ++
  [Instr.launchComplete n, Instr.preemptSave n, Instr.launchResume n, Instr.orderedAddEpochApply n]

/-- The packet steps of a queue, and what completes its started packets. -/
def queueSteps (q : Nat) : List Instr :=
  [.restartApply q, .invalidationComplete ⟨q, List.range 8⟩, .waitvSatisfied q, .xferComplete q, .firmwareStageComplete q,
   .nopPacket q, .launch q, .inval q, .signal q, .waitv q, .queueCreate q, .queueDestroy q, .genadv q, .xfer q, .aspaceCreate q,
   .aspaceSetRoot q, .aspaceDestroy q, .window q, .firmwareStage q, .firmwareActivate q, .queueAging q]

/-- Every agent step of the module that may have work, in the order in which an empty schedule tries them: a tick or frame
that is due comes first, since TIME waits for it. -/
def State.agentSteps (s : State) : List Instr :=
  [.chimneyTick, .flueFrame] ++ (s.cores.flatMap fun c => c.2.steps c.1) ++ (s.travel.map fun t => .kindlingEntryArrival t.core) ++
  ((s.dies.filter fun d => !d.2.incoming.isEmpty).map fun d => .mailboxPacketArrival d.1) ++
  ((s.dies.filter fun d => d.2.resetDue).map fun d => .dieReset d.1) ++
  (s.launches.flatMap fun l => l.2.steps l.1) ++
  ((s.queues.filter fun q => q.2.hasWork || !q.2.started.isEmpty || q.2.restart).flatMap fun q => queueSteps q.1) ++
  [.schedulingRotation]

/-- Whether an agent step does more than look: it changes something beside the counter of free values. -/
def State.moves (s : State) (i : Instr) : Bool :=
  !s.deadStep i && match exec i s with
  | .next t =>
    if i matches .orderedAddEpochApply _ then decide (t.mem ≠ s.mem ∨ t.cores ≠ s.cores)
    else decide ({ t with freeCtr := s.freeCtr } ≠ s)
  | _ => false

/-- The first of a core's ready warps that may issue (R37), among those that have not stalled. -/
def State.bestWarp (s : State) (c : Nat) : Option Nat :=
  let ws := (s.core c).warps.filter fun x => s.canIssue c x.1 && !s.stalled.contains (c, x.1) && s.mayGo c x.1
  match ws with
  | [] => none
  | x :: xs => some (xs.foldl (fun b y => if ranksBefore y b then y else b) x).1

/-- The issue that an empty schedule chooses: the cores in turn. -/
def State.chooseIssue (s : State) : Option Choice :=
  let cs := s.cores.filterMap fun c => (s.bestWarp c.1).map fun k => Choice.issue c.1 k
  cs[s.steps / 2 % max 1 cs.length]?

/-- The agent's step that an empty schedule chooses: the first with work. -/
def State.chooseAgent (s : State) : Option Choice := (s.agentSteps.find? s.moves).map Choice.act

/-- What moves next when the schedule is empty: warps and agents in turn, each in the other's place when it has no work. -/
def State.choose (s : State) : Option Choice :=
  if s.steps % 2 = 0 then s.chooseAgent.or s.chooseIssue else s.chooseIssue.or s.chooseAgent

/-- The choice of this step, and the module before it. -/
def State.take (s : State) : Option Choice × State :=
  match s.schedule with
  | c :: cs => (some c, { s with schedule := cs })
  | [] => (s.choose, s)

/-- Do what was chosen. -/
def State.act (s : State) : Option Choice → Host.Outcome State Fault Refusal
  | some (.issue c k) => s.issueStep c k
  | some (.act i) => s.agentStep i
  | none => .next s

end Sys2Proof.Machine
end

