-- ==== Sys2Proof/Machine/Step.lean ====
section
/-! DEFINITION. One step of the module, and the state in which a given instruction is the next one to run. -/
namespace Sys2Proof.Machine

/-- One step: time passes, and then the schedule's first choice is done (log 1). -/
def step (s : State) : Host.Outcome State Fault Refusal :=
  let r := s.pass.take
  r.2.act r.1

/-! ## A program placed in the module -/

/-- Where the placed program's page tables and its page stand in device memory. -/
def placedRoot : Nat := 0x2000000
def placedPage : Nat := 0x4000000

/-- Page tables of three levels that map virtual address 0 to a 2 MiB page with R, W and X (R211 to R213). -/
def placeTables (m : Memory) : Memory :=
  ((m.writeBytes placedRoot (leBytes 8 0x2010001)).writeBytes 0x2010000 (leBytes 8 0x2020001)).writeBytes
    0x2020000 (leBytes 8 (placedPage + 0x1F))

/-- The header of the placed launch: one warp, 64 registers, entry 0 (R244). -/
def placedHeader : Header := { Header.zero with kind := 1, warps := 1, budget := 64, window := 32 }

/-- A running launch with ENG whose code is a given memory, as the Stoker keeps it. -/
def placedLaunch (code : Memory) : Launch where
  queue := 0
  hwSlot := 0
  num := 0
  off := 0
  word := 0
  asid := 1
  gen := 0
  prio := 7
  hdr := placedHeader
  code := code
  dies := [0]
  eng := true
  flue := none
  schedule := []
  chim := []
  kovf := 0
  kovfSize := 0
  save := 0
  saveSize := 0
  phase := .running
  order := 1
  retries := 0
  reservedAt := 0
  wroteAt := 0
  tick := 0
  sets := []
  started := [0]
  walkers := []
  pend := []
  dones := []
  ntot := 0
  walkStop := false
  listed := []
  faultsPosted := 0
  faultPostAt := 0
  discards := []
  faulting := none
  tasks := []
  ready := []
  nextHandle := 0
  contribs := []
  epochsDone := 0
  areas := []
  trap := none
  trapAt := 0
  aborted := false
  yields := none
  resumed := false
  waiting := none
  failed := false
  savedCores := []
  savedPending := []
  savedChimney := []

/-- The placed warp: a block's only warp, all lanes active, its next instruction at address 0 (R58, R59); it is starving, so
that no other warp of its core goes before it (R37). -/
def placedWarp : Warp :=
  { Warp.free with status := .live, launch := 1, active := 0xFFFFFFFF, launchMask := 0xFFFFFFFF, blockWarps := 1,
                   waited := 64, budget := 64, spillBase := 0x100000, spillSize := 0x10000 }

/-- The placed block. -/
def placedBlock : Block := ⟨1, 0, 0, 0, [0], 0, [], [], [], none⟩

/-- The module with an instruction where its next step fetches: a program comes to run only from a launch that the
host's queue delivers (log 34), so the launch, its address space and its one warp are set, and the schedule names that
warp. Bits of the instruction above nbits are 0. -/
def State.withFetchWord (s : State) (nbits w : Nat) : State :=
  let m := (placeTables s.mem).writeBytes placedPage (leBytes 8 (w % 2 ^ nbits))
  let c := s.core 0
  { s with
    schedule := .issue 0 0 :: s.schedule
    mem := m
    memPoison := []
    aspaces := s.aspaces.set 1 ⟨true, placedRoot, 0⟩
    launches := s.launches.set 1 (placedLaunch m)
    dies := s.dies.set 0 Die.reset
    cores := s.cores.set 0 { c with blocks := c.blocks.set 0 placedBlock, nextBlock := c.nextBlock + 1, issuedNow := [],
                                    warps := c.warps.set 0 placedWarp } }

end Sys2Proof.Machine
end

