-- ==== Sys2Proof/Safety.lean ====
section
/-! DEFINITION. What counts as a safe run, and the terms in which claims speak: the module goes on, whatever its
programs do (R369: every condition of an instruction is a trap); its tables keep their canonical form; an instruction
passes the gate of R351; its sources can be read; where a result goes. -/
namespace Sys2Proof.Machine

/-- Keys strictly rising. -/
def keysRise {α : Type} : AMap α → Bool
  | [] => true
  | [_] => true
  | a :: b :: t => a.1 < b.1 && keysRise (b :: t)

/-- The step answers a next state. -/
def goesOn (o : Host.Outcome State Fault Refusal) : Prop := ∃ t, o = .next t

/-! ## When an instruction has its effect -/

/-- An instruction passes the gate (R113, R184, R351, R364): its warp is live, no ILLEGAL, PRIV or BREAK condition
holds, and no VTOK that it must wait for is pending. -/
def Clear (i : Instr) (s : State) : Bool :=
  s.w.status == .live && (formReasons i.form ++ stateReasons i s).isEmpty &&
  (privDetail i (s.w.kind == .hearth)).isNone && (breakMatch s.w).isNone && (!afterToken i.form || s.w.vtokWaits == 0)

/-- Every source is full, and none is poisoned in a lane of a mask (R50, R394). -/
def Readable (w : Warp) (m : LaneMask) (xs : List Src) : Bool :=
  xs.all fun x => !x.isEmpty w && (lanesOf m).all fun l => (x.poison w l).isNone

/-- The k registers that a uniform instruction reads are full and not poisoned. -/
def ReadableK (w : Warp) (ks : List Nat) : Bool := Readable w 1 (ks.map kSrc)

/-- No loop frame of the warp ends at its pc, so that a control transfer there raises no LOOP fault (R368). -/
def NoLoopEnd (w : Warp) : Bool := (w.loops.find? fun f => f.last == w.pc).isNone

/-! ## Where results go -/

/-- The flags that the acting lanes raise (R118). -/
def laneFlags (m : LaneMask) (fl : Nat → FFlags) : FFlags :=
  (List.range 32).foldl (fun a l => if m.getLsbD l then a ||| fl l else a) 0

/-- The state once a lane instruction has written a register: the acting lanes of vd hold the values, FPSR gathers the
flags, and the warp has completed the instruction (R60, R89, R118). -/
def State.wroteV (s : State) (i : Instr) (lw : LaneW) (val : Nat → Word) (fl : Nat → FFlags) : State :=
  s.finishW ((s.w.putV lw.vd.toNat (s.w.acts lw) (Lanes.of val) (laneFlags (s.w.acts lw) fl))) (s.nextPc i)

/-- The state once a lane instruction has written the acting lanes of a predicate (R124, R138). -/
def State.wroteP (s : State) (i : Instr) (lw : LaneW) (val : Nat → Bool) (fl : Nat → FFlags) : State :=
  s.finishW { s.w.setP (lw.vd.toNat % 8) (s.w.acts lw) (maskOf val) with
                fpsr := s.w.fpsr ||| laneFlags (s.w.acts lw) fl } (s.nextPc i)

/-- The state once a uniform instruction has written kd (R157). -/
def State.wroteK (s : State) (i : Instr) (kd : Nat) (x : Word) : State := s.finishW (s.w.setK kd x) (s.nextPc i)

/-- An operand of a lane, sub-element by sub-element: operands a, b and c as far as the instruction has them (R93, R95). -/
def elems3 (w : Warp) (lw : LaneW) (a b c : Bool) (l j : Nat) : Nat × Nat × Nat :=
  let wd := tyWidth lw.t
  (elem wd (if a then srcA w lw l else 0) j, elem wd (if b then srcB w lw l else 0) j, elem wd (if c then srcC w lw l else 0) j)

/-- The value of a lane that an operation on sub-elements gives (R119). -/
def laneOf (w : Warp) (lw : LaneW) (a b c : Bool) (g : Nat → Nat → Nat → Nat) (l : Nat) : Word :=
  packElems (tyWidth lw.t) (tyCount lw.t) fun j => let e := elems3 w lw a b c l j; g e.1 e.2.1 e.2.2

/-- The flags of a lane that an operation on sub-elements raises. -/
def laneFlagsOf (w : Warp) (lw : LaneW) (a b c : Bool) (g : Nat → Nat → Nat → FFlags) (l : Nat) : FFlags :=
  ((List.range (tyCount lw.t)).map fun j => let e := elems3 w lw a b c l j; g e.1 e.2.1 e.2.2).foldl (· ||| ·) 0

/-! ## Results, as the tables of spec/ have them -/

/-- The field of R122 and R161: its first bit, its length cut at the width, and its mask. -/
def fieldMask (w ctl : Nat) : Nat × Nat × Nat :=
  let pos := ctl % 64
  let len := if w ≤ pos then 0 else min (ctl / 64 % 128) (w - pos)
  (pos, len, (2 ^ len - 1) <<< pos)

/-- The uniform integer instructions (R22, R158 to R162): each with the k registers it reads and the value for kd. -/
def uniResults (w : Warp) (u : UniW) : List (Instr × List Nat × Word) :=
  let a := w.k u.ka.toNat
  let b := uB w u
  let sg := u.f5.getLsbD 0
  let n := b.toNat
  let f := fieldMask 64 n
  let x := (a.toNat &&& f.2.2) >>> f.1
  let ab := uSrcs u true true
  [(.uadd u, ab, BitVec.ofNat 64 (a.toNat + b.toNat)), (.usub u, ab, BitVec.ofInt 64 ((a.toNat : Int) - b.toNat)),
   (.umul u, ab, BitVec.ofNat 64 (a.toNat * b.toNat)),
   (.umulh u, ab, if sg then (a.signExtend 128 * b.signExtend 128).extractLsb' 64 64
                  else (a.setWidth 128 * b.setWidth 128).extractLsb' 64 64),
   (.umin u, ab, if (if sg then b.slt a else b.ult a) then b else a),
   (.umax u, ab, if (if sg then a.slt b else a.ult b) then b else a),
   (.uand u, ab, a &&& b), (.uor u, ab, a ||| b), (.uxor u, ab, a ^^^ b)] ++
  [(.ushl u, ab, if 64 ≤ n then 0 else a <<< n), (.ushr u, ab, if 64 ≤ n then 0 else a >>> n), (.usar u, ab, a.sshiftRight (min n 63)),
   (.uclz u, uSrcs u true false, a.clz), (.upopc u, uSrcs u true false, a.cpop),
   (.ubfx u, ab, BitVec.ofNat 64 (if sg && f.2.1 != 0 then modN 64 (toSigned f.2.1 x) else x)),
   (.ubfi u, ab ++ [u.kd.toNat],
      (w.k u.kd.toNat &&& ~~~(BitVec.ofNat 64 f.2.2)) ||| ((a <<< f.1) &&& BitVec.ofNat 64 f.2.2)),
   (.umov u, uSrcs u false true, b), (.umovlo u, ab, a.extractLsb' 32 32 ++ b.extractLsb' 0 32),
   (.umovhi u, ab, b.extractLsb' 0 32 ++ a.extractLsb' 0 32),
   (.ucmp u, ab, if (let s := u.f5.getLsbD 3
                     let lt := fun (x y : Word) => if s then x.slt y else x.ult y
                     match u.f5.toNat % 8 with
                     | 0 => a == b | 1 => a != b | 2 => lt a b | 3 => !lt b a | 4 => lt b a | _ => !lt a b) then 1 else 0),
   (.udiv u, ab, if b = 0 then BitVec.allOnes 64 else if sg then a.sdiv b else a / b),
   (.urem u, ab, if b = 0 then a else if sg then a.srem b else a % b),
   (.widf u, [], let i := u.f5.toNat
      let width := fun (j : Nat) => bits w.widfmt.toNat (6 * j + 5) (6 * j)
      if w.kind = .child ∨ bits w.widfmt.toNat 38 36 ≤ i then 0
      else BitVec.ofNat 64 (w.wid.toNat / 2 ^ ((List.range i).map width).sum % 2 ^ width i))]

/-- The lane integer instructions that work on sub-elements (R119 to R123): the operands each reads, and its result on
patterns a, b and c of the type. -/
def intResults (lw : LaneW) : List (Instr × (Bool × Bool × Bool) × (Nat → Nat → Nat → Nat)) :=
  let ty := lw.t
  let w := tyWidth ty
  let v := intVal ty
  let p := BitVec.ofNat w
  let fit' := fit ty lw.sat
  let ab := (true, true, false)
  let a' := (true, false, false)
  let abc := (true, true, true)
  [(.iadd lw, ab, fun a b _ => fit' (v a + v b)), (.isub lw, ab, fun a b _ => fit' (v a - v b)),
   (.imul lw, ab, fun a b _ => fit' (v a * v b)), (.imulh lw, ab, fun a b _ => fit ty false (v a * v b / (2 : Int) ^ w)),
   (.imad lw, abc, fun a b c => fit' (v a * v b + v c)),
   (.imin lw, ab, fun a b _ => if v a ≤ v b then a else b), (.imax lw, ab, fun a b _ => if v a ≤ v b then b else a),
   (.iabs lw, a', fun a _ _ => fit' (v a).natAbs), (.ineg lw, a', fun a _ _ => fit' (0 - v a)),
   (.and lw, ab, fun a b _ => (p a &&& p b).toNat), (.or lw, ab, fun a b _ => (p a ||| p b).toNat),
   (.xor lw, ab, fun a b _ => (p a ^^^ p b).toNat), (.andn lw, ab, fun a b _ => (p a &&& ~~~(p b)).toNat)] ++
  [(.shl lw, ab, fun a b _ => if w ≤ b then 0 else (p a <<< b).toNat), (.shr lw, ab, fun a b _ => if w ≤ b then 0 else (p a >>> b).toNat),
   (.sar lw, ab, fun a b _ => ((p a).sshiftRight (min b (w - 1))).toNat), (.rol lw, ab, fun a b _ => ((p a).rotateLeft (b % w)).toNat),
   (.clz lw, a', fun a _ _ => (p a).clz.toNat), (.popc lw, a', fun a _ _ => (p a).cpop.toNat),
   (.brev lw, a', fun a _ _ => (p a).reverse.toNat),
   (.bfx lw, ab, fun a b _ =>
      let f := fieldMask w b
      let x := (a &&& f.2.2) >>> f.1
      if tySigned ty && f.2.1 != 0 then modN w (toSigned f.2.1 x) else x),
   (.bfi lw, abc, fun a b c =>
      let f := fieldMask w c
      ((p a &&& ~~~(p f.2.2)) ||| ((p b <<< f.1) &&& p f.2.2)).toNat),
   (.movlo lw, ab, fun a b _ => (a / 65536 % 65536) * 65536 + b % 65536),
   (.movhi lw, ab, fun a b _ => (b % 65536) * 65536 + a % 65536),
   (.idot4 lw, abc, fun a b c =>
      let byte := fun (s : Bool) (x k : Nat) => if s then toSigned 8 (x / 256 ^ k % 256) else ((x / 256 ^ k % 256 : Nat) : Int)
      let s0 := lw.fn.testBit 0
      let s1 := lw.fn.testBit 1
      fit' (v c + byte s0 a 0 * byte s1 b 0 + byte s0 a 1 * byte s1 b 1 + byte s0 a 2 * byte s1 b 2 + byte s0 a 3 * byte s1 b 3)),
   (.isat lw, a', fun a _ _ =>
      let tg := lw.fn % 16
      modN w (max (intMin tg) (min (intMax tg) (v a))))]

/-- MOV and SEL (R123), which move all 64 bits: the operands each reads, and the value of lane l. -/
def moveResults (w : Warp) (lw : LaneW) : List (Instr × (Bool × Bool × Bool) × (Nat → Word)) :=
  [(.mov lw, (false, true, false), fun l => srcB w lw l),
   (.sel lw, (true, true, false), fun l =>
      let sel := xor ((w.p (lw.fn % 8)).getLsbD l) (lw.fn.testBit 3)
      if sel then srcA w lw l else srcB w lw l)]

/-- The float instructions that work on sub-elements (R77, R125 to R129): the operands each reads, and its delivered
result and flags. -/
def floatResults (lw : LaneW) : List (Instr × (Bool × Bool × Bool) × (Nat → Nat → Nat → Nat × FFlags)) :=
  let ty := lw.t
  let rm := lw.rm
  let fi := flushIn ty lw.fi
  let out := deliver ty lw.fo lw.sat
  let ab := (true, true, false)
  let a' := (true, false, false)
  let abc := (true, true, true)
  [(.fadd lw, ab, fun a b _ => out (addF ty rm false (fi a) (fi b))), (.fsub lw, ab, fun a b _ => out (addF ty rm true (fi a) (fi b))),
   (.fmul lw, ab, fun a b _ => out (mulF ty rm (fi a) (fi b))),
   (.ffma lw, abc, fun a b c => out (fmaF ty rm (fi a) (fi b) (fi c))),
   (.fmin lw, ab, fun a b _ => out (minMaxF ty false (fi a) (fi b))), (.fmax lw, ab, fun a b _ => out (minMaxF ty true (fi a) (fi b)))] ++
  [(.frcp lw, a', fun a _ _ => out (rcpF ty rm (fi a))), (.frsq lw, a', fun a _ _ => out (rsqF ty rm (fi a))),
   (.fsqrt lw, a', fun a _ _ => out (sqrtF ty rm (fi a))), (.fexp2 lw, a', fun a _ _ => out (exp2F ty rm (fi a))),
   (.flog2 lw, a', fun a _ _ => out (log2F ty rm (fi a))), (.frnd lw, a', fun a _ _ => out (rndF ty rm (lw.fn.testBit 0) (fi a))),
   (.fdot2 lw, abc, fun a b c =>
      let sf := lw.fn % 16
      let h := 2 ^ tyWidth sf
      let fs := flushIn sf lw.fi
      out (dot2F ty sf rm (fi c) (fs (a % h)) (fs (b % h)) (fs (a / h)) (fs (b / h)))),
   (.fldexp lw, ab, fun a b _ => out (ldexpF ty rm (fi a) (toSigned (tyWidth ty) b)))]

/-- The three conversions (R132). -/
def convertInstrs (lw : LaneW) : List Instr := [.fcvt lw, .i2f lw, .f2i lw]

/-- The sources of a conversion: a narrowing one reads the old vd. -/
def convertSrcs (w : Warp) (lw : LaneW) : List Src :=
  arithSrcs w lw true false false ++ if tyWidth lw.t < tyWidth (lw.fn % 16) then [vSrc lw.vd.toNat false 0] else []

/-- The instructions that write a predicate (R124, R138): sources, test of lane l, flags of lane l. -/
def predResults (w : Warp) (lw : LaneW) : List (Instr × List Src × (Nat → Bool) × (Nat → FFlags)) :=
  let n := tyCount lw.t
  let m := w.acts lw
  let a := fun l j => elem (tyWidth lw.t) (srcA w lw l) j
  let b := fun l j => elem (tyWidth lw.t) (srcB w lw l) j
  let fi := flushIn lw.t lw.fi
  let ofElems := fun (any : Bool) (t : Nat → Bool) => if any then (List.range n).any t else (List.range n).all t
  let t := fun l => xor ((w.p (lw.va.toNat % 8)).getLsbD l) (lw.xf.testBit 2)
  [(.isetp lw, arithSrcs w lw true true false,
      fun l => ofElems (lw.fn.testBit 3) fun j => cmpI (lw.fn % 8) (intVal lw.t (a l j)) (intVal lw.t (b l j)), fun _ => 0),
   (.fsetp lw, arithSrcs w lw true true false,
      fun l => ofElems (lw.fn.testBit 3) fun j => cmpF lw.t (lw.fn % 8) (fi (a l j)) (fi (b l j)),
      fun l => if (List.range n).any fun j => isSNaN lw.t (fi (a l j)) || isSNaN lw.t (fi (b l j)) then flNV else 0),
   (.fclass lw, arithSrcs w lw true false false,
      fun l => ofElems (lw.fn.testBit 10) fun j => lw.fn.testBit (classF lw.t (fi (a l j))), fun _ => 0),
   (.elect lw, [], fun l => (lanesOf m).all fun j => l ≤ j, fun _ => 0)] ++
  (if lw.xf % 4 = 3 then []
   else [(.vote lw, [], fun _ =>
      match lw.xf % 4 with
      | 0 => (lanesOf m).all t
      | 1 => (lanesOf m).any t
      | _ => (lanesOf m).all t || !(lanesOf m).any t, fun _ => 0)])

/-- The cross-lane instructions that write a register (R135 to R141): sources, value of lane l, flags of lane l. -/
def crossResults (w : Warp) (lw : LaneW) : List (Instr × List Src × (Nat → Word) × (Nat → FFlags)) :=
  let ty := lw.t
  let wd := tyWidth ty
  let n := tyCount ty
  let m := w.acts lw
  let va := fun l => (w.v lw.va.toNat).getD l 0
  let vb := fun l => (w.v lw.vb.toNat).getD l 0
  let a1 := [vSrc lw.va.toNat lw.ta 0]
  let zero := fun (_ : Nat) => (0 : FFlags)
  let conv := fun (r : List (Nat × FFlags)) => BitVec.ofNat 64 (packFrom wd (r.map Prod.fst))
  let convFl := fun (r : List (Nat × FFlags)) => (r.map Prod.snd).foldl (· ||| ·) 0
  let sf := lw.fn % 16
  let pk := fun l => convList lw sf ty (va l) 0 (tyCount sf) ++ convList lw sf ty (vb l) 0 (tyCount sf)
  let up := fun l => convList lw sf ty (va l) (if lw.xf.testBit 0 then n else 0) n
  let net := benesFrom (AMap.get 0 w.benes (lw.xf % 8))
  let index := fun l i => elem wd (vb l) i
  let zr := fun l i => lw.xf.testBit 0 && decide (32 * n ≤ index l i)
  [(.lperm lw,
      [⟨false, lw.va.toNat, lw.ta, 0, fun l => (List.range n).filterMap fun i => if zr l i then none else some (index l i % (32 * n) / n)⟩,
       vSrc lw.vb.toNat lw.tb 1],
      fun l => packElems wd n fun i => if zr l i then 0 else elem wd (va (index l i % (32 * n) / n)) (index l i % n), zero),
   (.benes lw, [⟨false, lw.va.toNat, lw.ta, 0, fun l => [net.getD l 0]⟩], fun l => va (net.getD l 0), zero),
   (.lsr lw, [], fun l => packElems wd n fun i =>
      match lw.xf % 8 with
      | 0 => l | 1 => i | 2 => l * n + i | 3 => 2 ^ l - 1 | 4 => 2 ^ l | 5 => w.active.toNat | _ => w.launchMask.toNat, zero),
   (.subx lw, vSrc lw.va.toNat lw.ta 0 :: (if lw.xf % 4 = 0 then [vSrc lw.vb.toNat lw.tb 1] else []),
      fun l => packElems wd n fun i =>
        elem wd (va l) (match lw.xf % 4 with
          | 0 => elem wd (vb l) i % n | 1 => n - 1 - i | 2 => lw.xf / 4 | _ => (i + lw.xf / 4) % n), zero),
   (.pack lw, [vSrc lw.va.toNat lw.ta 0, vSrc lw.vb.toNat lw.tb 1], fun l => conv (pk l), fun l => convFl (pk l)),
   (.unpack lw, a1, fun l => conv (up l), fun l => convFl (up l)),
   (.lscan lw, a1, fun l => (foldLanes w m lw true).1.getD l 0, fun _ => (foldLanes w m lw true).2),
   (.lred lw, a1, fun l => (foldLanes w m lw false).1.getD l 0, fun _ => (foldLanes w m lw false).2)] ++
  (if lw.xf % 4 = 3 then
     [(.vote lw, [], fun _ => BitVec.setWidth 64 (m &&& maskOf fun l => xor ((w.p (lw.va.toNat % 8)).getLsbD l) (lw.xf.testBit 2)),
       zero)]
   else [])

/-! ## What a word is misused by

The rows of R113, R374, R376, R378 to R380, R382 and R389, each with the reason that it has in R357, and the tables of the
entries that they speak of. -/

/-- The types that a lane entry permits (R119 to R132, R134, R143, R152). -/
def laneTypes (opc : Nat) : List Nat :=
  if opc ∈ [0x08, 0x10] then [0, 1, 2, 3]
  else if opc ∈ [0x0A, 0x0B, 0x0C, 0x0D, 0x0E, 0x0F, 0x11, 0x12, 0x13, 0x14, 0x49] then [0, 1, 2, 3, 4, 5, 6, 7, 15]
  else if opc ∈ [0x15, 0x16, 0x56, 0x57] then [2, 3, 6, 7, 15]
  else if opc ∈ [0x1A, 0x1B, 0x1C] then [2, 6]
  else if opc ∈ [0x17, 0x41, 0x42, 0x48] || 0x5A ≤ opc then [15]
  else if opc ∈ [0x2D, 0x58, 0x59] then [10, 11, 12]
  else if opc = 0x32 then [10, 12]
  else if opc = 0x2E then [8, 9, 10, 11, 12, 13, 14]
  else if opc = 0x46 then List.range 15
  else if opc = 0x47 then List.range 14
  else if opc ∈ [0x19, 0x40, 0x43, 0x44, 0x45] || 0x50 ≤ opc then List.range 14 ++ [15]
  else if opc < 0x20 || opc = 0x30 then List.range 8
  else [8, 9, 10, 11, 12, 13]

/-- Whether a lane entry reads operand a, operand b and vc (R119 to R132, R134, R143). -/
def laneReadsA (opc : Nat) : Bool := !(opc ∈ [0x19, 0x42, 0x48, 0x49])
def laneReadsB (opc xf : Nat) : Bool :=
  !(opc ∈ [0x08, 0x09, 0x12, 0x13, 0x14, 0x1D, 0x27, 0x41, 0x42, 0x43, 0x44, 0x47, 0x48, 0x49]) && !(0x28 ≤ opc && opc ≤ 0x31) &&
  !(opc ∈ [0x50, 0x52, 0x54, 0x5A, 0x5B, 0x5D, 0x5E]) && (opc != 0x45 || xf % 4 == 0)
def laneReadsC (opc : Nat) : Bool := opc ∈ [0x05, 0x16, 0x1C, 0x23, 0x32, 0x57]

/-- Whether an arithmetic entry has an immediate form (R116), and whether it uses SAT. -/
def laneImm (opc : Nat) : Bool := laneReadsB opc 0 && !laneReadsC opc && !(opc ∈ [0x17, 0x18, 0x26, 0x33])
def laneSats (opc : Nat) : Bool :=
  opc ∈ [0x01, 0x02, 0x03, 0x05, 0x08, 0x09, 0x1C] || (0x20 ≤ opc && opc ≤ 0x33 && opc != 0x26 && opc != 0x27)

/-- The FN bits that a lane entry defines, and the XF bits of a cross-lane entry. -/
def laneFn (opc : Nat) : Nat :=
  if opc ∈ [0x17, 0x18, 0x1D, 0x26, 0x32, 0x46, 0x47] then 0xF
  else if opc = 0x1C then 3 else if opc = 0x27 then 0x7FF else if opc = 0x2D then 7
  else if opc ∈ [0x2E, 0x2F, 0x30] then 0x7F else if opc = 0x31 then 1 else 0
def crossXf (opc : Nat) : Nat :=
  if opc ∈ [0x40, 0x47] then 1 else if opc ∈ [0x41, 0x42, 0x49] then 7
  else if opc = 0x43 then 0x1F else if opc = 0x44 then 0xF else if opc = 0x45 then 0x3F else 0

/-- The pairs that FCVT, I2F and F2I convert (R132): destination and source type, and the part. -/
def converts (opc ty sf part : Nat) : Bool :=
  (if opc = 0x2E then decide (8 ≤ sf) && decide (sf ≤ 14) && !(sf == 14 && (ty == 13 || ty == 14)) && !(sf == 13 && ty == 14)
   else if opc = 0x2F then decide (sf < 8) else decide (8 ≤ sf) && decide (sf ≤ 13)) &&
  decide (part < max (tyWidth sf) (tyWidth ty) / min (tyWidth sf) (tyWidth ty))

/-- The pairs of PACK and UNPACK, the wide type first (R140). -/
def packs (wide narrow : Nat) : Bool :=
  (wide, narrow) ∈ [(1, 0), (1, 4), (5, 0), (5, 4), (2, 1), (2, 5), (6, 1), (6, 5), (3, 2), (3, 6), (7, 2), (7, 6)] ||
  (wide, narrow) ∈ [(13, 12), (12, 10), (12, 11), (10, 8), (10, 9), (11, 8), (11, 9), (0, 14), (4, 14), (8, 14), (9, 14)]

/-- A TY that the entry does not permit; 14 with TK = 0; an immediate of f8a or f8b beyond 8 bits (R374, "any"). -/
def anyMisuse (opc : Nat) (w : LaneW) : List (Bool × Nat) :=
  [(!(laneTypes opc).contains w.t || (w.t == 14 && !w.tk), 3), (decide (5 ≤ w.rm), 5),
   (!w.tk && (w.t == 8 || w.t == 9) && decide (256 ≤ w.imm16), 4)]

/-- The arithmetic class (R94, R95, R116, R374). -/
def arithMisuse (opc : Nat) (w : LaneW) : List (Bool × Nat) :=
  let a := laneReadsA opc
  let b := laneReadsB opc 0
  anyMisuse opc w ++
  [(w.lpa == 7 || w.lpb == 7 || (w.lpa == 6 && w.lpb == 6), 6), (!w.tk && (w.lpb != 0 || w.vb != 0), 6),
   (!w.tk && !laneImm opc, 12), (!w.tk && w.tc, 4), (w.tk && (w.fn &&& laneFn opc) != w.fn, 4),
   (w.tk && !laneReadsC opc && (w.vc != 0 || w.tc), 4), (!a && (w.va != 0 || w.ta || w.lpa != 0), 4),
   (!b && (w.vb != 0 || w.tb || w.lpb != 0), 4), (!laneSats opc && w.sat, 4),
   (decide (opc ∈ [0x18, 0x26, 0x27]) && (decide (8 ≤ w.vd.toNat) || w.fo), 4)] ++
  [(w.tk && opc == 0x1D && decide (8 ≤ w.fn % 16), 12), (w.tk && opc == 0x17 && w.fn == 15, 12),
   (w.tk && opc == 0x18 && decide (6 ≤ w.fn % 8), 12),
   (w.tk && opc == 0x32 && !decide ((w.t, w.fn % 16) ∈ [(12, 10), (12, 11), (10, 8), (10, 9)]), 3),
   (w.tk && decide (opc ∈ [0x2E, 0x2F, 0x30]) && !converts opc w.t (w.fn % 16) (bits w.fn 6 4), 12)]

/-- The cross-lane class (R133, R134, R139, R140, R374); which modifiers PACK and UNPACK use is log 115. -/
def crossMisuse (opc : Nat) (w : LaneW) : List (Bool × Nat) :=
  let fold := opc == 0x43 || opc == 0x44
  let pack := opc == 0x46 || opc == 0x47
  let op := w.xf % 8
  let wide := if opc = 0x46 then w.fn % 16 else w.t
  let narrow := if opc = 0x46 then w.t else w.fn % 16
  let ok := packs wide narrow
  let ints := decide (wide < 8) && decide (narrow < 8)
  let mode := w.xf % 4
  anyMisuse opc w ++
  [(!w.tk, 12), (w.tk && (w.vc != 0 || (w.fn &&& laneFn opc) != w.fn), 4), (w.tc || (w.xf &&& crossXf opc) != w.xf, 4),
   (!laneReadsA opc && w.ta, 4), (!laneReadsA opc && opc != 0x42 && w.va != 0, 4),
   (!laneReadsB opc w.xf && (w.vb != 0 || w.tb), 4),
   (!(fold && tyFloat w.t) && !(pack && (!w.tk || (ok && !ints))) && (w.rm != 0 || w.fi || w.fo), 4),
   (!(fold && (tyFloat w.t || (op == 0 && w.t != 15))) && !(pack && (!w.tk || ok)) && w.sat, 4)] ++
  [(fold && decide (6 ≤ op), 12), (fold && ((decide (op ≤ 2) && w.t == 15) || (decide (3 ≤ op) && decide (op ≤ 5) && tyFloat w.t)), 3),
   (pack && w.tk && !ok, 3), (opc == 0x45 && decide (mode < 2) && decide (4 ≤ w.xf), 4),
   (opc == 0x45 && decide (2 ≤ mode) && decide (tyCount w.t ≤ w.xf / 4), 12),
   (opc == 0x42 && (decide (8 ≤ w.va.toNat) || (mode != 3 && decide (8 ≤ w.vd.toNat))), 4), (opc == 0x48 && decide (8 ≤ w.vd.toNat), 4),
   (opc == 0x49 && op == 7, 12)]

/-- The memory class (R96, R143, R146, R376). -/
def memMisuse (opc : Nat) (w : LaneW) : List (Bool × Nat) :=
  let ords := if opc ∈ [0x50, 0x52, 0x54] then [0, 1, 2] else if opc ∈ [0x51, 0x53, 0x55] then [0, 1, 3]
    else if opc ∈ [0x56, 0x57] then [1, 2, 3, 4] else if opc ∈ [0x58, 0x59] then [1, 3] else [0]
  let atom := opc == 0x56
  [(!(laneTypes opc).contains w.t, 3), (!ords.contains w.ord, 7), (decide (5 ≤ w.scp) || (w.ord == 0 && w.scp != 0), 7),
   (w.rem && !(decide (opc ∈ [0x50, 0x54, 0x56, 0x57]) && (w.ord == 2 || w.ord == 4)), 7),
   (w.hint != 0 && !decide (opc ∈ [0x50, 0x51, 0x56, 0x57, 0x58, 0x59, 0x5A]), 7), (bits w.tl 3 1 != 0, 4),
   (!decide (opc ∈ [0x50, 0x52, 0x54, 0x56, 0x57, 0x5B]) && w.vd != 0, 4), (!laneReadsB opc 0 && (w.vb != 0 || w.tb), 4),
   (w.tc && opc != 0x57, 4)] ++
  [(decide (opc ∈ [0x56, 0x57]) && !w.tk, 12), (!decide (opc ∈ [0x56, 0x57]) && w.tk && w.vc != 0, 4),
   (atom && w.tk && w.atomNr && w.atomOp == 6, 12), (atom && w.tk && w.atomNr && w.vd != 0, 4),
   (atom && w.tk && w.t == 15 && !decide (w.atomOp ∈ [3, 4, 5, 6]), 3)]

/-- The control class (R98, R152, R378). -/
def ctlMisuse (opc : Nat) (w : LaneW) : List (Bool × Nat) :=
  let spawns := opc == 0x61 || opc == 0x62
  [(!(laneTypes opc).contains w.t, 3), (bits w.tl 15 10 != 0 || bits w.tl 6 1 != 0, 4),
   (decide (opc ∈ [0x60, 0x61]) && (w.tail.isNone || w.tk), 4), (opc == 0x62 && (!w.tk || decide (64 ≤ w.fn)), 4),
   (opc == 0x60 && (w.ta || w.tb || w.tc), 4), (opc == 0x63 && (w.tail.isSome || w.vd != 0 || w.va != 0 || w.vb != 0), 4),
   (spawns && (decide (8 ≤ w.vb.toNat) || w.tb || (opc == 0x61 && w.tc)), 4), (spawns && decide (5 ≤ w.vb.toNat % 8), 12)]

/-- A lane word (R374). -/
def laneMisuse (opc : Nat) (w : LaneW) : List (Bool × Nat) :=
  [(opc == 0, 1), (w.gn && w.gp == 7, 2)] ++
  if 1 ≤ opc ∧ opc ≤ 0x1D ∨ 0x20 ≤ opc ∧ opc ≤ 0x33 then arithMisuse opc w
  else if 0x40 ≤ opc ∧ opc ≤ 0x49 then crossMisuse opc w
  else if 0x50 ≤ opc ∧ opc ≤ 0x5E then memMisuse opc w
  else if 0x60 ≤ opc ∧ opc ≤ 0x63 then ctlMisuse opc w else []

/-- Whether a UREG entry uses kd, ka and kb (R158, R163, R165, R173, R188). -/
def uniUsesD (opc : Nat) : Bool :=
  (1 ≤ opc && opc ≤ 0x1A) || opc ∈ [0x24, 0x26, 0x33, 0x37, 0x3A] || (0x45 ≤ opc && opc ≤ 0x4A) || opc ∈ [0x53, 0x55, 0x57, 0x58, 0x59]
def uniUsesA (opc : Nat) : Bool :=
  (1 ≤ opc && opc ≤ 0x1A && opc != 0x11 && opc != 0x17) || opc ∈ [0x24, 0x2D, 0x35, 0x36, 0x39] || (0x40 ≤ opc && opc ≤ 0x49) ||
    opc ∈ [0x4C, 0x4E, 0x51, 0x53, 0x54, 0x55, 0x56, 0x59, 0x64]
def uniUsesB (opc : Nat) : Bool :=
  (1 ≤ opc && opc ≤ 0x1A && opc != 0x0D && opc != 0x0E && opc != 0x17) || opc ∈ [0x34, 0x36, 0x40, 0x41] ||
    (0x45 ≤ opc && opc ≤ 0x4E) || opc ∈ [0x51, 0x53, 0x58, 0x59, 0x64]

/-- The F5 bits that a UREG entry uses. -/
def uniF5 (opc : Nat) : Nat :=
  if opc ∈ [0x04, 0x05, 0x06, 0x0F, 0x15, 0x16, 0x38, 0x4C, 0x4E] then 1
  else if opc ∈ [0x40, 0x41, 0x64] then 3 else if opc ∈ [0x46, 0x47, 0x4A, 0x4D, 0x53] then 7
  else if opc ∈ [0x14, 0x39, 0x3A, 0x48, 0x49] then 0xF
  else if opc ∈ [0x17, 0x1A, 0x2A, 0x2B, 0x31, 0x32] then 0x1F else 0

/-- The control word of ULD, UST and UATOM (R163, R379). -/
def cwMisuse (opc : Nat) (w : UniW) : List (Bool × Nat) :=
  let c := w.cw
  let ord := bits c 15 13
  let ords := if opc = 0x18 then [0, 1, 2] else if opc = 0x19 then [0, 1, 3] else [1, 2, 3, 4]
  let space := bits c 3 2
  [(!ords.contains ord, 7), (decide (5 ≤ bits c 12 10) || (ord == 0 && bits c 12 10 != 0), 7),
   (bit c 6 && (opc == 0x19 || !(ord == 2 || ord == 4)), 7), (space == 3 || (bits c 5 4 != 0 && space != 0), 12),
   (bit c 7 && opc != 0x18, 12), (opc == 0x1A && (space == 1 || bits c 9 8 == 1 || bits c 9 8 == 2), 12), (bits c 1 0 != 0, 4)]

/-- A UREG word (R104, R379, R380, R382 to R384, R386, R388). -/
def uniMisuse (opc : Nat) (w : UniW) : List (Bool × Nat) :=
  let f := w.f5.toNat
  let d := w.kd.toNat
  let hearth := opc == 0x57 || opc == 0x58
  if opc = 0 then [(w.lit.isSome || d != 0 || w.ka != 0 || w.kb != 0 || f != 0, 1)]
  else
    let cw := opc ∈ [0x18, 0x19, 0x1A]
    [(w.lit.isSome && (!uniUsesB opc || opc == 0x53 || opc == 0x59), 8), (w.lit.isSome && !cw && w.kb != 0, 8),
     (!uniUsesD opc && d != 0, 4), (!uniUsesA opc && w.ka != 0, 4), (!uniUsesB opc && w.kb != 0, 4), ((f &&& uniF5 opc) != f, 4)] ++
    [(opc == 0x14 && decide (6 ≤ f % 8), 12), (opc == 0x17 && decide (6 ≤ f), 12), (opc == 0x1A && bit f 3 && f % 8 == 6, 12),
     (opc == 0x1A && bit f 3 && d != 0, 4), (opc == 0x24 && decide (33 ≤ d), 12),
     (opc == 0x26 && (d % 4 != 0 || decide (d < 4) || decide (32 < d)), 12),
     (opc == 0x32 && (decide (5 ≤ f % 8) || f / 8 == 3), 12), (opc == 0x41 && f % 2 == 1, 12), (opc == 0x64 && f % 4 == 3, 12)] ++
    [((opc == 0x48 || opc == 0x49) && bit f 3 && (decide (32 ≤ d) || w.ka != 0), 4), (opc == 0x4D && !bit f 2 && w.lit.isSome, 8),
     (opc == 0x4D && !bit f 2 && w.kb != 0, 4), (hearth && (d == 0 || decide (57 ≤ d)), 12),
     (opc == 0x59 && (w.ka == 0 || decide (57 ≤ w.ka.toNat)), 12)] ++
    if cw then cwMisuse opc w else []

/-- A CSR number from 0x000 to 0x1FF that R58 or R354 lists, and whether software may write it. -/
def csrListed (n : Nat) : Bool :=
  n ≤ 8 || n ∈ [0x010, 0x020, 0x021, 0x030, 0x031, 0x032, 0x040, 0x050, 0x060] || (0x100 ≤ n && n ≤ 0x10B) ||
    (0x110 ≤ n && n ≤ 0x113) || (0x118 ≤ n && n ≤ 0x11B) || n == 0x1F0
def csrWritable (n : Nat) : Bool :=
  n ∈ [0x010, 0x020, 0x021, 0x100, 0x102, 0x103] || (0x108 ≤ n && n ≤ 0x10B) || (0x110 ≤ n && n ≤ 0x113) ||
    (0x118 ≤ n && n ≤ 0x11B) || n == 0x1F0

/-- Every row that speaks of an instruction in a state, with its reason: a word's own rows, then a TRET outside a handler, a
CHIM on a channel that is unarmed, armed at the other level or another launch's, and an engine-state instruction of a launch
without ENG (R380, R382, R389; in a Hearth context log 119). -/
def misuses (i : Instr) (s : State) : List (Bool × Nat) :=
  (match i.form with
   | .lane opc w => laneMisuse opc w
   | .uni opc w => uniMisuse opc w
   | .br _ w => [(w.lit.isSome, 8)]
   | .brk opc w => [(w.lit.isSome && (opc != 0x27 || w.r != 0), 8), (opc == 0x23 && decide (33 ≤ w.r.toNat), 12),
       (opc == 0x27 && decide (w.off.toInt < if w.lit.isSome then 2 else 1), 12)]
   | .rep w => [(w.lit.isSome || w.low != 0, 9)]
   | .csr opc w => [(w.low != 0, 4), (w.lit.isSome && (opc == 0x60 || w.r != 0), 8),
       (!(decide (0x200 ≤ w.csr.toNat) && decide (w.csr.toNat < 0x400)) &&
         !(if opc = 0x60 then csrListed w.csr.toNat else csrWritable w.csr.toNat), 10)]
   | .step => []) ++
  (match i with
   | .tret _ => [(!s.w.inTrap, 11)]
   | .chim u => [(match AMap.find? (s.die (dieOf s.curCore)).chimney (u.f5.toNat % 16) with
       | none => true
       | some c => c.module != u.f5.getLsbD 4 || c.launch != s.w.launch, 12)]
   | _ => []) ++
  let eng := match i.form with
    | .lane opc _ => opc == 0x2D || opc == 0x5E
    | .uni opc _ => decide (0x45 ≤ opc) && decide (opc ≤ 0x52) || opc == 0x54
    | .csr opc w => opc != 0x60 && w.csr.toNat == 0x1F0
    | _ => false
  [(eng && !(match s.curLaunch? with | some l => l.eng | none => false), 13)]

/-! ## Rounding, NaNs and folds, read from the tables of spec/ once more -/

/-- The exponent field and the mantissa field of a pattern (R65). -/
def expField (ty x : Nat) : Nat := x / 2 ^ fMan ty % 2 ^ fExp ty
def manField (ty x : Nat) : Nat := x % 2 ^ fMan ty

/-- NaN codes, signalling NaNs and infinities of the format table (R65 to R67), among patterns of the type's width. -/
def nanCode (ty x : Nat) : Bool := if ty = 8 then x == 128 else expField ty x == 2 ^ fExp ty - 1 && manField ty x != 0
def sigCode (ty x : Nat) : Bool := ty != 8 && nanCode ty x && decide (manField ty x < 2 ^ (fMan ty - 1))
def infCode (ty x : Nat) : Bool := ty != 8 && expField ty x == 2 ^ fExp ty - 1 && manField ty x == 0

/-- A NaN with its quiet bit set, the rest of it unchanged (R67). -/
def quietCode (ty x : Nat) : Nat := if sigCode ty x then x + 2 ^ (fMan ty - 1) else x

/-- A NaN of a type in a wider one (R81): its sign, quiet, its payload at the top; from F8A the default NaN. -/
def widened (sf dt x : Nat) : Nat :=
  if sf = 8 then defaultNaN dt
  else x / 2 ^ (tyWidth sf - 1) * 2 ^ (tyWidth dt - 1) + (2 ^ fExp dt - 1) * 2 ^ fMan dt +
    manField sf (quietCode sf x) * 2 ^ (fMan dt - fMan sf)

/-- A pattern of a type whose value is finite, and that value (R65, R66). -/
def finiteCode (ty x : Nat) : Bool := decide (x < 2 ^ tyWidth ty) && !nanCode ty x && !infCode ty x
def ratOf (ty x : Nat) : ℚ :=
  (if x / 2 ^ (tyWidth ty - 1) = 0 then 1 else -1) *
    if expField ty x = 0 then (manField ty x : ℚ) / 2 ^ fMan ty * (2 : ℚ) ^ (1 - fBias ty)
    else (1 + (manField ty x : ℚ) / 2 ^ fMan ty) * (2 : ℚ) ^ ((expField ty x : Int) - fBias ty)

/-- The largest finite value of a format, the distance of the next value that its mantissa would have, and the smallest
normal value (R65). -/
def topValue (ty : Nat) : ℚ := ratOf ty (maxPat ty false)
def topStep (ty : Nat) : ℚ := (2 : ℚ) ^ ((fTop ty : Int) - fBias ty - fMan ty)
def leastNormal (ty : Nat) : ℚ := (2 : ℚ) ^ (1 - fBias ty)

/-- Whether a mode rounds a value of a sign away from zero (R73). -/
def awayMode (rm : Nat) (neg : Bool) : Bool := (rm == 2 && !neg) || (rm == 3 && neg)

/-- r is the neighbour of x that a mode of R73 asks for: the finite pattern that no other one comes before. -/
def Neighbour (ty rm : Nat) (x : ℝ) (r : Nat) : Prop :=
  let v := fun (q : Nat) => ((ratOf ty q : ℚ) : ℝ)
  finiteCode ty r = true ∧ ∀ q, finiteCode ty q = true →
    if rm = 1 then |v r| ≤ |x| ∧ 0 ≤ v r * x ∧ (|v q| ≤ |x| → |v q| ≤ |v r|)
    else if rm = 2 then x ≤ v r ∧ (x ≤ v q → v r ≤ v q)
    else if rm = 3 then v r ≤ x ∧ (v q ≤ x → v q ≤ v r)
    else |v r - x| ≤ |v q - x| ∧ (|v q - x| = |v r - x| → v q = v r ∨ if rm = 4 then |v q| ≤ |v r| else r % 2 = 0)

/-- Whether rounding with an unbounded exponent goes beyond the largest finite value (R74 step 2): from half a step on to
the nearest, from a whole step on toward zero, and at once away from zero. -/
def Overflows (ty rm : Nat) (x : ℝ) : Prop :=
  if rm = 0 ∨ rm = 4 then ((topValue ty + topStep ty / 2 : ℚ) : ℝ) ≤ |x|
  else if awayMode rm (decide (x < 0)) then ((topValue ty : ℚ) : ℝ) < |x| else ((topValue ty + topStep ty : ℚ) : ℝ) ≤ |x|

/-- Whether x, rounded with an unbounded exponent, stays below the smallest normal value (R78, UF). -/
def Tiny (ty rm : Nat) (x : ℝ) : Prop :=
  let step : ℚ := leastNormal ty / 2 ^ (fMan ty + 1)
  if rm = 0 ∨ rm = 4 then |x| < ((leastNormal ty - step / 2 : ℚ) : ℝ)
  else if awayMode rm (decide (x < 0)) then |x| ≤ ((leastNormal ty - step : ℚ) : ℝ) else |x| < ((leastNormal ty : ℚ) : ℝ)

/-- What Round delivers for an exact result that is not zero, with its flags (R66, R73, R74, R78). -/
def RoundsTo (ty rm : Nat) (x : ℝ) (y : FRes) : Prop :=
  let neg := decide (x < 0)
  let v := ((ratOf ty y.pat : ℚ) : ℝ)
  (Overflows ty rm x → y = if rm = 0 ∨ rm = 4 ∨ awayMode rm neg = true then ⟨infPat ty neg, flOF ||| flNX, some neg⟩
    else ⟨maxPat ty neg, flOF ||| flNX, none⟩) ∧
  (¬Overflows ty rm x → Neighbour ty rm x y.pat ∧ y.inf = none ∧ (v = 0 → y.pat = zeroPat ty neg) ∧
    (v = x → y.fl = 0) ∧ (v ≠ x → (Tiny ty rm x → y.fl = flUF ||| flNX) ∧ (¬Tiny ty rm x → y.fl = flNX)))

/-- n is the integer that a mode of R73 gives for x. -/
def IntegerOf (rm : Nat) (x : ℝ) (n : Int) : Prop :=
  if rm = 1 then |(n : ℝ)| ≤ |x| ∧ |x| < |(n : ℝ)| + 1 ∧ 0 ≤ (n : ℝ) * x
  else if rm = 2 then (n : ℝ) - 1 < x ∧ x ≤ n
  else if rm = 3 then (n : ℝ) ≤ x ∧ x < n + 1
  else |(n : ℝ) - x| ≤ 1 / 2 ∧ (|(n : ℝ) - x| = 1 / 2 → if rm = 4 then |x| ≤ |(n : ℝ)| else n % 2 = 0)

/-- What an exact value comes to in a type, by Round of R74 in a float type and by F2I of R81 in an integer one; neg is the
sign of a zero. -/
def Lands (ty rm : Nat) (x : ℝ) (neg : Bool) (y : Nat) : Prop :=
  if tyFloat ty then (x = 0 → y = zeroPat ty neg) ∧ (x ≠ 0 → ∃ fl inf, RoundsTo ty rm x ⟨y, fl, inf⟩)
  else ∀ n, IntegerOf rm x n → y = modN (tyWidth ty) (max (intMin ty) (min n (intMax ty)))

/-- y is Conv (R81) of the element x times 2^k, without FI, FO and SAT. -/
def Converted (fa fb rm : Nat) (k : Int) (x y : Nat) : Prop :=
  let neg := if tyFloat fa then decide (x / 2 ^ (tyWidth fa - 1) = 1) else decide (intVal fa x < 0)
  if tyFloat fa = true ∧ nanCode fa x = true then
    y = if !tyFloat fb then 0 else if fa = fb then quietCode fa x
      else if tyWidth fa < tyWidth fb then widened fa fb x else defaultNaN fb
  else if tyFloat fa = true ∧ infCode fa x = true then
    y = if tyFloat fb then infPat fb neg else modN (tyWidth fb) (if neg then intMin fb else intMax fb)
  else Lands fb rm (((if tyFloat fa then ratOf fa x else (intVal fa x : ℚ)) * (2 : ℚ) ^ k : ℚ) : ℝ) neg y

/-- Node j of a level of R84's tree over a sequence, whose absent positions are none, and the flags of its subtree. -/
def treeNode (op : Nat → Nat → Nat × FFlags) (xs : Nat → Option Nat) : Nat → Nat → Option Nat × FFlags
  | 0, j => (xs j, 0)
  | l + 1, j =>
    let a := treeNode op xs l (2 * j)
    let b := treeNode op xs l (2 * j + 1)
    match a.1, b.1 with
    | some x, some y => (some (op x y).1, (op x y).2 ||| (a.2 ||| b.2))
    | some x, none => (some x, a.2 ||| b.2)
    | none, y => (y, a.2 ||| b.2)

/-- A combination of the node that stands so far, with the flags raised so far, and the next one (R84). -/
def joinNodes (op : Nat → Nat → Nat × FFlags) (acc : Option Nat × FFlags) (y : Option Nat) : Option Nat × FFlags :=
  match acc.1, y with
  | some x, some y => (some (op x y).1, acc.2 ||| (op x y).2)
  | some x, none => (some x, acc.2)
  | none, y => (y, acc.2)

/-- The combination of the nodes that cover the n positions from a start in aligned blocks, the largest first, and the flags
of its combinations (R84): after what has been combined, the block of each lower level that n has room for. -/
def treeScan (op : Nat → Nat → Nat × FFlags) (xs : Nat → Option Nat) : Nat → Nat → Nat → Option Nat × FFlags → Option Nat × FFlags
  | 0, start, n, acc => if n = 0 then acc else joinNodes op acc (xs start)
  | l + 1, start, n, acc =>
    if n < 2 ^ (l + 1) then treeScan op xs l start n acc
    else treeScan op xs l (start + 2 ^ (l + 1)) (n - 2 ^ (l + 1))
      (joinNodes op acc (treeNode op xs (l + 1) (start / 2 ^ (l + 1))).1)

/-- The Q4X byte of a pair of elements, and its flags (R70, R132, R141). -/
def q4Pair (lw : LaneW) (sf x y : Nat) : Nat × FFlags :=
  let value := fun z => elemQ sf (if tyFloat sf then flushIn sf lw.fi z else z)
  q4Encode (value x) (value y)

/-- Element k of a lane value in q4x, in units of 2^-6 (R69). -/
def q4Element (a : Word) (k : Nat) : Int := let p := q4Decode (elem 8 a (k / 2)); if k % 2 = 0 then p.1 else p.2

/-- What a Q4X element, in units of 2^-6, becomes in another type: exactly in a float type, its integer part in an integer
type (R71, R81, R141). -/
def Q4Gives (lw : LaneW) (dt : Nat) (u : Int) (r : Nat × FFlags) : Prop :=
  if tyFloat dt then finiteCode dt r.1 = true ∧ ratOf dt r.1 = (u : ℚ) / 64 ∧ (u = 0 → r.1 = 0) ∧ r.2 = 0
  else r = (fit dt lw.sat (u.tdiv 64), 0)

/-- The value of an element as it enters the encoder of R70, before and after its clamp: a NaN counts as 0. -/
def q4Bare : QVal → Option ℚ
  | .nan => some 0
  | .inf _ => none
  | .fin n e => some ((n : ℚ) * (2 : ℚ) ^ e)
def q4Clamped : QVal → ℚ
  | .nan => 0
  | .inf s => if s then -512 else 512
  | .fin n e => max (-512) (min 512 ((n : ℚ) * (2 : ℚ) ^ e))

/-- The candidate of R70 that a byte belongs to: A (two integers), B (an even outlier), C (an odd outlier). -/
def q4Rank (c : Nat) : Nat := if c % 16 = 8 then 1 else if c / 16 = 8 then 2 else 0

/-- The exact combination of integer patterns (R139): .add, .min and .max on their values, .and, .or and .xor on the
patterns; the identity for none. -/
def foldInts (ty op : Nat) (l : List Nat) : Int :=
  let v := l.map (intVal ty)
  let b := fun (f : Word → Word → Word) (z : Word) => ((((l.map (BitVec.ofNat 64)).foldl f z).toNat : Nat) : Int)
  if op = 0 then v.sum
  else if op = 1 then v.foldl min (intMax ty)
  else if op = 2 then v.foldl max (intMin ty)
  else if op = 3 then b (· &&& ·) (BitVec.ofNat 64 (2 ^ tyWidth ty - 1))
  else if op = 4 then b (· ||| ·) 0 else b (· ^^^ ·) 0

/-! ## Control -/

/-- The address that an offset in words names (R105). -/
def wordsFrom {n : Nat} (a : Word) (off : BitVec n) : Word := a + 4 * off.signExtend 64

/-- A warp that has gone on to an address: what completing an instruction clears is cleared. -/
def Warp.goTo (w : Warp) (next : Word) : Warp :=
  { w with pc := next, rep := none, repFrom := 0, replay := none, suppress := false }

/-- The warp in the frame that a call with overlap n makes (R46, R167). -/
def Warp.called (w : Warp) (n : Nat) (target : Word) : Warp :=
  { w.goTo target with base := w.base + (w.m - n), m := n, entered := false,
                       links := ⟨w.pc + 4, w.m, n, w.entered, false⟩ :: w.links }

/-- The WINDOW trap of an instruction (R357, R367): its reason, the n or m that it names, its word, and the occupancy. -/
def Warp.windowStop (w : Warp) (i : Instr) (reason named : Nat) : Trap :=
  ⟨gWINDOW, BitVec.ofNat 32 (reason + 16 * (named % 64)), BitVec.ofNat 32 (wordsOf i).1, BitVec.ofNat 32 (w.occupancy % 2 ^ 24),
    isUni i, false, none, false⟩

/-- The LOOP trap of an instruction (R357, R368): its reason, its word, and the low bits of a loop's first address. -/
def loopStop (i : Instr) (reason : Nat) (first : Word) : Trap :=
  ⟨gLOOP, BitVec.ofNat 32 reason, BitVec.ofNat 32 (wordsOf i).1, first.setWidth 32, isUni i, false, none, false⟩

/-- The uniform control transfers (R168), each with the k registers that it reads. -/
def uniTransfers (b : BrW) (r : BrkW) (u : UniW) : List (Instr × List Nat) :=
  [(.bra b, []), (.brz r, [r.r.toNat]), (.brnz r, [r.r.toNat]), (.call r, []), (.callr u, [u.ka.toNat]), (.ret u, []), (.enter u, []),
   (.loop r, if r.lit.isSome then [] else [r.r.toNat]), (.exit u, []), (.brk u, []), (.trap u, []), (.tret u, []),
   (.jmpr u, [u.ka.toNat])]

/-- Whether a warp's handler takes a trap of a group (R352, R361). -/
def Warp.handles (w : Warp) (g : Nat) : Bool :=
  !(g ∈ [gFETCH, gXLATE, gGEN, gJOIN, gHWERR, gLINK]) && w.tvec != 0 && !w.inTrap && w.kind != .hearth

/-- The handler's address for a group (R355). -/
def handlerOf (tvec : Word) (g : Nat) : Word :=
  let base := (tvec.extractLsb' 2 50).setWidth 64 <<< 2
  if tvec.getLsbD 0 then (base &&& ~~~0x7FF) + BitVec.ofNat 64 (64 * g) else base

/-- The warp after it has entered its handler (R359): resume address, cause, details, SUPP, and the REP in progress. -/
def Warp.trapped (w : Warp) (resume : Word) (cause : BitVec 7) (d0 d1 d2 : BitVec 32) (supp : Bool) : Warp :=
  { w with
    tmask := w.active
    tepc := resume.setWidth 52
    tcause := cause
    detail0 := d0
    detail1 := d1
    detail2 := d2
    tstat := (match w.rep with | some r => BitVec.ofNat 6 r.next ++ 1#1 | none => 0#7) ++ BitVec.ofBool supp ++ 1#1
    rep := none
    suppress := false
    links := ⟨resume &&& 0x000FFFFFFFFFFFFF, w.m, 0, w.entered, true⟩ :: w.links
    base := w.base + w.m
    m := 0
    entered := false
    pc := handlerOf w.tvec (cause.toNat % 32) }

/-! ## Memory -/

/-- Whether a place lies in the module: a scratchpad, or device memory of region 00. -/
def Place.inside : Place → Bool
  | .mem pa => regionOf pa == 0
  | .spad _ _ => true

/-- The value of n bytes at a place (R87). -/
def State.valueAt (s : State) (p : Place) (n : Nat) : Nat :=
  match p with
  | .mem pa => s.mem.readN pa n
  | .spad c off => (s.core c).spad.readN off n

/-- Whether n bytes at two places share no byte. -/
def Place.apart (n : Nat) : Place → Place → Bool
  | .mem a, .mem b => a + n ≤ b || b + n ≤ a
  | .spad c a, .spad d b => c != d || a + n ≤ b || b + n ≤ a
  | _, _ => true

/-- Whether accesses of n bytes meet either in all of their bytes or in none. -/
def inWholes (n : Nat) (ps : List (Nat × Place)) : Bool := ps.all fun x => ps.all fun y => x.2 == y.2 || x.2.apart n y.2

/-- What a load of n bytes of device memory may read (R218): memory, or a line that the core's L1 holds; an atomic one, no
line of which the core's own stores have written only a part of its bytes last (R228). -/
def State.mayRead (s : State) (core pa n : Nat) (atom : Bool) : List (List Byte) :=
  let off := pa % 256
  let whole := fun (x : L1Line) => match x.own.find? fun r => r.1 < off + n && off < r.1 + r.2 with
    | some r => r.1 ≤ off && off + n ≤ r.1 + r.2
    | none => true
  s.mem.bytes pa n ::
    ((s.core core).l1.filter fun x => x.line == pa / 256 && (!atom || whole x)).map fun x => x.bytes.bytes off n

/-- Every byte of device memory outside some places of n bytes is as it was. -/
def State.keepsOutside (s t : State) (n : Nat) (ps : List (Nat × Place)) : Prop :=
  (∀ a, (∀ p ∈ ps, ∀ pa, p.2 = .mem pa → a < pa ∨ pa + n ≤ a) → t.mem.read a = s.mem.read a) ∧
  ∀ c a, (∀ p ∈ ps, ∀ off, p.2 = .spad c off → a < off ∨ off + n ≤ a) → (t.core c).spad.read a = (s.core c).spad.read a

/-- The memories that an access can write are in their canonical form. -/
def State.plain (s : State) (ps : List (Nat × Place)) : Bool :=
  s.mem.wf && ps.all fun p => match p.2 with | .mem _ => true | .spad c _ => (s.core c).spad.wf

/-- The lane loads and their spaces, and the lane stores (R143). -/
def laneLoads (lw : LaneW) : List (Instr × Nat) := [(.ld lw, 0), (.lds lw, 1), (.ldc lw, 2)]
def laneStores (lw : LaneW) : List (Instr × Nat) := [(.st lw, 0), (.sts lw, 1), (.stc lw, 2)]

/-- The new value of an atomic operation on patterns of a type (R146). -/
def atomResult (ty op old b : Nat) : Nat :=
  let x := BitVec.ofNat (tyWidth ty) old
  let y := BitVec.ofNat (tyWidth ty) b
  let v := intVal ty
  match op with
  | 0 => (x + y).toNat
  | 1 => if v b < v old then b else old
  | 2 => if v old < v b then b else old
  | 3 => (x &&& y).toNat
  | 4 => (x ||| y).toNat
  | 5 => (x ^^^ y).toNat
  | 6 => b
  | _ => if v b ≤ v old then 0 else (x + 1).toNat

/-- An atomic lane instruction: whether it reads vc, the register that takes the old value, what it asks for, and the new
value that lane l writes over an old one (R146 to R148). -/
structure AtomForm where
  instr : Instr
  readsC : Bool
  vd : Option Nat
  req : Req
  new : Nat → Nat → Option Nat

/-- ATOM, CAS and FADDA. -/
def atomForms (w : Warp) (lw : LaneW) : List AtomForm :=
  let wd := tyWidth lw.t
  let b := fun l => ((w.v lw.vb.toNat).getD l 0).toNat % 2 ^ wd
  let c := fun l => ((w.v lw.vc).getD l 0).toNat % 2 ^ wd
  [⟨.atom lw, false, if lw.atomNr then none else some lw.vd.toNat,
      reqOf (if lw.atomSp then 2 else 0) 2 (tyLog lw.t) (lw.atomOp == 0 || lw.atomOp == 6),
      fun l old => some (atomResult lw.t lw.atomOp old (b l))⟩,
   ⟨.cas lw, true, some lw.vd.toNat, reqOf 0 2 (tyLog lw.t) true, fun l old => if old = b l then some (c l) else none⟩,
   ⟨.fadda lw, false, none, reqOf 0 2 (tyLog lw.t) false, fun l old => some (addF lw.t 0 false old (b l)).pat⟩]

/-- What a lane memory instruction of R376 reads, writes and asks for. -/
structure LaneAccess where
  instr : Instr
  readsB : Bool
  readsC : Bool
  vd : Option Nat
  req : Req

/-- The lane memory instructions whose accesses can fail (R143, R376). -/
def laneAccesses (w : Warp) (lw : LaneW) : List LaneAccess :=
  (laneLoads lw).map (fun x => ⟨x.1, false, false, some lw.vd.toNat, reqOf x.2 0 (tyLog lw.t) true⟩) ++
  (laneStores lw).map (fun x => ⟨x.1, true, false, none, reqOf x.2 1 (tyLog lw.t) true⟩) ++
  (atomForms w lw).map (fun x => ⟨x.instr, true, x.readsC, x.vd, x.req⟩) ++
  [⟨.faddo lw, true, false, none, reqOf 0 2 (tyLog lw.t) false⟩]

/-- The lane instructions that read registers, each with its sources and the v register that it writes (R50 to R52): those of
the arithmetic and cross-lane classes, and those that access memory. -/
def laneReaders (w : Warp) (lw : LaneW) : List (Instr × List Src × Option Nat) :=
  let arith := fun (x : Bool × Bool × Bool) => arithSrcs w lw x.1 x.2.1 x.2.2
  let vd := some lw.vd.toNat
  (intResults lw).map (fun x => (x.1, arith x.2.1, vd)) ++ (moveResults w lw).map (fun x => (x.1, arith x.2.1, vd)) ++
  (floatResults lw).map (fun x => (x.1, arith x.2.1, vd)) ++ [(.ftab lw, arith (true, false, false), vd)] ++
  (convertInstrs lw).map (fun i => (i, convertSrcs w lw, vd)) ++ (predResults w lw).map (fun x => (x.1, x.2.1, none)) ++
  (crossResults w lw).map (fun x => (x.1, x.2.1, vd))
def memReaders (w : Warp) (lw : LaneW) : List (Instr × List Src × Option Nat) :=
  (laneAccesses w lw).map fun x => (x.instr, memSrcs lw x.readsB x.readsC, x.vd)

/-- The uniform integer instructions, and those that access memory with the request of each and its address: the k registers
that each reads, and the one that it writes. -/
def uniReaders (w : Warp) (u : UniW) : List (Instr × List Nat × Option Nat) :=
  (uniResults w u).map fun x => (x.1, x.2.1, some u.kd.toNat)
def uniAccesses (w : Warp) (u : UniW) : List ((Instr × List Nat × Option Nat) × Req × Word) :=
  let q := fun access needR => (⟨cwSpace u.cw, access, needR, access != 0, 2 ^ cwLog u.cw, cwLog u.cw,
    access != 2 || u.f5.toNat % 8 == 0 || u.f5.toNat % 8 == 6, true⟩ : Req)
  [((.uld u, [u.ka.toNat, u.kb.toNat], some u.kd.toNat), q 0 true, uniAddr w u true),
   ((.ust u, [u.ka.toNat, u.kb.toNat, u.kd.toNat], none), q 1 false, uniAddr w u true),
   ((.uatom u, [u.ka.toNat, u.kb.toNat], if u.f5.getLsbD 3 then none else some u.kd.toNat), q 2 true, uniAddr w u false)]

/-- The HWERR trap of an instruction that reads a poisoned source in some lanes (R357, R394): for a register-store error the
register's number, for an accumulator row its tile and row too, and else the address of the load in the memory form. -/
def poisonStop (x : Src) (p : RegPoison) (unif : Bool) (lanes : LaneMask) : Trap :=
  let stop := fun (d1 d2 : BitVec 32) => (⟨gHWERR, lanes, d1, d2, unif, false, none, false⟩ : Trap)
  if p.reason = 2 then stop (BitVec.ofNat 32 (x.reg + if x.isK then 64 else 0)) 0x20000000
  else if p.reason = 4 then stop (BitVec.ofNat 32 (x.reg + 256 * p.tile + 2048 * p.row)) 0x40000000
  else stop (p.addr.setWidth 32) (BitVec.ofNat 4 p.reason ++ 0#4 ++ BitVec.ofNat 4 p.space ++ p.addr.extractLsb' 32 20)

/-- The first poisoned source that lane l reads, in operand order. -/
def firstPoison (w : Warp) (xs : List Src) (l : Nat) : Option (Src × RegPoison) :=
  xs.findSome? fun x => (x.poison w l).map fun p => (x, p)

/-- The translation caches that a core uses hold no entry for an address but what the walk gives (R214, R215). -/
def State.cachesAgree (s : State) (core asid root a : Nat) (gen : BitVec 16) : Prop :=
  ∀ e ∈ (s.core core).tlb ++ (s.die (dieOf core)).tlb, e.asid = asid → e.gen = gen → e.va ≤ a → a < e.va + e.size →
    s.walk root a = .leaf e.leaf

/-- The value at a place of n bytes behind the updates of lanes, one after the other (R147). -/
def atomChain (n : Nat) (new : Nat → Nat → Option Nat) (p : Place) (l : List (Nat × Place)) (v : Nat) : Nat :=
  l.foldl (fun v q => if q.2 = p then (match new q.1 v with | some x => x % 2 ^ (8 * n) | none => v) else v) v

/-! ## Spawning -/

/-- The sources of SPAWN, and of SPAWNT when place is set (R152, R156). -/
def spawnSrcs (lw : LaneW) (place : Bool) : List Src :=
  (payRegs lw).map (fun r => vSrc r lw.ta 0) ++ [vSrc lw.vd.toNat false 1] ++
    (if place then [vSrc lw.vc lw.tc 2, kSrc (bits lw.fn 5 0)] else [])

/-- The lane control transfers (R168), each with the sources that it reads. -/
def laneTransfers (lw : LaneW) : List (Instr × List Src) :=
  [(.brd lw, []), (.exitl lw, []), (.spawn lw, spawnSrcs lw false), (.spawnt lw, spawnSrcs lw true)]

/-- The join address of a lane. -/
def spawnJoin (w : Warp) (lw : LaneW) (l : Nat) : Nat := ((w.v lw.vd.toNat).getD l 0).toNat

/-- The acting lanes that name a join counter. -/
def spawnJoiners (w : Warp) (lw : LaneW) : List Nat := (lanesOf (w.acts lw)).filter fun l => spawnJoin w lw l != 0

/-- The accesses of SPAWN and SPAWNT: the join counters, and for SPAWNT the places that name channel groups. -/
def spawnReqs (w : Warp) (lw : LaneW) (place : Bool) : List (Nat × Req × Nat) :=
  (spawnJoiners w lw).map (fun l => (l, joinReq false, spawnJoin w lw l)) ++
    (if place then (lanesOf (w.acts lw)).map fun l => (l, placeReq, ((w.v lw.vc).getD l 0).toNat) else [])

/-- The child of a lane (R156, R291). -/
def spawnChild (s : State) (lw : LaneW) (entry : Word) (l : Nat) : Kindle where
  launch := s.w.launch
  entry := entry
  join := (s.w.v lw.vd.toNat).getD l 0
  pay := ((payRegs lw).map fun r => (s.w.v r).getD l 0) ++ List.replicate (4 - lw.vb.toNat % 8) 0
  n := lw.vb.toNat % 8
  budget := s.w.budget
  epoch := s.w.epoch
  coreid := coreId s.curCore
  lane := l
  arrived := 0

/-! ## Control and status registers -/

/-- What every CSR that R58, R354 and R355 list reads. -/
def csrValues (s : State) : List (Nat × Word) :=
  let w := s.w
  [(0x000, w.wid), (0x001, w.widfmt), (0x002, BitVec.ofNat 64 (coreId s.curCore)),
   (0x003, BitVec.ofNat 64 (256 * w.idx + s.curSlot)), (0x004, BitVec.ofNat 64 w.blockWarps), (0x005, w.launchMask ++ w.active),
   (0x006, 0#32 ++ (match s.curLaunch? with | some l => l.hdr.tag | none => 0)), (0x007, BitVec.ofNat 64 s.clock),
   (0x008, BitVec.ofNat 64 s.time), (0x010, 0#59 ++ w.fpsr), (0x020, 0#51 ++ w.lpcfg0), (0x021, 0#40 ++ w.lpcfg1),
   (0x030, BitVec.ofNat 64 w.budget), (0x031, BitVec.ofNat 64 w.spillBase), (0x032, BitVec.ofNat 64 w.spillSize),
   (0x040, 0#32 ++ (match w.batches.head? with | some b => b.num | none => w.newest + 1) ++ w.newest)] ++
  [(0x050, BitVec.ofNat 64 (4096 * s.co.riddle.state + 16 * s.co.riddle.step + s.co.riddle.phase)),
   (0x060, 0#63 ++ BitVec.ofBool s.co.tabBank), (0x100, w.tvec), (0x101, 0#57 ++ w.tcause), (0x102, 0#12 ++ w.tepc), (0x103, 0#55 ++ w.tstat),
   (0x104, 0#32 ++ w.tmask), (0x105, 0#32 ++ w.detail0), (0x106, 0#32 ++ w.detail1), (0x107, 0#32 ++ w.detail2),
   (0x118, AMap.get 0 w.wpaddr 0), (0x119, AMap.get 0 w.wpaddr 1), (0x11A, AMap.get 0 w.wpctl 0), (0x11B, AMap.get 0 w.wpctl 1),
   (0x1F0, 0#24 ++ s.co.mxflags)] ++
  ((List.range 4).map fun j => (0x108 + j, AMap.get 0 w.tscr j)) ++ (List.range 4).map fun j => (0x110 + j, AMap.get 0 w.bpaddr j)

/-- The CSRs that software writes: the bits that a write sets, and those that it leaves (R59, R354, R355). -/
def csrFields : List (Nat × Word × Word) :=
  [(0x010, 0x1F, 0), (0x020, 0x1FFF, 0), (0x021, 0xFFFFFF, 0), (0x100, 0xFFFFFFFFFFFFD, 0), (0x102, 0xFFFFFFFFFFFFF, 0), (0x103, 0x1FE, 1),
   (0x118, 0xFFFFFFFFFFFFF, 0), (0x119, 0xFFFFFFFFFFFFF, 0), (0x11A, 0xFF, 0), (0x11B, 0xFF, 0), (0x1F0, 0xFFFFFFFFFF, 0)] ++
  ((List.range 4).map fun j => (0x108 + j, BitVec.allOnes 64, 0)) ++ (List.range 4).map fun j => (0x110 + j, 0xFFFFFFFFFFFFD, 0)

/-- CSRW, CSRS and CSRC, each with the value it writes of the old one and the source (R185). -/
def csrUpdates (w : CsrW) : List (Instr × (Word → Word → Word)) :=
  [(.csrw w, fun _ x => x), (.csrs w, fun old x => old ||| x), (.csrc w, fun old x => old &&& ~~~x)]

/-! ## Engines -/

/-- A command that reads a descriptor at issue (R187, R190 to R192): the k registers it reads, the size of its
descriptor, its group, whether its queue is full, the reason of R383 for a descriptor, and what joins the queues. -/
structure DescForm where
  instr : Instr
  ks : List Nat
  size : Nat
  group : Nat
  full : Bool
  reason : State → List Byte → Option Nat
  copies : List Byte → List CopyCmd
  stackCmds : List Byte → List StackCmd

/-- TCOPY, TCOPYM, SGATHER, SREDUCE and SCVT. -/
def descForms (s : State) (u : UniW) : List DescForm :=
  let n := s.w.newest + 1
  let dir := u.f5.toNat % 4
  let mc := (uB s.w u).toNat
  let copyFull := decide (64 ≤ s.co.copyq.length)
  let stackFull := decide (32 ≤ s.co.stackq.length)
  let stack := fun (i : Instr) (kind : Nat) =>
    (⟨i, [u.ka.toNat], 64, gSTACKENG, stackFull, stackReason kind, fun _ => [],
      fun d => [⟨s.curSlot, s.w.owner, n, kind, d, 0, none, false⟩]⟩ : DescForm)
  [⟨.tcopy u, uSrcs u true true, 256, gCOPY, copyFull, fun _ d => copyReason dir none d,
      fun d => [⟨s.curSlot, s.w.owner, n, dir, BitVec.ofNat 64 (fieldN d 0 8) + uB s.w u, d, [s.curCore], false, [], [], none, false⟩], fun _ => []⟩,
   ⟨.tcopym u, uSrcs u true true, 256, gCOPY, copyFull, fun _ d => copyReason dir (some mc) d,
      fun d => [⟨s.curSlot, s.w.owner, n, dir, BitVec.ofNat 64 (fieldN d 0 8), d,
        ((List.range 16).filter fun j => mc.testBit j).map fun j => 192 * dieOf s.curCore + bits mc 23 16 + j, false, [], [], none, false⟩], fun _ => []⟩,
   stack (.sgather u) 0, stack (.sreduce u) 1, stack (.scvt u) 2]

/-- The queued matrix commands, each with its kind and whether it reads ka (R193, R196, R198). -/
def matrixForms (u : UniW) : List (Instr × MatKind × Bool) :=
  [(.wload u, .wload, true), (.mma u, .mma, true), (.mmas u, .mmas, true), (.accz u, .accz, false)] ++
    if u.f5.getLsbD 3 then [] else [(.accrd u, .accrd, true), (.accwr u, .accwr, true)]

/-- The element of a tile at a row and a column (R44). -/
def Core.accAt (c : Core) (tile row col : Nat) : BitVec 32 := AMap.get 0 c.acc (16384 * tile + 128 * row + col)

/-- SORTLD, SORT and SORTST: what each reads, its kind, its offset, its control word, and its reason of R386. -/
def sortForms (w : Warp) (u : UniW) : List (Instr × List Nat × Nat × Nat × Word × Option Nat) :=
  let off := (w.k u.ka.toNat).toNat
  let c := uB w u
  [(.sortld u, uSrcs u true true, 0, off, c, sortReason true (u.f5.getLsbD 0) off c.toNat),
   (.sortst u, uSrcs u true true, 2, off, c, sortReason false (u.f5.getLsbD 0) off c.toNat),
   (.sort u, if u.f5.getLsbD 2 then uSrcs u false true else [], 1, 0, if u.f5.getLsbD 2 then c else 0, none)]

/-- The warp once a join has reported a failed operation to its handler (R358, R359). -/
def Warp.reported (w : Warp) (f : FailedOp) (next : Word) : Warp :=
  ({ w with park := none, wakePc := next } : Warp).trapped w.pc (BitVec.ofNat 7 (96 + f.group)) f.d0 f.d1 f.d2
    (f.group == gWATCH || f.group == gBREAK && f.d0.getLsbD 31)

/-- A row of an MMA or MMAS (R82, R83, R196): the new elements of stream row j, from the old ones; formats and scales as
the latch and the control word have them. -/
def MatCmd.rowOf (x : MatCmd) (l : Latch) (c : Core) (sparse : Bool) (j : Nat) (old : List (BitVec 32)) : List (BitVec 32) :=
  let k := x.ctl.toNat
  let sf := mmaSfmt k
  let kk := mxK l.fmt sf
  let int := mxInt l.fmt && mxInt sf
  let sa := fun b => scaleAt c.scale (mmaSoff k + (j * (kk / 32) + b) * scaleSize (mmaScf k)) (mmaScf k)
  let sw := fun b col => scaleAt c.scale (l.wsoff + (b * mxN l.fmt + col) * scaleSize l.scf) l.scf
  let a := ((streamRows c sparse sf x.off (mmaM k) kk)[j]?.map Prod.fst).getD []
  (mmaRow int sparse kk a (l.columns kk) (fun b col => if !int && mx8 sf then [sa b, sw b col] else []) old).1

end Sys2Proof.Machine
end

