-- ==== Sys2Proof/Certificates/Slice0/Obligations.lean ====
section
/-! DEFINITION. The statements for the provers. -/
open Sys2Proof Sys2Proof.Machine

/-- R88, R102, R103, R106: words written out bit by bit from the encodings decode to the instructions they stand for. -/
def Obligations.SpecWordsDecode : Prop :=
  decode (wordBytes 0b0_0_0000001_1_010_0100_00011_00100_00101#32) = .ok (.iadd ⟨true, 2, 4, 3, 4, 5, none⟩, []) ∧
  decode (wordBytes 0b0_1_0100011_0_111_1001_00001_00010_00011#32 ++ wordBytes 0b101#32) =
    .ok (.ffma ⟨false, 7, 9, 1, 2, 3, some 5⟩, []) ∧
  decode (wordBytes 0b0_0_1000010_0_111_0000_01010_00110_00000#32) = .ok (.vote ⟨false, 7, 0, 10, 6, 0, none⟩, []) ∧
  decode (wordBytes 0b0_0_1010001_0_111_0010_00000_10000_10001#32) = .ok (.st ⟨false, 7, 2, 0, 16, 17, none⟩, []) ∧
  decode (wordBytes 0b1_0_0000001_000011_000100_000101_00000#32) = .ok (.uadd ⟨3, 4, 5, 0, none⟩, []) ∧
  decode (wordBytes 0b1_0_0100000_00000000000000000001010#32) = .ok (.bra ⟨10, none⟩, []) ∧
  decode (wordBytes 0b1_0_0100011_000010_00000000000001000#32) = .ok (.call ⟨2, 8, none⟩, []) ∧
  decode (wordBytes 0b1_0_0101000_000111_01_10_00_11_000000000#32) = .ok (.rep ⟨7, 1, 2, 0, 3, 0, none⟩, []) ∧
  decode (wordBytes 0b1_0_1100000_000101_000000001000_00000#32) = .ok (.csrr ⟨5, 8, 0, none⟩, []) ∧
  decode (wordBytes 0b1_0_0110010_000000_000000_000000_10010#32) = .ok (.fence ⟨0, 0, 0, 18, none⟩, []) ∧
  decode (wordBytes 0b1_0_1000110_001000_000010_000011_00101#32) = .ok (.mma ⟨8, 2, 3, 5, none⟩, []) ∧
  decode (wordBytes 0b0_0_1111111_0_000_0000_00000_00000_00000#32) = .error (.reservedLane 127) ∧
  decode (wordBytes 0b1_0_1111110_000000_000000_000000_00000#32) = .error (.reservedUniform 126)

/-- R87, R88, R102, R103, R106, R111 to R113: the bytes of every instruction, with every operand at every value, decode to it
and leave the bytes behind it; and bytes that decode are the instruction's own bytes and what follows them, so that no two
instructions share bytes and a reserved opcode decodes to none. -/
def Obligations.DecodeEncode : Prop :=
  (∀ (i : Instr) (rest : List Byte), i.form ≠ .step → decode (encodeBytes i ++ rest) = .ok (i, rest)) ∧
  ∀ (b rest : List Byte) (i : Instr), decode b = .ok (i, rest) → i.form ≠ .step ∧ encodeBytes i ++ rest = b

/-- R37, R87, R107: a step that the schedule gives to a warp which may go runs the instruction whose words stand at the
warp's pc, or the REP iteration under way, or takes a turn of the dispatcher of boot, and then notes that the warp has
issued. A warp without lent frames and divergence entries comes to its instruction unchanged but for the cycles it has
waited. That a schedule in State says who goes is log 1, and the dispatcher's turn log 107, both DESIGN CHOICE; warps with
lent frames are left out of the second half, and the pops of R154 are stated in DivergentBranch. -/
def Obligations.StepRunsDecoded : Prop :=
  ∀ (s : State) (c k : Nat) (cs : List Choice), s.schedule = .issue c k :: cs →
    let r : State := { s.pass with schedule := cs }
    let v := r.turnTo c k
    r.canIssue c k = true → r.mayGo c k = true →
    (r.dispatches c k = true → step s = .next ((v.dispatch (dieOf c)).issued c k (true, true))) ∧
    (r.dispatches c k = false →
    ({ v.w with waited := (s.warpAt c k).waited } = s.warpAt c k ∧ v.mem = s.mem ∧ (v.w.lent = 0 → v.w.residents ≠ 0 → v.w.div = [] →
      ∃ t, v.ahead = .ok t ∧ t.w = v.w ∧ t.mem = s.mem)) ∧
    (∀ t, v.ahead = .ok t →
      (∀ i b u, t.w.rep = none → t.fetchWord t.w t.w.pc.toNat = .ok b → decode b = .ok (i, []) → exec i t = .next u →
        step s = .next (u.issued c k (isUni i, isCommand i))) ∧
      (∀ i b b' u, t.w.rep = none → t.fetchWord t.w t.w.pc.toNat = .ok b → t.fetchWord t.w (t.w.pc + 4).toNat = .ok b' →
        decode (b ++ b') = .ok (i, []) → exec i t = .next u → step s = .next (u.issued c k (isUni i, isCommand i))) ∧
      (∀ p i u, t.w.rep = some p → decodeWords p.word (if hasSecond p.word then some p.tail else none) = .ok i →
        exec (p.stepped i) t = .next u → step s = .next (u.issued c k (isUni (p.stepped i), isCommand (p.stepped i))))) ∧
    (∀ (u : State) (kind : Bool × Bool), (u.issued c k kind).mem = u.mem ∧ ((c, k) ∉ u.stalled → ∀ x j, (u.issued c k kind).warpAt x j =
      if (x, j) = (c, k) then { u.warpAt c k with waited := 0 } else u.warpAt x j)))

/-- R349, R369: the module goes on. Every step from every state answers a next state: no instruction of a program and no
agent ends the machine, and exec refuses none. -/
def Obligations.StepGoesOn : Prop :=
  (∀ s : State, ∃ t, step s = .next t) ∧
  ∀ (i : Instr) (s : State), (∃ t, exec i s = .next t) ∨ exec i s = .fault .noWarp ∧ i.form ≠ .step ∧ s.w.status ≠ .live

/-- R218, R220: device memory and every scratchpad keep their canonical form in every step, so that equal contents are equal
data. -/
def Obligations.MemoryStaysCanonical : Prop :=
  ∀ s t : State, s.mem.wf = true → (∀ c, (s.core c).spad.wf = true) → step s = .next t →
    t.mem.wf = true ∧ ∀ c, (t.core c).spad.wf = true

/-- R26, R308, R325, R340, R346: the module after reset: memory in its canonical form and clear, queue 0's status block written to the
host (its place: log 17), no launch and no address space, the clock at 700 MHz, Stoker A active with its standby alive, and one warp on each
die, the Hearth context of its core 0. -/
def Obligations.ResetState : Prop :=
  let s := State.reset
  s.mem.wf = true ∧ (∀ c, (s.core c).spad.wf = true) ∧
  (∀ a, s.mem.read a = 0) ∧ s.busWrites = [(2 ^ 44 + 0x1001000, List.replicate 8 0 ++ List.replicate 8 0xFF ++ List.replicate 48 0)] ∧
  s.launches = [] ∧ s.aspaces = [] ∧ s.mhz = 700 ∧ s.stokerB = false ∧ s.standbyLive = true ∧ s.memPoison = [] ∧
  (∀ d, d < 8 → (s.warpAt (192 * d) 48).status = .live ∧ (s.warpAt (192 * d) 48).kind = .hearth) ∧
  ∀ c k, (s.warpAt c k).status ≠ .free → c % 192 = 0 ∧ c < 1536 ∧ k = 48

/-- R22, R157 to R162: a uniform integer instruction whose sources are readable writes its result (uniResults) to kd, and changes
nothing else but what completing it changes. -/
def Obligations.UniformResults : Prop :=
  ∀ (s : State) (u : UniW), ∀ x ∈ uniResults s.w u, Clear x.1 s = true → ReadableK s.w x.2.1 = true →
    s.w.kIsEmpty u.kd.toNat = false → exec x.1 s = .next (s.wroteK x.1 u.kd.toNat x.2.2)

/-- R89, R93, R95, R118 to R123: what the lane integer instructions write. In each acting lane the sub-elements of vd are the
table's results (intResults) for the sub-elements of the operands; MOV and SEL move all 64 bits (moveResults). -/
def Obligations.LaneIntegerResults : Prop :=
  (∀ (s : State) (lw : LaneW), ∀ x ∈ intResults lw, Clear x.1 s = true → s.w.acts lw ≠ 0 →
    Readable s.w (s.w.acts lw) (arithSrcs s.w lw x.2.1.1 x.2.1.2.1 x.2.1.2.2) = true → s.w.vIsEmpty lw.vd.toNat = false →
    exec x.1 s = .next (s.wroteV x.1 lw (laneOf s.w lw x.2.1.1 x.2.1.2.1 x.2.1.2.2 x.2.2) fun _ => 0)) ∧
  ∀ (s : State) (lw : LaneW), ∀ x ∈ moveResults s.w lw, Clear x.1 s = true → s.w.acts lw ≠ 0 →
    Readable s.w (s.w.acts lw) (arithSrcs s.w lw x.2.1.1 x.2.1.2.1 x.2.1.2.2) = true → s.w.vIsEmpty lw.vd.toNat = false →
    exec x.1 s = .next (s.wroteV x.1 lw x.2.2 fun _ => 0)

/-- R77, R118, R125 to R129: what the lane float instructions write: in each acting lane the delivered results
(floatResults) of the sub-elements; FPSR gathers the flags that the acting lanes raise. What the functions of floatResults
round to is stated in CorrectRounding, which leaves out the inexact results of FEXP2 and FLOG2. -/
def Obligations.LaneFloatResults : Prop :=
  ∀ (s : State) (lw : LaneW), ∀ x ∈ floatResults lw, Clear x.1 s = true → s.w.acts lw ≠ 0 →
    Readable s.w (s.w.acts lw) (arithSrcs s.w lw x.2.1.1 x.2.1.2.1 x.2.1.2.2) = true → s.w.vIsEmpty lw.vd.toNat = false →
    exec x.1 s = .next (s.wroteV x.1 lw (laneOf s.w lw x.2.1.1 x.2.1.2.1 x.2.1.2.2 fun a b c => (x.2.2 a b c).1)
      (laneFlagsOf s.w lw x.2.1.1 x.2.1.2.1 x.2.1.2.2 fun a b c => (x.2.2 a b c).2))

/-- R124, R138: ISETP, FSETP, FCLASS, ELECT and VOTE to a predicate write their tests (predResults) in the acting lanes of the
predicate that vd names. -/
def Obligations.PredicateResults : Prop :=
  ∀ (s : State) (lw : LaneW), ∀ x ∈ predResults s.w lw, Clear x.1 s = true → s.w.acts lw ≠ 0 →
    Readable s.w (s.w.acts lw) x.2.1 = true → exec x.1 s = .next (s.wroteP x.1 lw x.2.2.1 x.2.2.2)

/-- R84, R134 to R141: what the cross-lane instructions write in the acting lanes of vd (crossResults). A float LRED is the
root of R84's tree over the present positions and an LSCAN combines its aligned blocks, each with the flags of all its
combinations; the integer ones are exact, and .add fits its sum to the type; PACK and UNPACK convert element by element, to
and from q4x pair by pair (R69 to R71). -/
def Obligations.CrossLaneResults : Prop :=
  (∀ (s : State) (lw : LaneW), ∀ x ∈ crossResults s.w lw, Clear x.1 s = true → s.w.acts lw ≠ 0 →
    Readable s.w (s.w.acts lw) x.2.1 = true → s.w.vIsEmpty lw.vd.toNat = false →
    exec x.1 s = .next (s.wroteV x.1 lw x.2.2.1 x.2.2.2)) ∧
  (∀ (w : Warp) (m : LaneMask) (lw : LaneW), lw.t < 14 →
    let ty := lw.t
    let wd := tyWidth ty
    let n := tyCount ty
    let op := lw.xf % 8
    let col := lw.xf.testBit 3
    let len := if col then 32 else 32 * n
    let f := floatFold lw op
    let present := fun (i e : Nat) =>
      let q := if col then (e, i) else (e / n, e % n)
      if m.getLsbD q.1 then
        let x := elem wd ((w.v lw.va.toNat).getD q.1 0) q.2
        some (if tyFloat ty then flushIn ty lw.fi x else x)
      else none
    let put := fun (x : Int) => if op ≤ 2 then fit ty (op == 0 && lw.sat) x else x.toNat
    (∀ l j, l < 32 → j < n → m.getLsbD l = true →
      let i := if col then j else 0
      let e := if col then l else l * n + j
      let upTo := if lw.xf.testBit 4 then e else e + 1
      let got := fun scan => elem wd ((foldLanes w m lw scan).1.getD l 0) j
      (tyFloat ty = true →
        got false = (f.out ((treeNode f.op (present i) len.log2 0).1.getD f.ident)).1 % 2 ^ wd ∧
        got true = (f.out ((treeScan f.op (present i) len.log2 0 upTo (none, 0)).1.getD f.ident)).1 % 2 ^ wd) ∧
      (tyFloat ty = false →
        got false = put (foldInts ty op ((List.range len).filterMap (present i))) % 2 ^ wd ∧
        got true = put (foldInts ty op ((List.range upTo).filterMap (present i))) % 2 ^ wd)) ∧
    (tyFloat ty = true → (foldLanes w m lw false).2 = ((List.range (if col then n else 1)).map fun i =>
      let r := treeNode f.op (present i) len.log2 0
      (f.out (r.1.getD f.ident)).2 ||| r.2).foldl (· ||| ·) 0 ∧
      (foldLanes w m lw true).2 = ((List.range (if col then n else 1)).map fun i =>
        ((List.range len).map fun e =>
          let r := treeScan f.op (present i) len.log2 0 (if lw.xf.testBit 4 then e else e + 1) (none, 0)
          if (present i e).isSome then (f.out (r.1.getD f.ident)).2 ||| r.2 else 0).foldl (· ||| ·)
            (treeNode f.op (present i) len.log2 0).2).foldl (· ||| ·) 0) ∧
    (tyFloat ty = false → ∀ scan, (foldLanes w m lw scan).2 = 0)) ∧
  (∀ (lw : LaneW) (a b : Word), let sf := lw.fn % 16
    (lw.t = 14 → sf < 14 → tyWidth sf = 8 → ∀ j < 8,
      let r := convList lw sf lw.t a 0 (tyCount sf) ++ convList lw sf lw.t b 0 (tyCount sf)
      let x := if j < 4 then a else b
      let e := q4Pair lw sf (elem 8 x (2 * (j % 4))) (elem 8 x (2 * (j % 4) + 1))
      r.getD (2 * j) (0, 0) = (e.1 % 16, e.2) ∧ r.getD (2 * j + 1) (0, 0) = (e.1 / 16, e.2)) ∧
    (sf = 14 → lw.t < 14 → tyWidth lw.t = 8 → ∀ (hi : Bool) (i : Nat), i < 8 →
      Q4Gives lw lw.t (q4Element a ((if hi then 8 else 0) + i))
        ((convList lw sf lw.t a (if hi then tyCount lw.t else 0) (tyCount lw.t)).getD i (0, 0)))) ∧
  ∀ (lw : LaneW) (a b : Word) (i : Nat), lw.t < 14 → lw.fn % 16 < 14 →
    let sf := lw.fn % 16
    let ws := tyWidth sf
    let wd := tyWidth lw.t
    (ws = 2 * wd → i < 64 / wd →
      let r := convList lw sf lw.t a 0 (tyCount sf) ++ convList lw sf lw.t b 0 (tyCount sf)
      (r.getD i (0, 0)) = conv1 lw sf lw.t (if i < 64 / ws then elem ws a i else elem ws b (i - 64 / ws))) ∧
    (wd = 2 * ws → i < 64 / wd → ∀ hi : Bool,
      ((convList lw sf lw.t a (if hi then tyCount lw.t else 0) (tyCount lw.t)).getD i (0, 0)) =
        conv1 lw sf lw.t (elem ws a (if hi then 64 / wd + i else i)))

/-- R64, R70, R81, R131, R132: FCVT, I2F and F2I write the converted value and raise its flags, element by element into the
part that the instruction names, and a narrowing one keeps the rest of vd; a Q4X byte decodes as R69 says, and an encoder of
Q4X keeps the pair of least error that comes first in the order of R70, with its flags; FTAB writes the delivered value of the active bank's function. -/
def Obligations.ConversionResults : Prop :=
  (∀ (s : State) (lw : LaneW), ∀ i ∈ convertInstrs lw, Clear i s = true → s.w.acts lw ≠ 0 →
    Readable s.w (s.w.acts lw) (convertSrcs s.w lw) = true → s.w.vIsEmpty lw.vd.toNat = false →
    exec i s = .next (s.wroteV i lw
      (fun l => (convLane lw (lw.fn % 16) lw.t (bits lw.fn 6 4) (srcA s.w lw l) ((s.w.v lw.vd.toNat).getD l 0)).1)
      fun l => (convLane lw (lw.fn % 16) lw.t (bits lw.fn 6 4) (srcA s.w lw l) ((s.w.v lw.vd.toNat).getD l 0)).2)) ∧
  (∀ (lw : LaneW) (sf dt c i : Nat) (a old : Word), sf < 14 → dt < 14 → i < 64 / tyWidth dt →
    let ws := tyWidth sf
    let wd := tyWidth dt
    let r := elem wd (convLane lw sf dt c a old).1 i
    (ws < wd → c < wd / ws → r = (conv1 lw sf dt (elem ws a (c * (64 / wd) + i))).1 % 2 ^ wd) ∧
    (ws = wd → r = (conv1 lw sf dt (elem ws a i)).1 % 2 ^ wd) ∧
    (wd < ws → c < ws / wd → r = if c * (64 / ws) ≤ i ∧ i < (c + 1) * (64 / ws)
      then (conv1 lw sf dt (elem ws a (i - c * (64 / ws)))).1 % 2 ^ wd else elem wd old i)) ∧
  (∀ (lw : LaneW) (sf dt x : Nat), sf < 14 → dt < 14 → let y := if tyFloat sf then flushIn sf lw.fi x else x
    conv1 lw sf dt x = match tyFloat sf, tyFloat dt with
      | true, true => deliver dt lw.fo lw.sat (cvtF sf dt lw.rm y)
      | true, false => f2I sf dt lw.rm y
      | false, true => deliver dt lw.fo lw.sat (i2F dt lw.rm (intVal sf x))
      | false, false => (fit dt lw.sat (intVal sf x), 0)) ∧
  (∀ (lw : LaneW) (sf dt c i : Nat) (a old : Word), let r := convLane lw sf dt c a old
    (sf = 14 → dt < 14 → c < tyWidth dt / 4 → i < 64 / tyWidth dt →
      ∃ x, Q4Gives lw dt (q4Element a (c * (64 / tyWidth dt) + i)) x ∧ elem (tyWidth dt) r.1 i = x.1 % 2 ^ tyWidth dt ∧ r.2 = 0) ∧
    (dt = 14 → sf < 14 → tyWidth sf < 64 → c < tyWidth sf / 4 → let n := 64 / tyWidth sf
      let pair := fun k => q4Pair lw sf (elem (tyWidth sf) a (2 * k)) (elem (tyWidth sf) a (2 * k + 1))
      (i < n / 2 → elem 8 r.1 (c * (n / 2) + i) = (pair i).1) ∧
      (i < 16 → i < c * n ∨ (c + 1) * n ≤ i → elem 4 r.1 i = elem 4 old i) ∧
      r.2 = ((List.range (n / 2)).map fun k => (pair k).2).foldl (· ||| ·) 0)) ∧
  (∀ c < 256, let v := q4Decode c
    (c % 16 = 8 → (v.1 : ℚ) / 64 = ratOf 8 (16 * (c / 16) + 8) ∧ v.2 = 0) ∧
    (c % 16 ≠ 8 → c / 16 = 8 → v.1 = 0 ∧ (v.2 : ℚ) / 64 = ratOf 8 (16 * (c % 16) + 8)) ∧
    (c % 16 ≠ 8 → c / 16 ≠ 8 → v = (64 * toSigned 4 (c % 16), 64 * toSigned 4 (c / 16)))) ∧
  (∀ sf x : Nat, sf < 14 → x < 2 ^ tyWidth sf → match elemQ sf x with
    | .nan => tyFloat sf = true ∧ nanCode sf x = true
    | .inf s => tyFloat sf = true ∧ infCode sf x = true ∧ s = decide (x / 2 ^ (tyWidth sf - 1) = 1)
    | .fin n e => (n : ℚ) * (2 : ℚ) ^ e = (if tyFloat sf then ratOf sf x else intVal sf x) ∧
        (tyFloat sf = true → finiteCode sf x = true)) ∧
  (∀ a b : QVal,
    let even := fun (c : Nat) => ((q4Decode c).1 : ℚ) / 64
    let odd := fun (c : Nat) => ((q4Decode c).2 : ℚ) / 64
    let error := fun (c : Nat) => |q4Clamped a - even c| + |q4Clamped b - odd c|
    let k := q4Encode a b
    k.1 < 256 ∧
    k.2 = (if a = .nan ∨ b = .nan then flNV else 0) ||| (if q4Bare a = some (even k.1) ∧ q4Bare b = some (odd k.1) then 0 else flNX) ∧
    ∀ c < 256, error k.1 ≤ error c ∧ (error k.1 = error c → q4Rank k.1 ≤ q4Rank c ∧
      (q4Rank k.1 = q4Rank c → let u := (q4Decode k.1).1; let v := (q4Decode k.1).2; let w := (q4Decode c).1 + (q4Decode c).2
        if q4Rank c = 0 then ((q4Decode c).1 = u ∨ u % 128 = 0) ∧ ((q4Decode c).2 = v ∨ v % 128 = 0)
        else |w| < |u + v| ∨ |w| = |u + v| ∧ w ≤ u + v))) ∧
  (∀ (s : State) (lw : LaneW), Clear (.ftab lw) s = true → s.w.acts lw ≠ 0 →
    Readable s.w (s.w.acts lw) (arithSrcs s.w lw true false false) = true → s.w.vIsEmpty lw.vd.toNat = false →
    (if s.co.tabBank then s.co.bankPoison1 else s.co.bankPoison0) = false →
    exec (.ftab lw) s = .next (s.wroteV (.ftab lw) lw
      (laneOf s.w lw true false false fun a _ _ => (deliver lw.t lw.fo lw.sat
        (tabF (if s.co.tabBank then s.co.bank1 else s.co.bank0) lw.t lw.rm (lw.fn % 8) (flushIn lw.t lw.fi a))).1)
      (laneFlagsOf s.w lw true false false fun a _ _ => (deliver lw.t lw.fo lw.sat
        (tabF (if s.co.tabBank then s.co.bank1 else s.co.bank0) lw.t lw.rm (lw.fn % 8) (flushIn lw.t lw.fi a))).2)))

/-- R89, R60, R350: a lane instruction in which no lane acts only goes on; and an arithmetic or cross-lane instruction, whatever
comes of it, changes no memory, no queue, no other warp, no k register, no lane that does not act, no v register but vd, and
no predicate but the one that vd names. -/
def Obligations.LaneFrames : Prop :=
  ∀ (s : State) (i : Instr) (opc : Nat) (lw : LaneW), i.form = .lane opc lw →
    (opc ≠ 0x60 → opc ≠ 0x63 → Clear i s = true → s.w.acts lw = 0 → exec i s = .next (s.finish (s.nextPc i))) ∧
    (opc < 0x50 → s.w.status = .live → ∃ t, exec i s = .next t ∧ t.mem = s.mem ∧ t.queues = s.queues ∧
      (∀ c k, (c, k) ≠ (s.curCore, s.curSlot) → t.warpAt c k = s.warpAt c k) ∧ t.w.kregs = s.w.kregs ∧
      t.w.active = s.w.active ∧ t.w.launchMask = s.w.launchMask ∧ t.w.div = s.w.div ∧ t.w.tvec = s.w.tvec ∧
      (∀ off, off ≠ s.w.base + lw.vd.toNat → AMap.get zeroLanes t.w.vregs off = AMap.get zeroLanes s.w.vregs off) ∧
      (∀ l < 32, (s.w.acts lw).getLsbD l = false →
        (AMap.get zeroLanes t.w.vregs (s.w.base + lw.vd.toNat)).getD l 0 = (AMap.get zeroLanes s.w.vregs (s.w.base + lw.vd.toNat)).getD l 0) ∧
      ∀ p, (p ≠ lw.vd.toNat % 8 → t.w.p p = s.w.p p) ∧ (t.w.p p &&& ~~~(s.w.acts lw)) = (s.w.p p &&& ~~~(s.w.acts lw)))

/-- R165, R166 and R112: where NOP, BRA, BRZ, BRNZ and JMPR go on, and that they do nothing else. -/
def Obligations.BranchTargets : Prop :=
  (∀ (s : State) (u : UniW), Clear (.nop u) s = true → exec (.nop u) s = .next (s.finish (s.nextPc (.nop u)))) ∧
  (∀ (s : State) (w : BrW), Clear (.bra w) s = true → NoLoopEnd s.w = true →
    exec (.bra w) s = .next (s.finish (wordsFrom s.w.pc w.off))) ∧
  (∀ (s : State) (w : BrkW), Clear (.brz w) s = true → NoLoopEnd s.w = true → ReadableK s.w [w.r.toNat] = true →
    exec (.brz w) s = .next (s.finish (if s.w.k w.r.toNat = 0 then wordsFrom s.w.pc w.off else s.w.pc + 4))) ∧
  (∀ (s : State) (w : BrkW), Clear (.brnz w) s = true → NoLoopEnd s.w = true → ReadableK s.w [w.r.toNat] = true →
    exec (.brnz w) s = .next (s.finish (if s.w.k w.r.toNat = 0 then s.w.pc + 4 else wordsFrom s.w.pc w.off))) ∧
  (∀ (s : State) (u : UniW), Clear (.jmpr u) s = true → NoLoopEnd s.w = true → ReadableK s.w [u.ka.toNat] = true →
    (s.w.k u.ka.toNat).toNat % 4 = 0 → (s.w.k u.ka.toNat).toNat < 2 ^ 52 →
    exec (.jmpr u) s = .next (s.finish (s.w.k u.ka.toNat)))

/-- R46, R167, R357, R367: CALL and CALLR make the callee's frame, whose v0 to v(n-1) are the caller's v(m-n) to v(m-1); a
RET behind a CALL gives the caller its window back and goes on behind the CALL. With n above the caller's m they take WINDOW
1, and a RET in the bottom frame takes WINDOW 4. -/
def Obligations.CallsAndReturns : Prop :=
  (∀ (s : State) (i : Instr) (n : Nat) (target : Word), Clear i s = true → NoLoopEnd s.w = true → s.w.rep = none → n ≤ s.w.m →
    ((∃ w : BrkW, i = .call w ∧ n = w.r.toNat ∧ target = wordsFrom s.w.pc w.off) ∨
     (∃ u : UniW, i = .callr u ∧ n = u.kd.toNat ∧ target = s.w.k u.ka.toNat ∧ ReadableK s.w [u.ka.toNat] = true ∧
       target.toNat % 4 = 0 ∧ target.toNat < 2 ^ 52)) →
    exec i s = .next (s.setW (s.w.called n target)) ∧ ∀ j, j < n → (s.w.called n target).v j = s.w.v (s.w.m - n + j)) ∧
  (∀ (s : State) (w : BrkW) (u : UniW), NoLoopEnd s.w = true →
    (Clear (.call w) s = true → s.w.m < w.r.toNat → exec (.call w) s = .next (s.takeTrap (s.w.windowStop (.call w) 1 w.r.toNat))) ∧
    (Clear (.callr u) s = true → s.w.kIsEmpty u.ka.toNat = false → s.w.m < u.kd.toNat →
      exec (.callr u) s = .next (s.takeTrap (s.w.windowStop (.callr u) 1 u.kd.toNat))) ∧
    (Clear (.ret u) s = true → s.w.links = [] → exec (.ret u) s = .next (s.takeTrap (s.w.windowStop (.ret u) 4 0)))) ∧
  ∀ (s : State) (w : BrkW) (u : UniW), Clear (.call w) s = true → NoLoopEnd s.w = true → s.w.rep = none → w.r.toNat ≤ s.w.m →
    s.w.spilled.length ≤ s.w.links.length →
    ∃ t, exec (.call w) s = .next t ∧
      (Clear (.ret u) t = true → NoLoopEnd t.w = true →
        exec (.ret u) t = .next (s.setW (s.w.goTo (s.w.pc + 4))))

/-- R46 to R49, R357, R359, R367: a spilled frame's record holds its link in the header unit, with byte 11 at 1 for a trap
frame, and each register in a unit of its own, lane by lane, and a fill reads the registers back and leaves them full. RET
continues at the link's address in the caller's frame; ENTER sets the frame size, and the new registers read 0 and are full.
Both for the frames that are resident, or that the spill engine has moved. ENTER takes WINDOW 2 with m below the frame's n, 3
in a frame that has had one, and 5 when the records that it needs do not fit. -/
def Obligations.FramesReturnAndGrow : Prop :=
  (∀ (s t : State) (w : Warp) (u : UniW) (l : Link) (ls : List Link), Clear (.ret u) s = true → NoLoopEnd s.w = true →
    s.w.links = l :: ls → s.residentAt s.curCore s.w true 1 = .ok (t, w) → w.rep = none → NoLoopEnd w = true →
    exec (.ret u) s = .next (t.setW { w.goTo l.ret with links := ls, base := w.base - (l.callerM - l.n), m := l.callerM,
                                                        entered := l.callerEntered })) ∧
  (∀ (s t : State) (w : Warp) (u : UniW), Clear (.enter u) s = true → NoLoopEnd s.w = true → s.w.entered = false →
    (s.w.links.head?.map Link.n).getD 0 ≤ u.kd.toNat →
    s.w.nextRecord + spillBytes (framesToSpill s.w.budget (s.w.base + u.kd.toNat) s.w.below) ≤ s.w.divFloor →
    s.spillFrames s.curCore s.w true (framesToSpill s.w.budget (s.w.base + u.kd.toNat) s.w.below) = .ok (t, w) →
    w.m = s.w.m → w.base = s.w.base →
    ∃ v, exec (.enter u) s = .next v ∧ v.mem = t.mem ∧ v.w.m = u.kd.toNat ∧ v.w.entered = true ∧ v.w.base = s.w.base ∧
      ∀ j, s.w.m ≤ j → j < u.kd.toNat → v.w.v j = zeroLanes ∧ v.w.vIsEmpty j = false) ∧
  (∀ (s : State) (u : UniW), Clear (.enter u) s = true → NoLoopEnd s.w = true →
    let n := (s.w.links.head?.map Link.n).getD 0
    let out := framesToSpill s.w.budget (s.w.base + u.kd.toNat) s.w.below
    let stops := fun reason => exec (.enter u) s = .next (s.takeTrap (s.w.windowStop (.enter u) reason u.kd.toNat))
    (u.kd.toNat < n → stops 2) ∧ (n ≤ u.kd.toNat → s.w.entered = true → stops 3) ∧
    (n ≤ u.kd.toNat → s.w.entered = false → out ≠ [] → s.w.divFloor < s.w.nextRecord + spillBytes out → stops 5)) ∧
  (∀ (s : State) (m : Nat), s.w.base + m ≤ s.w.budget →
    s.spillFrames s.curCore s.w true (framesToSpill s.w.budget (s.w.base + m) s.w.below) = .ok (s, s.w)) ∧
  (∀ (s t : State) (core count : Nat) (w x : Warp) (unif : Bool) (r : Resident), s.mem.wf = true →
    s.spillFrame core w unif r count = .ok (t, x) →
    x.spilled = ⟨w.nextRecord, count⟩ :: w.spilled ∧ x.vregs = w.vregs ∧ (∀ j < r.m, r.base + j ∉ w.vEmpty) ∧
    ∃ (u : State) (ps : List (Nat × Place)),
      s.resolveAll core w (spillReq true 256) unif ((List.range (count + 1)).map fun j => (0, w.nextRecord + 256 * j)) = .ok (ps, u) ∧
      ((∀ p ∈ ps, ∃ pa, p.2 = .mem pa ∧ regionOf pa = 0) →
       (∀ i j a b : Nat, i ≠ j → ps[i]? = some (0, .mem a) → ps[j]? = some (0, .mem b) → a + 256 ≤ b ∨ b + 256 ≤ a) →
        (∀ pa : Nat, ps[0]? = some (0, .mem pa) →
          t.mem.readN pa 8 = (match r.link with | some l => l.ret.toNat | none => 0) ∧
          t.mem.readN (pa + 8) 1 = (match r.link with | some l => l.callerM % 256 | none => 0) ∧
          t.mem.readN (pa + 9) 1 = (match r.link with | some l => l.n % 256 | none => 0) ∧
          t.mem.readN (pa + 10) 1 = (if r.link.isNone then 1 else 0) ∧
          t.mem.readN (pa + 11) 1 = (match r.link with | some l => if l.trap then 1 else 0 | none => 0) ∧
          t.mem.readN (pa + 12) 244 = 0) ∧
        (∀ j pa : Nat, j < count → ps[j + 1]? = some (0, .mem pa) → ∀ l < 32,
          t.mem.readN (pa + 8 * l) 8 = ((AMap.get zeroLanes w.vregs (r.base + j)).getD l 0).toNat) ∧
        ∀ a, (∀ p ∈ ps, ∀ pa, p.2 = .mem pa → a < pa ∨ pa + 256 ≤ a) → t.mem.read a = s.mem.read a)) ∧
  ∀ (s t : State) (core base : Nat) (w x : Warp) (unif : Bool) (r : SpillRec) (rs : List SpillRec), w.spilled = r :: rs →
    s.fillFrame core w unif base = .ok (t, x) →
    x.spilled = rs ∧ t.mem = s.mem ∧ x.vEmpty = w.vEmpty ∧
    (∀ off, off < base ∨ base + r.count ≤ off → AMap.get zeroLanes x.vregs off = AMap.get zeroLanes w.vregs off) ∧
    ∃ (u : State) (ps : List (Nat × Place)),
      s.resolveAll core w (spillReq false 256) unif ((List.range r.count).map fun j => (0, r.addr + 256 * (j + 1))) = .ok (ps, u) ∧
      ∀ j pa : Nat, ps[j]? = some (0, .mem pa) → ∀ l < 32,
        ((AMap.get zeroLanes x.vregs (base + j)).getD l 0).toNat = s.mem.readN (pa + 8 * l) 8

/-- R168, R169, R357, R368: LOOP opens a frame over the body, or passes over it when the count is 0. Completing the
instruction at a loop's last address goes round again, or on; inner frames come first, and the last round of the last frame
leaves the stack empty. A fifth LOOP takes LOOP 1; a control transfer at a frame's last address takes LOOP 2, and a REP
prefix LOOP 3, before any effect, with the first address of the innermost frame that ends there. -/
def Obligations.LoopFrames : Prop :=
  (∀ (s : State) (w : BrkW) (c : BitVec 32), Clear (.loop w) s = true → NoLoopEnd s.w = true →
    (w.lit = some c ∨ w.lit = none ∧ ReadableK s.w [w.r.toNat] = true ∧ c = (s.w.k w.r.toNat).setWidth 32) →
    (c ≠ 0 → s.w.loops.length < 4 → s.w.rep = none →
      exec (.loop w) s = .next (s.setW { s.w.goTo (s.nextPc (.loop w)) with
        loops := ⟨s.nextPc (.loop w), wordsFrom s.w.pc w.off, c⟩ :: s.w.loops })) ∧
    (∀ b, c = 0 → s.fetchWord s.w (wordsFrom s.w.pc w.off).toNat = .ok b →
      exec (.loop w) s = .next (s.finish (wordsFrom s.w.pc w.off + if (leNat b).testBit 30 then 8 else 4)))) ∧
  (∀ (s : State) (u : UniW) (inner : List LoopFrame) (f : LoopFrame) (fs : List LoopFrame), Clear (.nop u) s = true → s.w.rep = none →
    s.w.loops = inner ++ f :: fs → (∀ g ∈ inner, g.last = s.w.pc ∧ g.count = 1) →
    (f.last = s.w.pc → f.count ≠ 1 →
      exec (.nop u) s = .next (s.setW { s.w.goTo f.first with loops := { f with count := f.count - 1 } :: fs })) ∧
    (f.last ≠ s.w.pc → exec (.nop u) s = .next (s.setW { s.w.goTo (s.nextPc (.nop u)) with loops := f :: fs }))) ∧
  (∀ (s : State) (w : BrkW) (c : BitVec 32), Clear (.loop w) s = true → NoLoopEnd s.w = true →
    (w.lit = some c ∨ w.lit = none ∧ s.w.kIsEmpty w.r.toNat = false ∧ c = (s.w.k w.r.toNat).setWidth 32) → c ≠ 0 → 4 ≤ s.w.loops.length →
    exec (.loop w) s = .next (s.takeTrap (loopStop (.loop w) 1 (s.nextPc (.loop w))))) ∧
  (∀ (s : State) (f : LoopFrame), s.w.loops.find? (fun f => f.last == s.w.pc) = some f →
    (∀ b r u, ∀ x ∈ uniTransfers b r u, Clear x.1 s = true → (∀ k ∈ x.2, s.w.kIsEmpty k = false) →
      exec x.1 s = .next (s.takeTrap (loopStop x.1 2 f.first))) ∧
    (∀ lw, ∀ x ∈ laneTransfers lw, Clear x.1 s = true → s.w.acts lw ≠ 0 → (∀ y ∈ x.2, y.isEmpty s.w = false) →
      exec x.1 s = .next (s.takeTrap (loopStop x.1 2 f.first))) ∧
    ∀ r, Clear (.rep r) s = true → repReasons r s = [] → exec (.rep r) s = .next (s.takeTrap (loopStop (.rep r) 3 f.first))) ∧
  ∀ (s : State) (u : UniW), Clear (.nop u) s = true → s.w.rep = none → (∀ g ∈ s.w.loops, g.last = s.w.pc ∧ g.count = 1) →
    exec (.nop u) s = .next (s.setW { s.w.goTo (s.nextPc (.nop u)) with loops := [] })

/-- R106, R107: a REP prefix begins the iterations of the next instruction, and its completion begins the next one or
goes on behind it. -/
def Obligations.RepIterates : Prop :=
  (∀ (s : State) (r : RepW) (i : Instr) (b : List Byte), Clear (.rep r) s = true → NoLoopEnd s.w = true →
    s.fetchInstr s.w (s.w.pc + 4) = .ok (.ok i, b) → repAllows r i = true → s.w.repFrom ≤ r.cnt.toNat →
    ∃ t x, exec (.rep r) s = .next t ∧ t.w.rep = some x ∧ x.count = r.cnt.toNat + 1 ∧ x.next = s.w.repFrom ∧
      x.pc = s.w.pc ∧ t.w.pc = s.w.pc + 4 ∧ x.after = s.w.pc + 4 + BitVec.ofNat 64 b.length ∧ t.mem = s.mem) ∧
  (∀ (s : State) (x : RepState) (next : Word), s.w.rep = some x →
    (x.next + 1 < x.count → (s.finish next).w = { s.w with rep := some { x with next := x.next + 1 }, replay := none, suppress := false }) ∧
    (x.count ≤ x.next + 1 → NoLoopEnd s.w = true → (s.finish next).w = s.w.goTo x.after))

/-- R41, R155, R171: EXITL and EXIT take lanes out of the warp; without lanes the warp retires, and its masks, its divergence
stack and its loop frames are empty. -/
def Obligations.LanesLeave : Prop :=
  ∀ (s : State) (i : Instr) (m : LaneMask), Clear i s = true → NoLoopEnd s.w = true →
    ((∃ w, i = .exitl w ∧ m = s.w.acts w) ∨ (∃ u, i = .exit u ∧ m = 0xFFFFFFFF)) →
    ∃ t, exec i s = .next t ∧ t.w.launchMask = s.w.launchMask &&& ~~~m ∧
      (m ≠ 0 → s.w.launchMask &&& ~~~m = 0 → t.w.status = .retired ∧ t.w.active = 0 ∧ t.w.launchMask = 0 ∧ t.w.div = [] ∧
        t.w.divSpilled = 0 ∧ t.w.loops = []) ∧
      (s.w.launchMask &&& ~~~m ≠ 0 → s.w.rep = none →
        t.w.status = .live ∧ t.w.active = s.w.active &&& ~~~(m &&& s.w.launchMask) ∧ t.w.pc = s.nextPc i ∧
        t.w.div = s.w.div.map fun e => { e with mask := e.mask &&& ~~~(m &&& s.w.launchMask) }) ∧
      (s.w.kind = .child →
        t.w.exitDecs.map (fun d => (d.lane, d.join)) = s.w.exitDecs.map (fun d => (d.lane, d.join)) ++
          ((lanesOf (m &&& s.w.launchMask)).filter fun l => AMap.get 0 s.w.joins l != 0).map fun l => (l, AMap.get 0 s.w.joins l)) ∧
      t.mem = s.mem

/-- R53, R54, R153, R154, R357, R367: BRD jumps, falls through, or splits the warp; a push on a full stack writes the oldest
entry to the spill area, and BRD takes WINDOW 6 when it cannot. Before its next instruction a warp that stands at the resume
address of its newest RECONV entry, or that has no active lane, pops the top entry: a PENDING one goes on at its address, a
RECONV one where the warp stands, both with the entry's mask; then the comparison is made again. A pop that empties the stack
on the chip reloads the newest spilled entry. -/
def Obligations.DivergentBranch : Prop :=
  (∀ (s : State) (e : DivEntry) (es : List DivEntry), s.w.lent = 0 → s.w.residents ≠ 0 → s.w.rep = none → s.w.divSpilled = 0 →
    s.w.div = e :: es →
    let due := (s.w.div.find? fun x => !x.pending).map DivEntry.addr = some s.w.pc ∨ s.w.active = 0 ∧ s.w.launchMask ≠ 0
    let popped := { s.w with div := es, active := e.mask &&& s.w.launchMask, pc := if e.pending then e.addr else s.w.pc }
    (¬due → ∃ t, s.ahead = .ok t ∧ t.w = s.w ∧ t.mem = s.mem) ∧
    (due → ∃ t u, s.ahead = .ok t ∧ (s.setW popped).ahead = .ok u ∧ t.w = u.w ∧ t.mem = u.mem)) ∧
  (∀ (s t : State) (core k pa : Nat) (w : Warp) (unif : Bool) (e : DivEntry), w.div = [e] → w.divSpilled = k + 1 →
    let popped := { w with div := [], active := e.mask &&& w.launchMask, pc := if e.pending then e.addr else w.pc }
    s.resolveAll core popped (spillReq false 16) unif [(0, w.spillBase + w.spillSize - 16 * (k + 1))] = .ok ([(0, .mem pa)], t) →
    ∃ u x, s.popDiv core w unif = .ok (u, { popped with div := [x], divSpilled := k }) ∧ u.mem = s.mem ∧
      x.addr.toNat = s.mem.readN pa 8 ∧ x.mask = BitVec.ofNat 32 (s.mem.readN (pa + 8) 4) &&& w.launchMask ∧
      x.pending = (s.mem.read (pa + 12)).getLsbD 0) ∧
  (∀ (s t : State) (core pa : Nat) (w : Warp) (i : Instr) (e old : DivEntry), w.div.length = 16 → w.div.getLast? = some old →
    w.nextRecord + 16 ≤ w.divFloor →
    s.resolveAll core w (spillReq true 16) (isUni i) [(0, w.divFloor - 16)] = .ok ([(0, .mem pa)], t) → regionOf pa = 0 → s.mem.wf = true →
    ∃ u, s.pushDiv core w i e = .ok (u, { w with div := e :: w.div.dropLast, divSpilled := w.divSpilled + 1 }) ∧
      s.keepsOutside u 16 [(0, .mem pa)] ∧ u.mem.readN pa 8 = old.addr.toNat ∧ u.mem.readN (pa + 8) 4 = old.mask.toNat ∧
      u.mem.readN (pa + 12) 4 = if old.pending then 1 else 0) ∧
  ∀ (s : State) (w : LaneW), Clear (.brd w) s = true → NoLoopEnd s.w = true →
    (s.w.active &&& ~~~(s.w.acts w) = 0 → exec (.brd w) s = .next (s.finish (wordsFrom s.w.pc (BitVec.ofNat 16 w.imm16)))) ∧
    (s.w.acts w = 0 → s.w.active ≠ 0 → exec (.brd w) s = .next (s.finish (s.w.pc + 8))) ∧
    (s.w.acts w ≠ 0 → s.w.active &&& ~~~(s.w.acts w) ≠ 0 → s.w.div.length ≤ 14 → s.w.nextRecord ≤ s.w.divFloor → s.w.rep = none →
      exec (.brd w) s = .next (s.setW { s.w.goTo (wordsFrom s.w.pc (BitVec.ofNat 16 w.imm16)) with
        active := s.w.acts w
        div := ⟨s.w.pc + 8, s.w.active &&& ~~~(s.w.acts w), true⟩ ::
          ⟨wordsFrom s.w.pc (w.vd ++ w.va ++ w.vb), s.w.active, false⟩ :: s.w.div })) ∧
    (∀ s1 s2 x1 x2, s.w.acts w ≠ 0 → s.w.active &&& ~~~(s.w.acts w) ≠ 0 → s.w.rep = none →
      s.w.nextRecord + 16 * (s.w.div.length + 2 - 16) ≤ s.w.divFloor →
      s.pushDiv s.curCore s.w (.brd w) ⟨wordsFrom s.w.pc (w.vd ++ w.va ++ w.vb), s.w.active, false⟩ = .ok (s1, x1) →
      s1.pushDiv s1.curCore x1 (.brd w) ⟨s.w.pc + 8, s.w.active &&& ~~~(s.w.acts w), true⟩ = .ok (s2, x2) →
      exec (.brd w) s = .next (s2.setW { x2.goTo (wordsFrom s.w.pc (BitVec.ofNat 16 w.imm16)) with active := s.w.acts w })) ∧
    (s.w.acts w ≠ 0 → s.w.active &&& ~~~(s.w.acts w) ≠ 0 → s.w.divFloor < s.w.nextRecord + 16 * (s.w.div.length + 2 - 16) →
      exec (.brd w) s = .next (s.takeTrap (s.w.windowStop (.brd w) 6 0)))

/-- R172, R350, R355, R357, R359: a trap that the warp's handler takes saves the resume address, cause and detail, makes the
trap frame, and goes on at the handler. BRK and TRAP enter it with the following instruction as resume address. -/
def Obligations.TrapEntry : Prop :=
  (∀ (s : State) (t : Trap), s.w.handles t.group = true → t.group < 25 →
    (s.w.rep = none ∨ t.group ≠ gILLEGAL ∧ t.group ≠ gEMPTY) →
    s.takeTrap t = s.setW (s.w.trapped (s.w.resume t)
      (BitVec.ofBool t.unif ++ BitVec.ofBool t.async ++ BitVec.ofNat 5 t.group) t.d0 t.d1 t.d2
      (t.group == gWATCH || t.group == gBREAK && t.d0.getLsbD 31))) ∧
  ∀ (s : State) (u : UniW), NoLoopEnd s.w = true → s.w.rep = none →
    (Clear (.brk u) s = true → s.w.handles gBREAK = true →
      exec (.brk u) s = .next (s.setW (s.w.trapped (s.w.pc + 4) (64 + 20) (u.f5.setWidth 32) (s.w.pc.setWidth 32) 0 false))) ∧
    (Clear (.trap u) s = true → s.w.handles gSWTRAP = true →
      exec (.trap u) s = .next (s.setW (s.w.trapped (s.w.pc + 4) (64 + 22) (u.f5.setWidth 32) (s.w.pc.setWidth 32) 0 false)))

/-- R73 to R76, R78 to R81, R125 to R129, R131: the values that the float instructions and conversions deliver, against the
real number that each stands for; of FEXP2 and FLOG2 only the special results, and FEXP2 of an integer and FLOG2 of a power
of two (R127). A finite result is the neighbour of the exact result that RM asks for; overflow gives infinity or the largest
finite value; NX, UF and OF are raised as the exact result says; a NaN result is the first NaN operand, quietened and
widened, or the default NaN; FO flushes and SAT clamps what Round has given. The logarithm of a power of two that the type
cannot hold is log 116, and what becomes of a value and of a NaN from a format to itself and between F8A and F8B log 50, both
DESIGN CHOICE. -/
def Obligations.CorrectRounding : Prop :=
  ∀ ty rm, tyFloat ty = true → rm < 5 →
    let v := fun (x : Nat) => ((ratOf ty x : ℚ) : ℝ)
    let neg := fun (x : Nat) => decide (x / 2 ^ (tyWidth ty - 1) = 1)
    let fin := fun (x : Nat) => finiteCode ty x = true
    let gives := fun (x : ℝ) (zero : Bool) (y : FRes) => (x ≠ 0 → RoundsTo ty rm x y) ∧ (x = 0 → y = .plain (zeroPat ty zero))
    let sumSign := fun (s t : Bool) => if s = t then s else rm == 3
    (∀ a b c, fin a → fin b → fin c →
      (∀ sub : Bool, gives (v a + (if sub then -v b else v b)) (sumSign (neg a) (neg b != sub)) (addF ty rm sub a b)) ∧
      gives (v a * v b) (neg a != neg b) (mulF ty rm a b) ∧
      gives (v a * v b + v c) (sumSign (neg c) (neg a != neg b)) (fmaF ty rm a b c) ∧
      (v a < v b → (minMaxF ty false a b).pat = a ∧ (minMaxF ty true a b).pat = b) ∧
      (v a = v b → neg a = true → neg b = false → (minMaxF ty false a b).pat = a ∧ (minMaxF ty true a b).pat = b)) ∧
    (∀ a, fin a →
      (∀ n : Int, gives (v a * (2 : ℝ) ^ n) (neg a) (ldexpF ty rm a n)) ∧
      (v a ≠ 0 → RoundsTo ty rm (1 / v a) (rcpF ty rm a)) ∧
      (0 ≤ v a → gives (Real.sqrt (v a)) (neg a) (sqrtF ty rm a)) ∧
      (0 < v a → RoundsTo ty rm (1 / Real.sqrt (v a)) (rsqF ty rm a)) ∧
      (∀ n : Int, (v a = n → RoundsTo ty rm ((2 : ℝ) ^ n) (exp2F ty rm a)) ∧
        (v a = (2 : ℝ) ^ n → gives n false (log2F ty rm a))) ∧
      (∀ dt, tyFloat dt = true → (v a ≠ 0 → RoundsTo dt rm (v a) (cvtF ty dt rm a)) ∧
        (v a = 0 → cvtF ty dt rm a = .plain (zeroPat dt (neg a)))) ∧
      ∀ n, IntegerOf rm (v a) n →
        (∀ exact, let y := rndF ty rm exact a
          fin y.pat ∧ v y.pat = n ∧ (n = 0 → y.pat = zeroPat ty (neg a)) ∧ y.inf = none ∧
          (exact = false ∨ v a = n → y.fl = 0) ∧ (exact = true → v a ≠ n → y.fl = flNX)) ∧
        ∀ di < 8, (n < intMin di → f2I ty di rm a = (modN (tyWidth di) (intMin di), flNV)) ∧
          (intMax di < n → f2I ty di rm a = (modN (tyWidth di) (intMax di), flNV)) ∧
          (intMin di ≤ n → n ≤ intMax di → (f2I ty di rm a).1 = modN (tyWidth di) n ∧
            (v a = n → (f2I ty di rm a).2 = 0) ∧ (v a ≠ n → (f2I ty di rm a).2 = flNX))) ∧
    (∀ n : Int, gives n false (i2F ty rm n)) ∧
    (∀ sf c a0 b0 a1 b1, tyFloat sf = true → 2 * tyWidth sf = tyWidth ty → c < 2 ^ tyWidth ty →
      (∀ x ∈ [a0, b0, a1, b1], x < 2 ^ tyWidth sf) →
      let w := fun (x : Nat) => ((ratOf sf x : ℚ) : ℝ)
      let minus := fun (x : Nat) => decide (x / 2 ^ (tyWidth sf - 1) = 1)
      let finite := finiteCode sf a0 = true ∧ finiteCode sf b0 = true ∧ finiteCode sf a1 = true ∧ finiteCode sf b1 = true
      let zeroInf := fun (a b : Nat) => infCode sf a = true ∧ finiteCode sf b = true ∧ ratOf sf b = 0
      let bad := zeroInf a0 b0 ∨ zeroInf b0 a0 ∨ zeroInf a1 b1 ∨ zeroInf b1 a1
      let signals := sigCode ty c || [a0, b0, a1, b1].any (sigCode sf)
      let y := dot2F ty sf rm c a0 b0 a1 b1
      (fin c → finite → gives (v c + w a0 * w b0 + w a1 * w b1)
        (if neg c = (minus a0 != minus b0) ∧ neg c = (minus a1 != minus b1) then neg c else rm == 3) y) ∧
      (infCode ty c = true → finite → y = ⟨infPat ty (neg c), 0, some (neg c)⟩) ∧
      (nanCode ty c = true → y.pat = quietCode ty c) ∧
      (nanCode ty c = false → ∀ x, [a0, b0, a1, b1].find? (nanCode sf) = some x → y.pat = widened sf ty x) ∧
      (nanCode ty c = true ∨ [a0, b0, a1, b1].any (nanCode sf) = true → y.inf = none ∧ (bad → y.fl = flNV) ∧
        (infCode ty c = false → [a0, b0, a1, b1].any (infCode sf) = false → y.fl = if signals then flNV else 0)) ∧
      (bad → nanCode ty c = false → [a0, b0, a1, b1].any (nanCode sf) = false → y = ⟨defaultNaN ty, flNV, none⟩)) ∧
    (∀ a b c, a < 2 ^ tyWidth ty → b < 2 ^ tyWidth ty → c < 2 ^ tyWidth ty →
      let nan := fun x => nanCode ty x = true
      let nv := fun (l : List Nat) => if l.any (sigCode ty) then flNV else 0
      let bad := infCode ty a = true ∧ fin b ∧ v b = 0 ∨ infCode ty b = true ∧ fin a ∧ v a = 0
      let invalid : FRes := ⟨defaultNaN ty, flNV, none⟩
      (nan a ∨ nan b → let r : FRes := ⟨quietCode ty (if nanCode ty a then a else b), nv [a, b], none⟩
        (∀ sub, addF ty rm sub a b = r) ∧ mulF ty rm a b = r) ∧
      (nan a → let r : FRes := ⟨quietCode ty a, nv [a], none⟩
        rcpF ty rm a = r ∧ sqrtF ty rm a = r ∧ rsqF ty rm a = r ∧ exp2F ty rm a = r ∧ log2F ty rm a = r ∧
        (∀ exact, rndF ty rm exact a = r) ∧ (∀ n, ldexpF ty rm a n = r) ∧ ∀ dt, tyFloat dt = true →
          cvtF ty dt rm a = ⟨if ty = dt then quietCode ty a else if tyWidth ty < tyWidth dt then widened ty dt a else defaultNaN dt,
            nv [a], none⟩) ∧
      (infCode ty a = true → (∀ dt, tyFloat dt = true → cvtF ty dt rm a = ⟨infPat dt (neg a), 0, some (neg a)⟩) ∧
        rcpF ty rm a = .plain (zeroPat ty (neg a)) ∧
        (neg a = false → rsqF ty rm a = .plain (zeroPat ty false) ∧ let r : FRes := ⟨infPat ty false, 0, some false⟩
          sqrtF ty rm a = r ∧ exp2F ty rm a = r ∧ log2F ty rm a = r) ∧
        (neg a = true → rsqF ty rm a = invalid ∧ sqrtF ty rm a = invalid ∧ log2F ty rm a = invalid ∧
          exp2F ty rm a = .plain (zeroPat ty false))) ∧
      (nan a ∨ nan b ∨ nan c → let r := fmaF ty rm a b c
        r.pat = quietCode ty (if nanCode ty c then c else if nanCode ty a then a else b) ∧ r.inf = none ∧
        (bad → r.fl = flNV) ∧ (¬bad → r.fl = nv [a, b, c])) ∧
      (bad → mulF ty rm a b = invalid ∧ (¬nan c → fmaF ty rm a b c = invalid)) ∧
      (infCode ty a = true → infCode ty b = true → ∀ sub : Bool, addF ty rm sub a b =
        if neg a = (neg b != sub) then ⟨infPat ty (neg a), 0, some (neg a)⟩ else invalid) ∧
      (infCode ty a = true → fin b → ∀ sub : Bool, addF ty rm sub a b = ⟨infPat ty (neg a), 0, some (neg a)⟩) ∧
      (fin a → v a < 0 → sqrtF ty rm a = invalid ∧ rsqF ty rm a = invalid ∧ log2F ty rm a = invalid) ∧
      (fin a → v a = 0 → rcpF ty rm a = ⟨infPat ty (neg a), flDZ, some (neg a)⟩ ∧ rsqF ty rm a = ⟨infPat ty (neg a), flDZ, some (neg a)⟩ ∧
        log2F ty rm a = ⟨infPat ty true, flDZ, some true⟩) ∧
      ∀ big : Bool, (minMaxF ty big a b).fl = nv [a, b] ∧ (nan a → nan b → (minMaxF ty big a b).pat = quietCode ty a) ∧
        (nan a → ¬nan b → (minMaxF ty big a b).pat = b) ∧ (¬nan a → nan b → (minMaxF ty big a b).pat = a)) ∧
    (∀ (fo sat : Bool) (y : FRes), y.pat < 2 ^ tyWidth ty → let sub := expField ty y.pat = 0 ∧ manField ty y.pat ≠ 0
      (fo = true → sub → deliver ty fo sat y = (zeroPat ty (neg y.pat), y.fl ||| flUF ||| flNX)) ∧
      (fo = false ∨ ¬sub → (∀ s, y.inf = some s → sat = true → deliver ty fo sat y = (maxPat ty s, y.fl)) ∧
        (y.inf = none ∨ sat = false → deliver ty fo sat y = (y.pat, y.fl)))) ∧
    ∀ (b : Memory) (f a : Nat), ty ≠ 13 → fin a →
      let q := fun off => b.readN (4112 * f + off) 4
      let x := fun (off : Nat) => ratOf 12 (q off)
      let rounds := fun (ty rm : Nat) (z : ℚ) (y : FRes) => (z ≠ 0 → RoundsTo ty rm z y) ∧ (z = 0 → finiteCode ty y.pat = true ∧
        ratOf ty y.pat = 0 ∧ y.fl = 0 ∧ y.inf = none)
      finiteCode 12 (q 0) = true → finiteCode 12 (q 4) = true →
      ∀ u y1 : FRes, rounds 12 0 ((ratOf ty a - x 0) * x 4) u →
        let w : ℚ := match u.inf with | some s => if s then 0 else 256 | none => max 0 (min 256 (ratOf 12 u.pat))
        let seg := min ⌊w⌋₊ 255
        let t := w - seg
        let c := fun (j : Nat) => 16 + 16 * seg + 4 * j
        (∀ j < 3, finiteCode 12 (q (c j)) = true) → rounds 12 0 (x (c 2) * t + x (c 1)) y1 → y1.inf = none →
        finiteCode 12 y1.pat = true → rounds ty rm (ratOf 12 y1.pat * t + x (c 0)) (tabF b ty rm f a)

/-- R359, R360: a TRET behind a TRAP gives the warp its window back and goes on behind the TRAP, outside the handler. TRET
discards the frames down to the trap frame and goes on at TEPC, at the REP iteration that TSTAT names and once without
breakpoint and watchpoint checks when TSTAT says so. -/
def Obligations.TrapReturns : Prop :=
  (∀ (s : State) (u v : UniW), Clear (.trap u) s = true → NoLoopEnd s.w = true → s.w.rep = none → s.w.handles gSWTRAP = true →
    s.w.spilled.length ≤ s.w.links.length → s.w.pc.toNat + 4 < 2 ^ 52 →
    ∃ t, exec (.trap u) s = .next t ∧
      (Clear (.tret v) t = true → NoLoopEnd t.w = true →
        ∃ r, exec (.tret v) t = .next r ∧ r.w.base = s.w.base ∧ r.w.m = s.w.m ∧ r.w.entered = s.w.entered ∧
          r.w.links = s.w.links ∧ r.w.pc = s.w.pc + 4 ∧ r.w.tstat = 0 ∧ r.w.vregs = s.w.vregs ∧ r.w.kregs = s.w.kregs ∧ r.mem = s.mem)) ∧
  ∀ (s : State) (u : UniW) (above : List Link) (l : Link) (ls : List Link), Clear (.tret u) s = true → NoLoopEnd s.w = true →
    s.w.links = above ++ l :: ls → (∀ x ∈ above, x.trap = false) → l.trap = true → s.w.spilled.length ≤ ls.length →
    ∃ t, exec (.tret u) s = .next t ∧ t.mem = s.mem ∧ t.w.links = ls ∧ t.w.m = l.callerM ∧ t.w.entered = l.callerEntered ∧
      t.w.pc = s.w.tepc.setWidth 64 ∧ t.w.tstat = 0 ∧ t.w.suppress = s.w.tstat.getLsbD 1 ∧
      t.w.repFrom = (if s.w.tstat.getLsbD 2 then (s.w.tstat.extractLsb' 3 6).toNat else 0) ∧ t.w.active = s.w.active

/-- R87, R113, R351, R357, R364, R370, R374, R376, R378 to R380, R382, R389: what stops an instruction before its own meaning,
in the order of R351. ILL and a reserved opcode take ILLEGAL 1; a word that some row of the rules speaks of (misuses) takes
ILLEGAL with the lowest reason of its rows, and no other word does but a REP prefix for its next word; a Hearth command
outside the Hearth and a Stoker-privileged CSR take PRIV; an enabled breakpoint at the pc takes BREAK. The modifiers of PACK
and UNPACK are log 115 and an engine-state instruction in a Hearth context log 119, both DESIGN CHOICE; that a trap before any
instruction counts as an issue is log 138, that SC does not step ATOM's vc log 145, and SPAWN's va with no payload log 146,
all DEDUCED. -/
def Obligations.DecodeTraps : Prop :=
  (∀ (s : State) (w : LaneW), s.w.status = .live →
    exec (.ill w) s = .next (s.takeTrap ⟨gILLEGAL, laneWord 0 w, w.tail.getD 0, 1, false, false, none, false⟩)) ∧
  (∀ (s t : State) (c k : Nat) (cs : List Choice) (b : List Byte) (w : IWord), s.schedule = .issue c k :: cs →
    let r : State := { s.pass with schedule := cs }
    r.canIssue c k = true → r.mayGo c k = true → r.dispatches c k = false → (r.turnTo c k).ahead = .ok t → t.w.rep = none → t.fetchWord t.w t.w.pc.toNat = .ok b → b = wordBytes w →
    w.getLsbD 30 = false → decodeWords w none = .error (if w.getLsbD 31 then .reservedUniform (opcOf w) else .reservedLane (opcOf w)) →
    step s = .next ((t.takeTrap ⟨gILLEGAL, w, 0, 1, w.getLsbD 31, false, none, false⟩).issued c k ((r.turnTo c k).uniAt ((r.turnTo c k).warpAt c k), false))) ∧
  (∀ (s : State) (i : Instr) (x : IWord) (y : Option IWord), s.w.status = .live → i.form.words = some (x, y) →
    (∀ n, (true, n) ∈ misuses i s → (∀ m, (true, m) ∈ misuses i s → n ≤ m) →
      exec i s = .next (s.takeTrap ⟨gILLEGAL, x, y.getD 0, BitVec.ofNat 32 n, isUni i, false, none, false⟩)) ∧
    ((∀ n, (true, n) ∉ misuses i s) → formReasons i.form ++ stateReasons i s = [])) ∧
  ∀ (s : State) (i : Instr) (x : IWord) (y : Option IWord), s.w.status = .live → i.form.words = some (x, y) →
    let reasons := formReasons i.form ++ stateReasons i s ++ match i with | .rep r => repReasons r s | _ => []
    (∀ n ∈ reasons, (∀ m ∈ reasons, n ≤ m) →
      exec i s = .next (s.takeTrap ⟨gILLEGAL, x, y.getD 0, BitVec.ofNat 32 n, isUni i, false, none, false⟩)) ∧
    (reasons = [] →
      (hearthOnly i.form = true → s.w.kind ≠ .hearth →
        exec i s = .next (s.takeTrap ⟨gPRIV, x, y.getD 0, 0xFFF, true, false, none, false⟩)) ∧
      (∀ opc w, i.form = .csr opc w → csrPriv w.csr.toNat = true →
        exec i s = .next (s.takeTrap ⟨gPRIV, x, y.getD 0, w.csr.setWidth 32, true, false, none, false⟩)) ∧
      (∀ n < 4, privDetail i (s.w.kind == .hearth) = none → s.w.suppress = false → s.w.rep = none → s.w.repFrom = 0 → s.w.active ≠ 0 →
        s.w.pc.toNat < 2 ^ 52 →
        (∀ m ≤ n, ((AMap.get 0 s.w.bpaddr m).getLsbD 0 = true ∧ (AMap.get 0 s.w.bpaddr m).extractLsb' 2 50 = s.w.pc.extractLsb' 2 50) ↔ m = n) →
        exec i s = .next (s.takeTrap ⟨gBREAK, 0x80000000 + BitVec.ofNat 32 n, s.w.pc.setWidth 32, 0, isUni i, false, none, false⟩)))

/-- R51, R52, R213, R219, R220, R351, R357, R362, R365, R366, R371, R376, R394: what stops an access or an operand. ULD and UST take
ALIGN for a misaligned address; for a page with V = 0 they park with no trap CSR written; for a page without the right they
take PERM 1 or 2. A lane memory instruction raises the first condition of R351 among those that its acting lanes meet, with
the lanes that meet it and the lowest one's address; the conditions are ALIGN, a watchpoint that its bytes touch, an absent
page, PERM 1, 2, 4, 5, 6 or 8, a stale generation and a lost die; that R is checked before W and that the lanes are those that
meet the group whatever their reason is log 51, DEDUCED, and the physical accesses of a Hearth context are log 10, a DESIGN
CHOICE. In every class an empty source with its trap bit set takes EMPTY in operand order, any other empty source or
destination stalls, and a poisoned source in an acting lane takes HWERR, with the lowest such lane's first poisoned source,
after every other condition. -/
def Obligations.AccessFaults : Prop :=
  (∀ (s : State) (u : UniW), ∀ x ∈ [((.uld u : Instr), 0, false), (.ust u, 1, true)], Clear x.1 s = true →
    ReadableK s.w ([u.ka.toNat, u.kb.toNat] ++ if x.2.2 then [u.kd.toNat] else []) = true → (x.2.2 = true ∨ s.w.kIsEmpty u.kd.toNat = false) →
    let a := (uniAddr s.w u true).toNat
    let lg := cwLog u.cw
    let va := uniAddr s.w u true
    let trap := fun g reason space => s.takeTrap ⟨g, 1, va.setWidth 32,
      BitVec.ofNat 4 reason ++ BitVec.ofNat 4 x.2.1 ++ BitVec.ofNat 4 space ++ va.extractLsb' 32 20, true, false, none, x.2.2⟩
    (a % 2 ^ lg ≠ 0 → exec x.1 s = .next (trap gALIGN lg (cwSpace u.cw))) ∧
    (∀ l sp, a % 2 ^ lg = 0 → cwSpace u.cw = 0 → s.w.kind ≠ .hearth → watchMatch s.w (reqOf 0 x.2.1 lg true) a = none → a < 2 ^ 52 →
      s.launch? s.w.launch = some l → AMap.find? s.aspaces l.asid = some sp → s.cachesAgree s.curCore l.asid sp.root a l.gen →
      (s.walk sp.root a = .absent → ∃ t, exec x.1 s = .next t ∧
        t.w = { s.w with park := some (.xlate va), replay := t.w.replay }) ∧
      ∀ p, s.walk sp.root a = .leaf p →
        (x.2.2 = false → p.r = false → exec x.1 s = .next (trap gPERM 1 0)) ∧
        (x.2.2 = true → p.w = false → exec x.1 s = .next (trap gPERM 2 0)))) ∧
  (∀ (s : State) (lw : LaneW), ∀ x ∈ laneAccesses s.w lw, Clear x.instr s = true → s.w.acts lw ≠ 0 →
    (∀ y ∈ memSrcs lw x.readsB x.readsC, y.isEmpty s.w = false) → (∀ r, x.vd = some r → s.w.vIsEmpty r = false) →
    let outs := (s.resolveList s.curCore s.w ((laneAddrs s.w lw (s.w.acts lw)).map fun y => (y.1, x.req, y.2))).1
    let rank := fun g => [gALIGN, gWATCH, gXLATE, gPERM, gGEN, gLINK].idxOf g
    ∀ l e, (l, .error e) ∈ outs → (∀ k f, (k, .error f) ∈ outs → rank e.group ≤ rank f.group ∧ (f.group = e.group → l ≤ k)) →
      let va := laneAddr s.w lw l
      let lanes := maskOf fun k => outs.any fun o => o.1 == k && match o.2 with | .error f => f.group == e.group | .ok _ => false
      exec x.instr s = .next (s.takeTrap (if e.group = gLINK then ⟨gLINK, BitVec.ofNat 32 e.reason, 0, 0, false, false, none, false⟩
        else ⟨e.group, lanes, va.setWidth 32,
          BitVec.ofNat 4 e.reason ++ BitVec.ofNat 4 e.access ++ BitVec.ofNat 4 e.space ++ va.extractLsb' 32 20, false, false, none, e.wr⟩))) ∧
  (∀ (s : State) (core a : Nat) (w : Warp) (q : Req), a < 2 ^ 64 → q.watch = true → q.space < 3 →
    let space := if w.kind = .hearth ∧ q.space = 0 then 4 else q.space
    let fails := fun g reason access => (s.resolve core w q a).1 = .error ⟨g, reason, access, space, a, q.needW⟩
    let hit := fun (n : Nat) =>
      let c := (AMap.get 0 w.wpctl n).toNat
      bits c 7 6 = space ∧ (c.testBit 0 = true ∧ q.access ≠ 1 ∨ c.testBit 1 = true ∧ q.access ≠ 0) ∧
        ∃ b < q.size, (a + b) / 2 ^ bits c 5 2 = (AMap.get 0 w.wpaddr n).toNat / 2 ^ bits c 5 2
    (a % 2 ^ q.align ≠ 0 → fails gALIGN q.align q.access) ∧
    (a % 2 ^ q.align = 0 → w.suppress = false → (hit 0 → fails gWATCH 0 q.access) ∧ (¬hit 0 → hit 1 → fails gWATCH 1 q.access)) ∧
    (a % 2 ^ q.align = 0 → w.suppress = true ∨ ¬hit 0 ∧ ¬hit 1 →
      let owned := fun (core off : Nat) => AMap.find? (s.core core).units (off / 4096) = some w.launch ∧ w.kind ≠ .hearth ∧ w.launch ≠ 0
      (q.space = 1 → (2 ^ 20 ≤ a → fails gPERM 5 q.access) ∧ (a < 2 ^ 20 → ¬owned core a → fails gPERM 4 q.access) ∧
        (a < 2 ^ 20 → owned core a → (s.resolve core w q a).1 = .ok (.spad core a))) ∧
      (q.space = 2 → let dest := 192 * dieOf core + a / 2 ^ 20
        (2 ^ 28 ≤ a ∨ 192 ≤ a / 2 ^ 20 → fails gPERM 5 q.access) ∧
        (a < 2 ^ 28 → a / 2 ^ 20 < 192 → ¬owned dest (a % 2 ^ 20) → fails gPERM 4 q.access) ∧
        (a < 2 ^ 28 → a / 2 ^ 20 < 192 → owned dest (a % 2 ^ 20) → (s.resolve core w q a).1 = .ok (.spad dest (a % 2 ^ 20)))) ∧
      (q.space = 0 → w.kind = .hearth → (2 ^ 46 ≤ a ∨ paExists a = false → fails gPERM 5 q.access) ∧
        (a < 2 ^ 46 → paExists a = true →
          (regionOf a = 3 ∨ regionOf a ≠ 0 ∧ q.bus = false → fails gPERM 6 q.access) ∧
          (regionOf a = 0 ∨ regionOf a ≠ 3 ∧ q.bus = true → (s.onLostDie a = true → fails gLINK 4 q.access) ∧
            (s.onLostDie a = false → (s.resolve core w q a).1 = .ok (.mem a))))) ∧
      (q.space = 0 → w.kind ≠ .hearth → (2 ^ 52 ≤ a → fails gPERM 5 q.access) ∧
        ∀ l sp, a < 2 ^ 52 → s.launch? w.launch = some l → AMap.find? s.aspaces l.asid = some sp →
          s.cachesAgree core l.asid sp.root a l.gen →
          (s.walk sp.root a = .absent → fails gXLATE 0 q.access) ∧ (s.walk sp.root a = .malformed → fails gPERM 8 6) ∧
          ∀ p, s.walk sp.root a = .leaf p → let pa := p.pa + a % p.size
            (q.needR = true → p.r = false → fails gPERM 1 q.access) ∧
            ((q.needR = false ∨ p.r = true) → q.needW = true → p.w = false → fails gPERM 2 q.access) ∧
            ((q.needR = false ∨ p.r = true) → (q.needW = false ∨ p.w = true) →
              (regionOf pa = 3 ∨ regionOf pa ≠ 0 ∧ q.bus = false → fails gPERM 6 q.access) ∧
              (regionOf pa = 0 ∨ regionOf pa ≠ 3 ∧ q.bus = true → (sp.gen ≠ l.gen → fails gGEN 0 q.access) ∧
                (sp.gen = l.gen → (s.onLostDie pa = true → fails gLINK 4 q.access) ∧
                  (s.onLostDie pa = false → (s.resolve core w q a).1 = .ok (.mem pa)))))))) ∧
  (∀ (s : State) (u : UniW), ∀ x ∈ uniReaders s.w u ++ (uniAccesses s.w u).map Prod.fst, Clear x.1 s = true →
    (∃ k ∈ x.2.1, s.w.kIsEmpty k = true) ∨ (∃ k, x.2.2 = some k ∧ s.w.kIsEmpty k = true) → exec x.1 s = .next s.noteStall) ∧
  (∀ (s : State) (u : UniW) (i : Instr) (ks : List Nat) (y : Src) (p : RegPoison), Clear i s = true →
    ((∃ kd, (i, ks, kd) ∈ uniReaders s.w u ∧ (∀ k, kd = some k → s.w.kIsEmpty k = false)) ∨
      ∃ kd q a r, ((i, ks, kd), q, a) ∈ uniAccesses s.w u ∧ (∀ k, kd = some k → s.w.kIsEmpty k = false) ∧ s.resolveOne q a = .ok r) →
    (∀ k ∈ ks, s.w.kIsEmpty k = false) → firstPoison s.w (ks.map kSrc) 0 = some (y, p) →
    exec i s = .next (s.takeTrap (poisonStop y p true 1))) ∧
  (∀ (s : State) (lw : LaneW) (i : Instr) (srcs : List Src) (vd : Option Nat) (l : Nat) (y : Src) (p : RegPoison), Clear i s = true →
    (i, srcs, vd) ∈ laneReaders s.w lw ∨ (i, srcs, vd) ∈ memReaders s.w lw ∧ (∀ x ∈ laneAccesses s.w lw, x.instr = i →
      ∃ r, s.resolveAll s.curCore s.w x.req false (laneAddrs s.w lw (s.w.acts lw)) = .ok r) →
    (∀ y ∈ srcs, y.isEmpty s.w = false) → (∀ r, vd = some r → s.w.vIsEmpty r = false) →
    (s.w.acts lw).getLsbD l = true → firstPoison s.w srcs l = some (y, p) →
    (∀ k < l, (s.w.acts lw).getLsbD k = true → firstPoison s.w srcs k = none) →
    exec i s = .next (s.takeTrap (poisonStop y p false
      (maskOf fun k => (s.w.acts lw).getLsbD k && (firstPoison s.w srcs k).isSome)))) ∧
  ∀ (s : State) (lw : LaneW), ∀ x ∈ laneReaders s.w lw ++ memReaders s.w lw, Clear x.1 s = true → s.w.acts lw ≠ 0 →
    let srcs := x.2.1
    (∀ y, srcs.find? (fun y => y.trap && y.isEmpty s.w) = some y → exec x.1 s = .next (s.takeTrap
      ⟨gEMPTY, BitVec.ofNat 32 (y.reg % 32 + (if y.isK then 32 else 0) + 64 * y.pos), BitVec.ofNat 32 (wordsOf x.1).1, 0, false, false, none, false⟩)) ∧
    ((∀ y ∈ srcs, y.trap = false ∨ y.isEmpty s.w = false) → ((∃ y ∈ srcs, y.isEmpty s.w = true) ∨ ∃ r, x.2.2 = some r ∧ s.w.vIsEmpty r = true) →
      exec x.1 s = .next s.noteStall)

/-- R352, R361, R372, R373: a trap that no handler of the warp takes goes to the Stoker: the warp stops where it is, and the
launch keeps the record of the first such trap, and among those of one cycle that of a warp before a stop without one, of
the lower core, of the lower slot. That a Hearth context's trap is recorded in the launch of the packet that it received last
is log 56, DEDUCED. -/
def Obligations.StokerTraps : Prop :=
  ∀ (s : State) (t : Trap), t.group ≠ gXLATE → s.w.handles t.group = false → s.w.rep = none → t.group < 25 →
    let u := s.takeTrap t
    u.w = { s.w with park := some .stoker } ∧ u.mem = s.mem ∧ (∀ c k, (c, k) ≠ (s.curCore, s.curSlot) → u.warpAt c k = s.warpAt c k) ∧
    ∀ l, s.launch? s.w.launch = some l → t.group ≠ gGEN → t.group ≠ gHWERR →
      ∃ r, r.addr = s.w.resume t ∧ r.coreid = coreId s.curCore ∧
        r.slot = s.curSlot ∧ r.idx = s.w.idx ∧ r.mask = s.w.active ∧ r.d0 = t.d0 ∧ r.d1 = t.d1 ∧ r.d2 = t.d2 ∧
        r.cause = BitVec.ofBool t.unif ++ BitVec.ofBool t.async ++ BitVec.ofNat 5 t.group ∧ r.flags.getLsbD 0 = s.w.inTrap ∧
        r.flags.getLsbD 1 = (s.w.kind == .hearth) ∧ r.flags.getLsbD 2 = false ∧
        (l.trap = none → u.launch? s.w.launch = some { l with trap := some r, trapAt := s.clock }) ∧
        ∀ y, l.trap = some y → u.launch? s.w.launch =
          some (if l.trapAt = s.clock ∧ (y.flags.getLsbD 2 = true ∨ r.coreid < y.coreid ∨ r.coreid = y.coreid ∧ r.slot < y.slot)
            then { l with trap := some r } else l)

/-- R97, R144, R218, R228: a lane load whose accesses meet no condition marks vd empty and puts on its way, for each acting lane,
the bytes at its place, little-endian, sign- or zero-extended. It changes no memory and nothing else of the warp. (An
aligned access lies in one 256-byte line.) An acquiring one at .c or wider, or with REM, then discards the core's L1.
That the value is the one at issue is log 4, and which lines may answer an atomic load log 103, both DEDUCED. -/
def Obligations.LaneLoads : Prop :=
  ∀ (s t : State) (lw : LaneW) (ps : List (Nat × Place)), ∀ x ∈ laneLoads lw, Clear x.1 s = true → s.w.acts lw ≠ 0 →
    Readable s.w (s.w.acts lw) (memSrcs lw false false) = true → s.w.vIsEmpty lw.vd.toNat = false →
    s.resolveAll s.curCore s.w (reqOf x.2 0 (tyLog lw.t) true) false (laneAddrs s.w lw (s.w.acts lw)) = .ok (ps, t) →
    (∀ p ∈ ps, ∀ pa, p.2 = .mem pa → pa % 256 + tyWidth lw.t / 8 ≤ 256) →
    ∃ u f, exec x.1 s = .next u ∧ u.mem = s.mem ∧
      u.w = ({ s.w with vEmpty := (s.w.base + lw.vd.toNat) :: s.w.vEmpty, inflight := s.w.inflight ++ [f] } : Warp).complete (s.nextPc x.1) ∧
      f.toK = false ∧ f.reg = s.w.base + lw.vd.toNat ∧ f.mask = s.w.acts lw ∧
      (ordAcq lw.ord = true → 2 ≤ lw.scp ∨ lw.rem = true → u.co.l1 = []) ∧
      ∀ p ∈ ps, match p.2 with
        | .spad c off => f.vals.getD p.1 0 = loadExt lw.t ((s.core c).spad.readN off (tyWidth lw.t / 8))
        | .mem pa => regionOf pa = 0 →
            ∃ b ∈ s.mayRead s.curCore pa (tyWidth lw.t / 8) (lw.ord != 0), f.vals.getD p.1 0 = loadExt lw.t (leNat b)

/-- R97, R144, R145: a lane store whose accesses meet no condition writes each acting lane's data at its place, the
highest-numbered lane last, and no other byte; no register changes. That memory holds the data as soon as the store has
issued is log 5, DEDUCED. -/
def Obligations.LaneStores : Prop :=
  ∀ (s t : State) (lw : LaneW) (ps : List (Nat × Place)), ∀ x ∈ laneStores lw, Clear x.1 s = true → s.w.acts lw ≠ 0 →
    Readable s.w (s.w.acts lw) (memSrcs lw true false) = true → s.plain ps = true →
    s.resolveAll s.curCore s.w (reqOf x.2 1 (tyLog lw.t) true) false (laneAddrs s.w lw (s.w.acts lw)) = .ok (ps, t) →
    ∃ u, exec x.1 s = .next u ∧ s.keepsOutside u (tyWidth lw.t / 8) ps ∧
      { u.w with park := none } = { s.w.complete (s.nextPc x.1) with park := none } ∧
      ∀ (j : Nat) (p : Nat × Place), ps[j]? = some p → p.2.inside = true → (∀ (k : Nat) (q : Nat × Place), j < k → ps[k]? = some q → p.2.apart (tyWidth lw.t / 8) q.2 = true) →
        u.valueAt p.2 (tyWidth lw.t / 8) = ((s.w.v lw.vb.toNat).getD p.1 0).toNat % 2 ^ (8 * (tyWidth lw.t / 8))

/-- R146 to R148: ATOM, CAS and FADDA whose accesses meet no condition act lane by lane in increasing order, each on what
the lane before it left; the old value of each lane is on its way to vd, and no other byte changes. R148: FADDO records each
acting lane's contribution under its key, and memory stays as it is until the window closes. That the update and the old
value are taken at issue is logs 5 and 4, DEDUCED. -/
def Obligations.LaneAtomics : Prop :=
  (∀ (s t : State) (lw : LaneW) (ps : List (Nat × Place)), ∀ x ∈ atomForms s.w lw, Clear x.instr s = true → s.w.acts lw ≠ 0 →
    Readable s.w (s.w.acts lw) (memSrcs lw true x.readsC) = true → (∀ r, x.vd = some r → s.w.vIsEmpty r = false) →
    s.resolveAll s.curCore s.w x.req false (laneAddrs s.w lw (s.w.acts lw)) = .ok (ps, t) →
    s.plain ps = true → inWholes (tyWidth lw.t / 8) ps = true →
    ∃ u, exec x.instr s = .next u ∧ s.keepsOutside u (tyWidth lw.t / 8) ps ∧
      u.w.vregs = s.w.vregs ∧ u.w.kregs = s.w.kregs ∧ u.w.preds = s.w.preds ∧
      (x.vd = none → u.w.inflight = s.w.inflight) ∧
      ∀ (j : Nat) (p : Nat × Place), ps[j]? = some p → p.2.inside = true →
        u.valueAt p.2 (tyWidth lw.t / 8) = atomChain (tyWidth lw.t / 8) x.new p.2 ps (s.valueAt p.2 (tyWidth lw.t / 8)) ∧
        ∀ r, x.vd = some r → ∃ f, u.w.inflight = s.w.inflight ++ [f] ∧ f.toK = false ∧ f.reg = s.w.base + r ∧ f.mask = s.w.acts lw ∧
          f.vals.getD p.1 0 = loadExt lw.t (atomChain (tyWidth lw.t / 8) x.new p.2 (ps.take j) (s.valueAt p.2 (tyWidth lw.t / 8)))) ∧
  ∀ (s t : State) (lw : LaneW) (ps : List (Nat × Place)) (l : Launch), Clear (.faddo lw) s = true → s.w.acts lw ≠ 0 →
    Readable s.w (s.w.acts lw) (memSrcs lw true false) = true → s.launch? s.w.launch = some l → keysRise s.launches = true →
    (s.launches.map fun y => y.2.contribs.length).sum + 32 ≤ 131072 →
    s.resolveAll s.curCore s.w (reqOf 0 2 (tyLog lw.t) false) false (laneAddrs s.w lw (s.w.acts lw)) = .ok (ps, t) →
    ∃ u k, exec (.faddo lw) s = .next u ∧ u.mem = s.mem ∧ u.launch? s.w.launch = some k ∧
      k = { l with contribs := l.contribs ++ ps.filterMap fun p => match p.2 with
        | .mem pa => some ⟨s.w.epoch, s.w.wid, s.w.idx, p.1, s.w.faddoCount, pa, lw.t,
            zeroExt (tyWidth lw.t) ((s.w.v lw.vb.toNat).getD p.1 0).toNat⟩
        | .spad _ _ => none } ∧
      u.w = ({ s.w with faddoCount := s.w.faddoCount + 1 } : Warp).complete (s.nextPc (.faddo lw))

/-- R149 to R151, R377: PFETCH changes no register and no memory; TLOOK answers what the set holds; TINS makes the slot of the
highest acting lane hold its tag, clears the other way of its set that held it, and leaves no set with a tag twice; TINV
leaves no acting lane's tag valid; RCNT adds 1 for each acting lane. -/
def Obligations.TagsAndCounters : Prop :=
  ∀ (s : State) (lw : LaneW), s.w.acts lw ≠ 0 → Readable s.w (s.w.acts lw) (memSrcs lw false false) = true →
    let a := fun l => (laneAddr s.w lw l).toNat
    let aligned := ∀ l ∈ lanesOf (s.w.acts lw), a l % 8 = 0 ∧ a l < 2 ^ 52
    let unique := fun (m : TagMap) => ∀ st tag y z, y < 8 → z < 8 → AMap.find? m (8 * st + y) = some tag →
      AMap.find? m (8 * st + z) = some tag → y = z
    (Clear (.pfetch lw) s = true → ∃ u, exec (.pfetch lw) s = .next u ∧ u.mem = s.mem ∧ u.w = s.w.complete (s.nextPc (.pfetch lw))) ∧
    (Clear (.tlook lw) s = true → aligned → s.w.vIsEmpty lw.vd.toNat = false →
      exec (.tlook lw) s = .next (s.wroteV (.tlook lw) lw (fun l =>
        match tagWay s.co.tags (bits (a l) 15 8) (BitVec.ofNat 36 (bits (a l) 51 16)) with
        | some y => BitVec.ofNat 64 (8 * bits (a l) 15 8 + y)
        | none => BitVec.ofNat 64 (2 ^ 63 + 8 * bits (a l) 15 8 +
            ((List.range 8).find? fun y => (AMap.find? s.co.tags (8 * bits (a l) 15 8 + y)).isNone).getD
              (AMap.get 0 s.co.tagPtr (bits (a l) 15 8)))) fun _ => 0)) ∧
    (∀ l, Clear (.tins lw) s = true → aligned → Readable s.w (s.w.acts lw) (memSrcs lw true false) = true →
      (∀ j ∈ lanesOf (s.w.acts lw), bits ((s.w.v lw.vb.toNat).getD j 0).toNat 10 3 = bits (a j) 15 8) →
      l ∈ lanesOf (s.w.acts lw) → (∀ j ∈ lanesOf (s.w.acts lw), j ≤ l) →
      let slot := bits ((s.w.v lw.vb.toNat).getD l 0).toNat 10 0
      ∃ u, exec (.tins lw) s = .next u ∧ AMap.find? u.co.tags slot = some (BitVec.ofNat 36 (bits (a l) 51 16)) ∧
        AMap.get 0 u.co.tagPtr (bits (a l) 15 8) = (slot % 8 + 1) % 8 ∧ u.mem = s.mem ∧ u.w = s.w.complete (s.nextPc (.tins lw)) ∧
        (unique s.co.tags → unique u.co.tags ∧ ∀ y < 8, 8 * bits (a l) 15 8 + y ≠ slot →
          AMap.find? u.co.tags (8 * bits (a l) 15 8 + y) ≠ some (BitVec.ofNat 36 (bits (a l) 51 16))) ∧
        ∀ k, (∀ j ∈ lanesOf (s.w.acts lw), k / 8 ≠ bits (a j) 15 8) → AMap.find? u.co.tags k = AMap.find? s.co.tags k) ∧
    (Clear (.tinv lw) s = true → aligned → unique s.co.tags →
      ∃ u, exec (.tinv lw) s = .next u ∧ u.mem = s.mem ∧ u.w = s.w.complete (s.nextPc (.tinv lw)) ∧
        ∀ l ∈ lanesOf (s.w.acts lw), tagWay u.co.tags (bits (a l) 15 8) (BitVec.ofNat 36 (bits (a l) 51 16)) = none) ∧
    (Clear (.rcnt lw) s = true → ∃ u, exec (.rcnt lw) s = .next u ∧ u.mem = s.mem ∧ u.w = s.w.complete (s.nextPc (.rcnt lw)) ∧
      ∀ j, AMap.get 0 u.co.routes j =
        AMap.get 0 s.co.routes j + BitVec.ofNat 32 ((lanesOf (s.w.acts lw)).filter fun l => a l % 64 == j).length)

/-- R163, R164, R218, R228: ULD puts the bytes at its place on their way to kd, and an acquiring one at .c or wider, or with REM, then
discards the core's L1; UST writes kd there; UATOM updates the place and puts the old value on its way. No other byte
changes. That values are taken and stores performed at issue is logs 4 and 5, which lines may answer an atomic ULD log 103,
and that k0 is not marked empty log 137, all DEDUCED. -/
def Obligations.UniformMemory : Prop :=
  ∀ (s t : State) (u : UniW) (p : Place),
    let n := 2 ^ cwLog u.cw
    let toKd := fun (i : Instr) (v : State) (x : Word → Prop) =>
      (u.kd = 0 → v.w.inflight = s.w.inflight) ∧
      (u.kd ≠ 0 → ∃ f, v.w.inflight = s.w.inflight ++ [f] ∧ f.toK = true ∧ f.reg = u.kd.toNat ∧ x (f.vals.headD 0) ∧
        v.w.kEmpty = u.kd.toNat :: s.w.kEmpty) ∧
      (s.w.rep = none → NoLoopEnd s.w = true → v.w.pc = s.nextPc i)
    (Clear (.uld u) s = true → ReadableK s.w [u.ka.toNat, u.kb.toNat] = true → s.w.kIsEmpty u.kd.toNat = false →
      s.resolveOne (reqOf (cwSpace u.cw) 0 (cwLog u.cw) true) (uniAddr s.w u true) = .ok (p, t) → p.inside = true →
      ∃ v, exec (.uld u) s = .next v ∧ v.mem = s.mem ∧ (ordAcq (bits u.cw 15 13) = true → 2 ≤ bits u.cw 12 10 ∨ bit u.cw 6 = true → v.co.l1 = []) ∧
        toKd (.uld u) v fun x => ∃ b, x = (if u.cw.testBit 7 then signExt (8 * n) (leNat b) else zeroExt (8 * n) (leNat b)) ∧
          match p with
          | .spad c off => b = (s.core c).spad.bytes off n
          | .mem pa => b ∈ s.mayRead s.curCore pa n (bits u.cw 15 13 != 0)) ∧
    (Clear (.ust u) s = true → ReadableK s.w [u.ka.toNat, u.kb.toNat, u.kd.toNat] = true →
      s.resolveOne (reqOf (cwSpace u.cw) 1 (cwLog u.cw) true) (uniAddr s.w u true) = .ok (p, t) → s.plain [(0, p)] = true →
      ∃ v, exec (.ust u) s = .next v ∧ s.keepsOutside v n [(0, p)] ∧
        (p.inside = true → v.valueAt p n = (s.w.k u.kd.toNat).toNat % 2 ^ (8 * n)) ∧
        { v.w with park := none } = { s.w.complete (s.nextPc (.ust u)) with park := none }) ∧
    (Clear (.uatom u) s = true → ReadableK s.w [u.ka.toNat, u.kb.toNat] = true → (u.f5.getLsbD 3 = false → s.w.kIsEmpty u.kd.toNat = false) →
      s.resolveOne (reqOf (cwSpace u.cw) 2 (cwLog u.cw) (u.f5.toNat % 8 == 0 || u.f5.toNat % 8 == 6)) (uniAddr s.w u false) = .ok (p, t) →
      s.plain [(0, p)] = true →
      ∃ v, exec (.uatom u) s = .next v ∧ s.keepsOutside v n [(0, p)] ∧
        (p.inside = true → v.valueAt p n =
          atomResult ((if u.f5.getLsbD 4 then 0 else 4) + cwLog u.cw) (u.f5.toNat % 8) (s.valueAt p n) ((s.w.k u.kb.toNat).toNat % 2 ^ (8 * n))) ∧
        (u.f5.getLsbD 3 = true → v.w.inflight = s.w.inflight) ∧
        (u.f5.getLsbD 3 = false → p.inside = true → toKd (.uatom u) v fun x =>
          x = if u.f5.getLsbD 4 then signExt (8 * n) (s.valueAt p n) else zeroExt (8 * n) (s.valueAt p n)))

/-- R156, R291, R292: SPAWN and SPAWNT send a child for each acting lane, in increasing order, with its payload, to the
issuing core or to a core of the group that holds the lane's place; each join counter first goes up by one for each of
its lanes. No other byte of memory and no register changes. That a Hearth's child belongs to the launch of the packet it
received last is log 132, a DESIGN CHOICE; which core a SPAWNT child goes to is log 67, and that the counters rise at issue
log 5, both DEDUCED. -/
def Obligations.SpawnsSetOut : Prop :=
  ∀ (s t : State) (lw : LaneW) (place : Bool) (joins places : List (Nat × Place)),
    let i : Instr := if place then .spawnt lw else .spawn lw
    let entry := if place then s.w.k (bits lw.fn 5 0) else wordsFrom s.w.pc (BitVec.ofNat 16 lw.imm16)
    Clear i s = true → NoLoopEnd s.w = true → s.w.acts lw ≠ 0 → Readable s.w (s.w.acts lw) (spawnSrcs lw place) = true →
    s.resolveReqs s.curCore s.w false (spawnReqs s.w lw place) = .ok (joins ++ places, t) → joins.length = (spawnJoiners s.w lw).length →
    (place = true → entry.toNat % 4 = 0 ∧ entry.toNat < 2 ^ 52 ∧ ∀ p ∈ places, ∃ pa, p.2 = .mem pa ∧ regionOf pa = 0) →
    s.plain joins = true → inWholes 8 joins = true →
    ∃ u, exec i s = .next u ∧ s.keepsOutside u 8 joins ∧
      { u.w with park := none } = { s.w.complete (s.nextPc i) with park := none } ∧
      (∀ p ∈ joins, p.2.inside = true → u.valueAt p.2 8 = (s.valueAt p.2 8 + (joins.filter fun q => q.2 == p.2).length) % 2 ^ 64) ∧
      (place = false → u.travel = s.travel ++ (lanesOf (s.w.acts lw)).map fun l => ⟨s.curCore, spawnChild s lw entry l, [], s.clock, s.w.wid⟩) ∧
      (place = true → u.travel = s.travel ++ ((lanesOf (s.w.acts lw)).zip places).map fun x =>
        let c := match x.2.2 with | .mem pa => s.spawnCore (paDie pa) (paGroup pa) | .spad _ _ => s.curCore
        ⟨c, spawnChild s lw entry x.1, s.path (dieOf s.curCore) (dieOf c), s.clock, s.w.wid⟩)

/-- R174: BAR in a child warp completes, and so it does in a Hearth context, which is log 72, DEDUCED; in a block it parks
until the last warp that has not retired arrives, which wakes every warp of the block that is parked in it. -/
def Obligations.BarrierArrivals : Prop :=
  ∀ (s : State) (u : UniW), Clear (.bar u) s = true →
    ((s.w.kind ≠ .block ∨ AMap.find? s.co.blocks s.w.block = none) → exec (.bar u) s = .next (s.finish (s.nextPc (.bar u)))) ∧
    (∀ b : Block, s.w.kind = .block → AMap.find? s.co.blocks s.w.block = some b →
      ((∃ j, j < b.slots.length ∧ j ≠ s.w.idx ∧ j ∉ b.arrived ∧ j ∉ b.retired) →
        ∃ t, exec (.bar u) s = .next t ∧ t.w.park = some .bar ∧ t.w.pc = s.w.pc ∧ t.mem = s.mem ∧
          AMap.find? t.co.blocks s.w.block = some { b with arrived := s.w.idx :: b.arrived }) ∧
      ((∀ j, j < b.slots.length → j = s.w.idx ∨ j ∈ b.arrived ∨ j ∈ b.retired) →
        ∃ t, exec (.bar u) s = .next t ∧ t.mem = s.mem ∧ AMap.find? t.co.blocks s.w.block = some { b with arrived := [] } ∧
          t.w = ({ s.w with park := none, wakePc := s.nextPc (.bar u) } : Warp).complete (s.nextPc (.bar u)) ∧
          ∀ k, k ≠ s.curSlot → t.warpAt s.curCore k =
            if (s.warpAt s.curCore k).ofBlock s.w.block = true ∧ (s.warpAt s.curCore k).park = some .bar then
              ({ s.warpAt s.curCore k with park := none } : Warp).complete (s.warpAt s.curCore k).wakePc
            else s.warpAt s.curCore k))

/-- R175, R323: a CHIM parks its warp and counts in its channel's phase; at die level the arrival that fills the phase
begins the next one and wakes the warps that waited for it. -/
def Obligations.ChimneyArrivals : Prop :=
  ∀ (s : State) (u : UniW) (c : Channel), Clear (.chim u) s = true →
    let d := dieOf s.curCore
    let ch := u.f5.toNat % 16
    AMap.find? (s.die d).chimney ch = some c →
    (c.module = true → ∃ t, exec (.chim u) s = .next t ∧ t.w.park = some (.chim ch true c.phase) ∧ t.w.pc = s.w.pc ∧ t.mem = s.mem) ∧
    (c.module = false → c.count + 1 < c.need →
      ∃ t, exec (.chim u) s = .next t ∧ t.w.park = some (.chim ch false c.phase) ∧ t.w.pc = s.w.pc ∧ t.mem = s.mem ∧
        AMap.find? (t.die d).chimney ch = some { c with count := c.count + 1 }) ∧
    (c.module = false → c.need ≤ c.count + 1 →
      ∃ t, exec (.chim u) s = .next t ∧ t.mem = s.mem ∧ AMap.find? (t.die d).chimney ch = some { c with count := 0, phase := c.phase + 1 } ∧
        t.w = ({ s.w with park := none, wakePc := s.nextPc (.chim u) } : Warp).complete (s.nextPc (.chim u)) ∧ t.co.l1 = [] ∧
        ∀ x k, dieOf x = d → (x, k) ≠ (s.curCore, s.curSlot) → (s.warpAt x k).park = some (.chim ch false c.phase) →
          t.warpAt x k = ({ s.warpAt x k with park := none } : Warp).complete (s.warpAt x k).wakePc)

/-- R176, R218: FENCE goes on; with .ar or .acq at .c or wider it discards the core's L1. R177: CLOSEB makes the open batch
the newest closed one, complete at once when it is empty. R178, R358: WAITB parks while a batch that it covers is left;
then it reports a failed command that it covers, or goes on. -/
def Obligations.FencesAndBatches : Prop :=
  ∀ (s : State) (u : UniW),
    (Clear (.fence u) s = true →
      exec (.fence u) s = .next ((if u.f5.toNat / 8 = 2 ∨ u.f5.toNat % 8 < 2 then s else s.dropL1 s.curCore fun _ => true).finish
        (s.nextPc (.fence u)))) ∧
    (Clear (.closeb u) s = true → s.w.kIsEmpty u.kd.toNat = false →
      (match s.w.batches.head? with | some b => s.w.newest - b.num + 1 ≠ 32 | none => True) →
      exec (.closeb u) s = .next (s.finishW (({ s.w with
        newest := s.w.newest + 1
        openLeft := 0
        batches := s.w.batches ++ if s.w.openLeft = 0 then [] else [⟨s.w.newest + 1, s.w.openLeft⟩] } : Warp).setK u.kd.toNat
          ((s.w.newest + 1).setWidth 64)) (s.nextPc (.closeb u)))) ∧
    (Clear (.waitb u) s = true → ReadableK s.w (uSrcs u false true) = true →
      let n := (uB s.w u).setWidth 16
      (s.w.newest - n).toNat < 2 ^ 15 →
      (s.w.failed.all (fun f => !upTo n f.num) = true → s.w.batches.all (fun b => !upTo n b.num) = true →
        ∃ t, exec (.waitb u) s = .next t ∧ t.mem = s.mem ∧
          t.w = ({ s.w with park := none, wakePc := s.nextPc (.waitb u), wrote := s.w.wrote.filter fun b => !upTo n b } : Warp).complete
            (s.nextPc (.waitb u)) ∧
          t.co.l1 = if s.w.wrote.any (upTo n ·) then [] else s.co.l1) ∧
      (s.w.batches.any (fun b => upTo n b.num) = true →
        exec (.waitb u) s = .next (s.setW { s.w with park := some (.batch n), wakePc := s.nextPc (.waitb u) })) ∧
      (∀ f, s.w.batches.all (fun b => !upTo n b.num) = true → s.w.failed.find? (fun f => upTo n f.num) = some f →
        s.w.handles f.group = true → f.group < 25 → s.w.rep = none →
        ∃ t, exec (.waitb u) s = .next t ∧ t.mem = s.mem ∧
          t.w = ({ s.w with failed := s.w.failed.erase f, park := none, wakePc := s.nextPc (.waitb u) } : Warp).trapped s.w.pc
            (BitVec.ofNat 7 (96 + f.group)) f.d0 f.d1 f.d2 (f.group == gWATCH || f.group == gBREAK && f.d0.getLsbD 31)))

/-- R179: JOINW goes on with an acquire when its counter reads 0, and parks when it does not. R180, R405: JOINA adds to the
counter, or records JOIN 1 and leaves it when a negative addend would take it below 0. That JOINW reads past the L1 is log
89, and that JOINA's update is made at issue log 5, both DEDUCED. -/
def Obligations.JoinCounters : Prop :=
  ∀ (s t : State) (u : UniW) (pa : Nat),
    (Clear (.joinw u) s = true → ReadableK s.w [u.ka.toNat] = true → s.resolveOne joinRead (s.w.k u.ka.toNat) = .ok (.mem pa, t) →
      (s.mem.readN pa 8 = 0 → ∃ v, exec (.joinw u) s = .next v ∧ v.mem = s.mem ∧ v.co.l1 = [] ∧ v.w = s.w.complete (s.nextPc (.joinw u))) ∧
      (s.mem.readN pa 8 ≠ 0 → ∃ v, exec (.joinw u) s = .next v ∧ v.mem = s.mem ∧ v.w.pc = s.w.pc ∧
        v.w.park = some (.join (s.w.k u.ka.toNat) pa (decide ((s.die (paDie pa)).waiters < 4096)) false) ∧
        (v.die (paDie pa)).waiters = (s.die (paDie pa)).waiters + (if (s.die (paDie pa)).waiters < 4096 then 1 else 0))) ∧
    (Clear (.joina u) s = true → ReadableK s.w (uSrcs u true true) = true → s.resolveOne (joinReq true) (s.w.k u.ka.toNat) = .ok (.mem pa, t) →
      regionOf pa = 0 → s.mem.wf = true →
      ∃ v, exec (.joina u) s = .next v ∧ s.keepsOutside v 8 [(0, .mem pa)] ∧
        { v.w with park := none } = { s.w.complete (s.nextPc (.joina u)) with park := none } ∧
        (0 ≤ (s.mem.readN pa 8 : Int) + (uB s.w u).toInt ∨ 0 ≤ (uB s.w u).toInt →
          v.mem.readN pa 8 = (s.mem.readN pa 8 + (uB s.w u).toNat) % 2 ^ 64 ∧ v.launches = s.launches) ∧
        ((s.mem.readN pa 8 : Int) + (uB s.w u).toInt < 0 → v.mem.readN pa 8 = s.mem.readN pa 8 ∧
          ∀ l, s.launch? s.w.launch = some l → l.trap = none → ∃ r, v.launch? s.w.launch = some { l with trap := some r, trapAt := s.clock } ∧ r.d0 = 1 ∧
            r.cause.toNat % 32 = gJOIN ∧ r.addr = s.w.pc))

/-- R181: WELECT gives 1 to the elected warp of a block and to a child, and 0 to another warp of the block; that any other
warp in no block reads 1 is log 72, DEDUCED. R182, R183: OFLUSH goes on to the next epoch, and .wait parks until the old one
is applied. R184: PTOK appends a token; VTOK marks kd empty, but not k0 (log 137, DEDUCED), and waits for its channel's oldest
token. -/
def Obligations.ElectionsEpochsTokens : Prop :=
  ∀ (s : State) (u : UniW),
    (Clear (.welect u) s = true → s.w.kIsEmpty u.kd.toNat = false →
      exec (.welect u) s = .next (s.wroteK (.welect u) u.kd.toNat
        (match AMap.find? s.co.blocks s.w.block with
         | some b => if s.w.kind = .block ∧ s.w.idx ≠ b.elected then 0 else 1
         | none => 1))) ∧
    (Clear (.oflush u) s = true → u.f5.getLsbD 0 = false →
      exec (.oflush u) s = .next (s.finishW { s.w with epoch := s.w.epoch + 1 } (s.nextPc (.oflush u)))) ∧
    (∀ l, Clear (.oflush u) s = true → u.f5.getLsbD 0 = true → s.curLaunch? = some l →
      (s.w.epoch < l.epochsDone → ∃ t, exec (.oflush u) s = .next t ∧ t.mem = s.mem ∧ t.co.l1 = [] ∧
        t.w = ({ s.w with epoch := s.w.epoch + 1 } : Warp).complete (s.nextPc (.oflush u))) ∧
      (l.epochsDone ≤ s.w.epoch → exec (.oflush u) s = .next (s.setW { s.w with
        epoch := s.w.epoch + 1, park := some (.oflush s.w.epoch), wakePc := s.nextPc (.oflush u) }))) ∧
    (Clear (.ptok u) s = true → ReadableK s.w [u.ka.toNat] = true → (AMap.get [] s.co.tokens (u.f5.toNat % 16)).length < 8 →
      ∃ t, exec (.ptok u) s = .next t ∧ t.mem = s.mem ∧ t.w = s.w.complete (s.nextPc (.ptok u)) ∧
        ∀ ch, AMap.get [] t.co.tokens ch = AMap.get [] s.co.tokens ch ++ if ch = u.f5.toNat % 16 then [s.w.k u.ka.toNat] else []) ∧
    (Clear (.vtok u) s = true → s.w.kIsEmpty u.kd.toNat = false →
      ∃ t, exec (.vtok u) s = .next t ∧ t.mem = s.mem ∧ t.co.tokens = s.co.tokens ∧
        t.w = ({ s.w with vtokWaits := s.w.vtokWaits + 1, kEmpty := (if u.kd = 0 then [] else [u.kd.toNat]) ++ s.w.kEmpty } : Warp).complete
          (s.nextPc (.vtok u)) ∧
        ∀ ch, AMap.get [] t.co.vtoks ch = AMap.get [] s.co.vtoks ch ++ if ch = u.f5.toNat % 16 then [(s.curSlot, u.kd.toNat)] else [])

/-- R58, R59, R185, R354, R355: CSRR writes the CSR's value to kd. CSRW, CSRS and CSRC set the fields of a CSR that software
writes; the other bits of it, INTRAP among them, every other CSR, every register and memory stay as they were. That LAUNCHTAG reads 0 and WARPID.SLOT 48 in a Hearth context is
log 126, a DESIGN CHOICE. -/
def Obligations.ControlRegisters : Prop :=
  (∀ (s : State) (w : CsrW), ∀ x ∈ csrValues s, Clear (.csrr w) s = true → w.csr.toNat = x.1 → s.w.kIsEmpty w.r.toNat = false →
    exec (.csrr w) s = .next (s.wroteK (.csrr w) w.r.toNat x.2)) ∧
  ∀ (s : State) (w : CsrW), ∀ x ∈ csrUpdates w, ∀ c ∈ csrFields, Clear x.1 s = true →
    ReadableK s.w (if w.lit.isSome then [] else [w.r.toNat]) = true → w.csr.toNat = c.1 →
    let src := match w.lit with | some t => t.setWidth 64 | none => s.w.k w.r.toNat
    ∃ t, exec x.1 s = .next t ∧
      csrRead t c.1 = (x.2 (csrRead s c.1) src &&& c.2.1) ||| (csrRead s c.1 &&& c.2.2) ∧
      (∀ n, n ≠ c.1 → csrRead t n = csrRead s n) ∧
      t.w.vregs = s.w.vregs ∧ t.w.kregs = s.w.kregs ∧ t.w.preds = s.w.preds ∧ t.mem = s.mem

/-- R186: XLINV removes the entries of any address space whose pages overlap the range from the caches in its scope, and
nothing from the others. -/
def Obligations.CachedTranslationsGo : Prop :=
  ∀ (s : State) (u : UniW), Clear (.xlinv u) s = true → ReadableK s.w (uSrcs u true true) = true → (s.w.k u.ka.toNat).toNat < 2 ^ 52 →
    let a := (s.w.k u.ka.toNat).toNat
    let n := (uB s.w u).toNat
    let out := fun (l : List TlbEntry) => l.filter fun e => !(decide (n ≠ 0) && decide (a < e.va + e.size) && decide (e.va < a + n))
    let scope := u.f5.toNat % 4
    ∃ t, exec (.xlinv u) s = .next t ∧ t.mem = s.mem ∧ t.w = s.w.complete (s.nextPc (.xlinv u)) ∧
      (∀ c, (t.core c).tlb =
        if c = s.curCore ∨ scope = 2 ∨ scope = 1 ∧ dieOf c = dieOf s.curCore then out (s.core c).tlb else (s.core c).tlb) ∧
      ∀ d, (t.die d).tlb = if d = dieOf s.curCore ∨ scope = 2 then out (s.die d).tlb else (s.die d).tlb

/-- R187, R190 to R192, R383: TCOPY, TCOPYM, SGATHER, SREDUCE and SCVT read their descriptor at issue. One without a reason
joins its queue with the values read at issue and the warp's open batch; one with a reason takes the trap of its group,
which names the open batch's number and the descriptor's address. That the descriptor is read at the memory side and its
poison ignored is log 75, DEDUCED. -/
def Obligations.DescriptorCommands : Prop :=
  ∀ (s t : State) (u : UniW) (pa : Nat), ∀ x ∈ descForms s u,
    let d := s.mem.bytes pa x.size
    let a := s.w.k u.ka.toNat
    Clear x.instr s = true → ReadableK s.w x.ks = true → x.full = false →
    s.resolveOne (descReq x.size) a = .ok (.mem pa, t) → regionOf pa = 0 →
    (x.reason t d = none → ∃ v, exec x.instr s = .next v ∧ v.mem = s.mem ∧
      v.co.copyq = s.co.copyq ++ x.copies d ∧ v.co.stackq = s.co.stackq ++ x.stackCmds d ∧
      v.w = ({ s.w with openLeft := s.w.openLeft + 1 } : Warp).complete (s.nextPc x.instr)) ∧
    (∀ r, x.reason t d = some r → exec x.instr s = .next (s.takeTrap
      ⟨x.group, BitVec.ofNat 32 ((s.w.newest + 1).toNat + 2 ^ 16 * r + 2 ^ 20), a.setWidth 32, (a.extractLsb' 32 20).setWidth 32,
        true, false, none, false⟩))

/-- R130, R203 to R205, R290: TABLD binds to the inactive bank and joins the open batch; TABSW flips the banks; BENSET
writes a network word; RSNAP stores the 64 route counters at its offset and clears them. That a table at an address not
aligned to 16 is copied like any other is log 82, DEDUCED. -/
def Obligations.TablesAndSnapshots : Prop :=
  ∀ (s : State) (u : UniW),
    (Clear (.tabld u) s = true → ReadableK s.w (uSrcs u true true) = true → s.co.copyq.length < 64 → (uB s.w u).toNat < 256 →
      ∃ t, exec (.tabld u) s = .next t ∧ t.mem = s.mem ∧
        t.co.copyq = s.co.copyq ++ [⟨s.curSlot, s.w.owner, s.w.newest + 1, 4, s.w.k u.ka.toNat, [], [(uB s.w u).toNat],
          !s.co.tabBank, [], [], none, false⟩] ∧
        t.w = ({ s.w with openLeft := s.w.openLeft + 1 } : Warp).complete (s.nextPc (.tabld u))) ∧
    (Clear (.tabsw u) s = true → ∃ t, exec (.tabsw u) s = .next t ∧ t.mem = s.mem ∧ t.co.tabBank = !s.co.tabBank ∧
        t.co.bank0 = s.co.bank0 ∧ t.co.bank1 = s.co.bank1 ∧ t.w = s.w.complete (s.nextPc (.tabsw u))) ∧
    (Clear (.benset u) s = true → ReadableK s.w [u.ka.toNat, u.kb.toNat, u.kd.toNat] = true →
      ∃ t x, exec (.benset u) s = .next t ∧ t.mem = s.mem ∧
        x = (s.w.k u.kd.toNat).setWidth 16 ++ s.w.k u.kb.toNat ++ s.w.k u.ka.toNat ∧
        (∀ j, AMap.get 0 t.w.benes j = if j = u.f5.toNat % 8 then x else AMap.get 0 s.w.benes j) ∧
        t.w.vregs = s.w.vregs ∧ t.w.kregs = s.w.kregs ∧ t.w.preds = s.w.preds) ∧
    (∀ (t : State) (p : Place), Clear (.rsnap u) s = true → ReadableK s.w [u.ka.toNat] = true →
      s.resolveOne ⟨1, 1, false, true, 256, 8, false, false⟩ (s.w.k u.ka.toNat) = .ok (p, t) → s.plain [(0, p)] = true →
      ∃ v, exec (.rsnap u) s = .next v ∧ s.keepsOutside v 256 [(0, p)] ∧ v.w = s.w.complete (s.nextPc (.rsnap u)) ∧
        (∀ c off, p = .spad c off → ∀ j, j < 64 → (v.core c).spad.readN (off + 4 * j) 4 = (AMap.get 0 s.co.routes j).toNat) ∧
        ∀ j, AMap.get 0 v.co.routes j = 0)

/-- R193, R198, R276, R384: a queued matrix command takes the next sequence number of its core, which it writes to kd, and
its register values go with it; a WLOAD becomes the governing one. One with a reason of R384 takes the MATRIX trap and
queues nothing. -/
def Obligations.MatrixCommands : Prop :=
  ∀ (s : State) (u : UniW), ∀ x ∈ matrixForms u,
    let a := if x.2.2 then (s.w.k u.ka.toNat).toNat else 0
    let c := uB s.w u
    let tile := if x.2.1 = .wload then 0 else u.f5.toNat % 8
    Clear x.1 s = true → ReadableK s.w (uSrcs u x.2.2 true) = true → s.w.kIsEmpty u.kd.toNat = false → s.co.mqueue.length < 16 →
    (matrixReason x.2.1 s.co.govern s.co.spad a c.toNat false = none → ∃ t, exec x.1 s = .next t ∧ t.mem = s.mem ∧
      t.co.mqueue = s.co.mqueue ++ [⟨s.co.mseq, x.2.1, s.curSlot, s.w.owner, tile, a, c⟩] ∧ t.co.mseq = s.co.mseq + 1 ∧
      t.co.govern = (if x.2.1 = .wload then some ⟨c.toNat % 16, c.getLsbD 4, (c.extractLsb' 16 16).toNat, [], false⟩ else s.co.govern) ∧
      t.co.acc = s.co.acc ∧ t.co.spad = s.co.spad ∧
      t.w = (s.w.setK u.kd.toNat (s.co.mseq.setWidth 64)).complete (s.nextPc x.1)) ∧
    (∀ r off, matrixReason x.2.1 s.co.govern s.co.spad a c.toNat false = some (r, off) → exec x.1 s = .next (s.takeTrap
      ⟨gMATRIX, BitVec.ofNat 32 (s.co.mseq.toNat + 2 ^ 16 * tile + 2 ^ 20 * r), BitVec.ofNat 32 off, 0, true, false, none, false⟩))

/-- R198, R199, R385: ACCRD.v puts half a row of a tile on its way to vd, two columns in each lane; ACCWR.v writes half a
row from a v register. While a queued command names the tile, both take ACCBUSY instead, which names the oldest one. -/
def Obligations.AccumulatorRows : Prop :=
  ∀ (s : State) (u : UniW) (h row : Nat), u.f5.getLsbD 3 = true → h ≤ 1 → row < 128 → (uB s.w u).toNat = 32768 * h + row →
    let tile := u.f5.toNat % 8
    let v := u.kd.toNat % 32
    (∀ i, (i = .accrd u ∧ Readable s.w 1 ((uSrcs u false true).map kSrc) = true ∧ s.w.vIsEmpty v = false ∨
        i = .accwr u ∧ Readable s.w 0xFFFFFFFF ((uSrcs u false true).map kSrc ++ [vSrc v false 0]) = true) → Clear i s = true →
      ∀ x, s.co.mqueue.find? (fun x => x.kind != .wload && x.tile == tile) = some x →
      exec i s = .next (s.takeTrap ⟨gACCBUSY, BitVec.ofNat 32 (x.seq.toNat + 2 ^ 16 * tile + if i = .accwr u then 2 ^ 19 else 0),
        BitVec.ofNat 32 (wordsOf i).1, 0, true, false, none, false⟩)) ∧
    (s.co.mqueue.all (fun x => x.kind == .wload || x.tile != tile) = true →
      (Clear (.accrd u) s = true → Readable s.w 0xFFFFFFFF ((uSrcs u false true).map kSrc) = true → s.w.vIsEmpty v = false →
        ∃ t f, exec (.accrd u) s = .next t ∧ t.mem = s.mem ∧ t.co.acc = s.co.acc ∧
          t.w = ({ s.w with vEmpty := (s.w.base + v) :: s.w.vEmpty, inflight := s.w.inflight ++ [f] } : Warp).complete (s.nextPc (.accrd u)) ∧
          f.toK = false ∧ f.reg = s.w.base + v ∧ f.mask = 0xFFFFFFFF ∧
          ∀ l, l < 32 → f.vals.getD l 0 = s.co.accAt tile row (64 * h + 2 * l + 1) ++ s.co.accAt tile row (64 * h + 2 * l)) ∧
      (Clear (.accwr u) s = true → Readable s.w 0xFFFFFFFF ((uSrcs u false true).map kSrc ++ [vSrc v false 0]) = true →
        ∃ t, exec (.accwr u) s = .next t ∧ t.mem = s.mem ∧ t.w = s.w.complete (s.nextPc (.accwr u)) ∧
          (∀ l, l < 32 → t.co.accAt tile row (64 * h + 2 * l) = ((s.w.v v).getD l 0).setWidth 32 ∧
            t.co.accAt tile row (64 * h + 2 * l + 1) = ((s.w.v v).getD l 0).extractLsb' 32 32) ∧
          ∀ e, (e < 16384 * tile + 128 * row + 64 * h ∨ 16384 * tile + 128 * row + 64 * h + 64 ≤ e) →
            AMap.get 0 t.co.acc e = AMap.get 0 s.co.acc e))

/-- R200, R202, R358, R446: ACCWAIT and SORTWAIT park while a command that they cover is queued; then they report a failed
one that they cover to the handler, or go on. An ACCWAIT on a number not yet issued takes MATRIX 7. -/
def Obligations.EngineWaits : Prop :=
  ∀ (s : State) (u : UniW),
    (Clear (.accwait u) s = true → ReadableK s.w (uSrcs u false true) = true →
      let n := (uB s.w u).setWidth 16
      let next := s.nextPc (.accwait u)
      let covers := fun (x : BitVec 16) => (n - x).toNat ≤ 2 ^ 15
      (2 ^ 15 ≤ (s.co.mseq - 1 - n).toNat → exec (.accwait u) s = .next (s.takeTrap
        ⟨gMATRIX, BitVec.ofNat 32 (n.toNat + 2 ^ 20 * 7), 0, 0, true, false, none, false⟩)) ∧
      ((s.co.mseq - 1 - n).toNat < 2 ^ 15 →
        ((∀ f ∈ s.co.matFailed, ¬covers f.num) → (∀ x ∈ s.co.mqueue, ¬covers x.seq) →
          exec (.accwait u) s = .next (s.finishW { s.w with park := none, wakePc := next } next)) ∧
        ((∃ x ∈ s.co.mqueue, covers x.seq) →
          exec (.accwait u) s = .next (s.setW { s.w with park := some (.acc n), wakePc := next })) ∧
        ∀ f, (∀ x ∈ s.co.mqueue, ¬covers x.seq) → s.co.matFailed.find? (fun f => decide (covers f.num)) = some f → s.w.handles f.group = true → f.group < 25 → s.w.rep = none →
          ∃ t, exec (.accwait u) s = .next t ∧ t.mem = s.mem ∧ t.co.matFailed = s.co.matFailed.erase f ∧ t.w = s.w.reported f next)) ∧
    (Clear (.sortwait u) s = true →
      let n := s.co.rIssued
      let next := s.nextPc (.sortwait u)
      (s.co.sortFailed = [] → (∀ x ∈ s.co.rqueue, n ≤ x.num) →
        exec (.sortwait u) s = .next (s.finishW { s.w with park := none, wakePc := next } next)) ∧
      ((∃ x ∈ s.co.rqueue, x.num < n) →
        exec (.sortwait u) s = .next (s.setW { s.w with park := some (.sort n), wakePc := next })) ∧
      ∀ f fs, (∀ x ∈ s.co.rqueue, n ≤ x.num) → s.co.sortFailed = f :: fs → s.w.handles f.group = true → f.group < 25 → s.w.rep = none →
        ∃ t, exec (.sortwait u) s = .next t ∧ t.mem = s.mem ∧ t.co.sortFailed = fs ∧ t.w = s.w.reported f next)

/-- R201, R202, R285, R288, R386: SORTLD, SORT and SORTST join the Riddle queue; one with a reason of R386 takes the SORT
trap with SORTPROG. SORTSTOP lets a running SORT finish its current step: it completes with the next step, or sorted when that step was the
last. SORTSTOP does nothing when none runs. -/
def Obligations.RiddleCommands : Prop :=
  (∀ (s : State) (u : UniW), ∀ x ∈ sortForms s.w u, Clear x.1 s = true → ReadableK s.w x.2.1 = true → s.co.rqueue.length < 8 →
    (x.2.2.2.2.2 = none → ∃ t, exec x.1 s = .next t ∧ t.mem = s.mem ∧ t.w = s.w.complete (s.nextPc x.1) ∧
      t.co.riddle = s.co.riddle ∧ t.co.spad = s.co.spad ∧ t.co.rIssued = s.co.rIssued + 1 ∧
      t.co.rqueue = s.co.rqueue ++ [⟨s.co.rIssued, x.2.2.1, s.curSlot, s.w.owner, x.2.2.2.1, x.2.2.2.2.1, u.f5⟩]) ∧
    (∀ r, x.2.2.2.2.2 = some r → exec x.1 s = .next (s.takeTrap ⟨gSORT, BitVec.ofNat 32 r,
      BitVec.ofNat 32 (4096 * s.co.riddle.state + 16 * s.co.riddle.step + s.co.riddle.phase), 0, true, false, none, false⟩))) ∧
  ∀ (s : State) (u : UniW), Clear (.sortstop u) s = true →
    (s.co.riddle.state ≠ 2 → exec (.sortstop u) s = .next (s.finish (s.nextPc (.sortstop u)))) ∧
    (s.co.riddle.state = 2 → s.w.park = none → (∀ f ∈ s.co.sortFailed, f.group = gSORT) → ∃ t, exec (.sortstop u) s = .next t ∧ t.mem = s.mem ∧
      (let r := s.co.riddle
       t.co.riddle.cells = r.stepCells r.phase r.step ∧ (t.co.riddle.state, t.co.riddle.phase, t.co.riddle.step) =
        (if r.step + 1 < r.phaseLen r.phase then (if r.phase < r.np then (3, r.phase, r.step + 1) else (4, r.np, 0))
         else if r.phase + 1 < r.np then (3, r.phase + 1, 0) else (4, r.np, 0))) ∧ t.co.rqueue = s.co.rqueue.drop 1 ∧ t.w = s.w.complete (s.nextPc (.sortstop u)))

/-- R206, R312, R313, R388: TSUBMIT enters its record under the next handle, which it writes to kd, behind every unfinished
task whose ranges clash with its own; TDONE takes a finished task out of the table and out of the predecessors of the
others, and takes TASK 2 for a handle that the table does not hold. That the record is read at the memory side and its
poison ignored is log 75, DEDUCED. -/
def Obligations.TaskTable : Prop :=
  (∀ (s t : State) (u : UniW) (l : Launch) (pa : Nat) (pas : List Nat), Clear (.tsubmit u) s = true →
    ReadableK s.w [u.ka.toNat] = true → s.w.kIsEmpty u.kd.toNat = false → s.curLaunch? = some l →
    s.resolveOne (recordReq 64 false) (s.w.k u.ka.toNat) = .ok (.mem pa, t) → regionOf pa = 0 →
    let r := s.mem.bytes pa 64
    badRecord r = false → (t.rangePas s.curCore l (recRanges r)).1 = some pas → l.taskReason (some pas) = none →
    s.unitLoad (l.holder pas).1 < 4096 →
    ∃ v k j, exec (.tsubmit u) s = .next v ∧ v.mem = s.mem ∧ v.w = (s.w.setK u.kd.toNat (j.handle.setWidth 64)).complete (s.nextPc (.tsubmit u)) ∧
      v.launch? s.w.launch = some k ∧ k.tasks = l.tasks ++ [j] ∧ k.nextHandle = j.handle + 1 ∧
      j.handle = (if l.nextHandle = 0 then 1 else l.nextHandle) ∧ j.die = (l.holder pas).1 ∧
      j.preds = (l.tasks.filter fun x => x.ranges.any fun y => (recRanges r).any fun z => rangesClash y.toNat z).map Task.handle) ∧
  ∀ (s : State) (u : UniW) (l : Launch), Clear (.tdone u) s = true → ReadableK s.w [u.ka.toNat] = true → s.curLaunch? = some l →
    let h : BitVec 32 := (s.w.k u.ka.toNat).setWidth 32
    (h ∈ l.tasks.map Task.handle → ∃ v k, exec (.tdone u) s = .next v ∧ v.mem = s.mem ∧ v.w = s.w.complete (s.nextPc (.tdone u)) ∧
      v.launch? s.w.launch = some k ∧ k.tasks.map Task.handle = (l.tasks.map Task.handle).filter (· ≠ h) ∧
      ∀ x ∈ k.tasks, h ∉ x.preds) ∧
    (h ∉ l.tasks.map Task.handle → exec (.tdone u) s = .next (s.takeTrap ⟨gTASK, 2, h, 0, true, false, none, false⟩))

/-- R207, R255, R309 to R311, R388: MBRECV takes the oldest packet of the die's mailbox into 8 registers with an acquire, or
parks; MBFWD sends its 8 registers to another mailbox that has a place, and a tile's pending block with them, or waits in
the order of request, and its warp issues nothing until the packet has left the die (when it has: log 125, DEDUCED); BLKGO
starts the block that its packet names when the core takes it now, and writes 1, or starts nothing and writes 0. The
dispatcher of boot takes what the mailbox holds to the Hearth area; then it starts the packet that comes next on the core of
its group with the fewest resident warps, the lowest number on a tie, or holds it back when no core of the group takes it.
The dispatcher's turns are log 107, a DESIGN CHOICE; the places of a mailbox are log 97, the launch that a packet means log
22, and what goes before a block log 95, all DEDUCED. -/
def Obligations.HearthCommands : Prop :=
  (∀ (s : State) (d : Nat), let t := s.dispatch d
    (∀ m ms, (s.die d).mailbox = m :: ms → s.mayHold d m.launch = true → t.mem = s.mem ∧ (t.die d).mailbox = ms ∧
      (t.die d).pending = (s.die d).pending ++ [⟨m, false⟩]) ∧
    ∀ h l, (∀ m ms, (s.die d).mailbox = m :: ms → s.mayHold d m.launch = false) → s.nextDispatch d = some h → s.launch? h.mail.launch = some l →
      let takes := fun c => (s.startFor c h.mail.launch l h.mail.words).isSome
      let g := 192 * d + 12 * packetGroup h.mail.words
      ((∀ j < 12, takes (g + j) = false) → t.cores = s.cores ∧ (t.die d).pending =
        (s.die d).pending.map fun x => if x = h then { x with tried := true } else x) ∧
      ((∃ j < 12, takes (g + j) = true) → ∃ j < 12, ∃ u, s.startFor (g + j) h.mail.launch l h.mail.words = some u ∧
        (∀ i < 12, takes (g + i) = true → (s.core (g + j)).residents < (s.core (g + i)).residents ∨
          (s.core (g + j)).residents = (s.core (g + i)).residents ∧ j ≤ i) ∧
        (∀ c, t.core c = u.core c) ∧ (t.die d).pending = (u.die d).pending.erase h)) ∧
  (∀ (s : State) (d : Nat), (s.warpAt (192 * d) 48).kind = .hearth → (∃ e m, m ∈ (s.die e).incoming ∧ m.fwd = some d) →
    s.canIssue (192 * d) 48 = false) ∧
  ∀ (s : State) (u : UniW),
    let d := dieOf s.curCore
    (Clear (.mbrecv u) s = true → (∀ j, j < 8 → s.w.kIsEmpty (u.kd.toNat + j) = false) →
      ((s.die d).mailbox = [] → exec (.mbrecv u) s = .next (s.setW { s.w with park := some .mbrecv })) ∧
      (∀ m ms, (s.die d).mailbox = m :: ms → ∃ t, exec (.mbrecv u) s = .next t ∧ t.mem = s.mem ∧ t.co.l1 = [] ∧
        (t.die d).mailbox = ms ∧ (s.w.rep = none → NoLoopEnd s.w = true → t.w.pc = s.nextPc (.mbrecv u)) ∧
        (∀ r, r ≠ 0 → t.w.k r = if u.kd.toNat ≤ r ∧ r < u.kd.toNat + 8 then m.words.getD (r - u.kd.toNat) 0 else s.w.k r) ∧
        t.w.vregs = s.w.vregs ∧ t.w.preds = s.w.preds)) ∧
    (∀ n l, Clear (.mbfwd u) s = true → ReadableK s.w (packetRegs u.kd.toNat ++ uSrcs u false true) = true →
      let p := (packetRegs u.kd.toNat).map s.w.k
      let e := (uB s.w u).toNat
      s.packetLaunch d p = some (n, l) → s.launch? n = some l → e < 8 → e ∈ l.dies →
      ((s.die e).hasPlace 2 (.hearth d n) = true → ∃ t k, exec (.mbfwd u) s = .next t ∧ t.mem = s.mem ∧
        t.w = s.w.complete (s.nextPc (.mbfwd u)) ∧ (t.die e).mailbox = (s.die e).mailbox ∧
        (t.die e).incoming = (s.die e).incoming ++ [⟨n, 2, p, s.path d e, s.clock, if s.path d e = [] then none else some d⟩] ∧
        t.launch? n = some k ∧ ∀ x, AMap.get 0 k.pend x = if l.hdr.kind ≠ 0 ∨ e = d then AMap.get 0 l.pend x
          else if x = e then AMap.get 0 l.pend x + 1 else if x = d then AMap.get 0 l.pend x - 1 else AMap.get 0 l.pend x) ∧
      ((s.die e).hasPlace 2 (.hearth d n) = false → exec (.mbfwd u) s = .next (s.askPlace e (.hearth d n)).noteStall)) ∧
    (Clear (.blkgo u) s = true → ReadableK s.w (packetRegs u.ka.toNat ++ [u.kb.toNat]) = true → s.w.kIsEmpty u.kd.toNat = false →
      let p := (packetRegs u.ka.toNat).map s.w.k
      let c := 192 * d + (s.w.k u.kb.toNat).toNat
      (s.w.k u.kb.toNat).toNat < 192 → ((p.getD 1 0).extractLsb' 39 7) = 0 →
      (s.startPacket c p = none → exec (.blkgo u) s = .next (s.wroteK (.blkgo u) u.kd.toNat 0)) ∧
      (∀ t n l, s.startPacket c p = some t → s.packetLaunch d p = some (n, l) → ∃ v b, exec (.blkgo u) s = .next v ∧
        v.mem = s.mem ∧ (u.kd ≠ 0 → v.w.k u.kd.toNat = 1) ∧ (v.core c).nextBlock = (s.core c).nextBlock + 1 ∧
        AMap.find? (v.core c).blocks (s.core c).nextBlock = some b ∧ b.launch = n ∧
        b.wid = cutWid (BitVec.ofNat 64 (bits (p.getD 1 0).toNat 38 0)) (p.getD 0 0) ∧
        b.slots.length = (l.hdr.plan (p.getD 2 0)).length))

/-- R50, R184, R302, R405, R41, R42, R301: what completes behind a warp. LOAD_COMPLETE writes the oldest producer in flight
to its register, which is full again; a token goes to its channel's oldest VTOK; JOINW_WAKE and JOINW_POLL read the counter
again and let the warp go on with an acquire, or leave it parked; CHILD_EXIT_DECREMENT takes 1 from its counter, or records
JOIN 1 when it reads 0; WARP_RELEASE frees the slot of a retired warp. That LOAD_COMPLETE takes the oldest producer is log
113, a DESIGN CHOICE, and that JOINW reads again past the L1 log 89, DEDUCED. -/
def Obligations.WarpsWakeAndEnd : Prop :=
  ∀ (s : State) (c k : Nat),
    let w := s.warpAt c k
    let others := fun (t : State) => ∀ x y, (x, y) ≠ (c, k) → t.warpAt x y = s.warpAt x y
    (∀ f fs, w.inflight = f :: fs → ∃ t, exec (.loadComplete c k) s = .next t ∧ t.mem = s.mem ∧ others t ∧
      let v := t.warpAt c k
      v.inflight = fs ∧ v.pc = w.pc ∧
      (f.toK = true → v.vregs = w.vregs ∧ v.kEmpty = w.kEmpty.erase f.reg ∧
        ∀ r, r ≠ 0 → v.k r = if r = f.reg then f.vals.headD 0 else w.k r) ∧
      (f.toK = false → v.kregs = w.kregs ∧ v.vEmpty = w.vEmpty.erase f.reg ∧
        ∀ r, AMap.get zeroLanes v.vregs r =
          if r = f.reg then Lanes.merge f.mask f.vals (AMap.get zeroLanes w.vregs r) else AMap.get zeroLanes w.vregs r)) ∧
    (∀ ch x xs r ys, AMap.get [] (s.core c).tokens ch = x :: xs → AMap.get [] (s.core c).vtoks ch = (k, r) :: ys →
      ∃ t, exec (.vtokTokenArrival c ch) s = .next t ∧ t.mem = s.mem ∧ others t ∧
        AMap.get [] (t.core c).tokens ch = xs ∧ AMap.get [] (t.core c).vtoks ch = ys ∧
        (t.warpAt c k).vtokWaits = w.vtokWaits - 1 ∧ (t.warpAt c k).kEmpty = w.kEmpty.erase r ∧ (r ≠ 0 → (t.warpAt c k).k r = x)) ∧
    (∀ va pa reg told, w.park = some (.join va pa reg told) → (reg = true → told = true) → w.status = .live → w.lent = 0 →
      0 < w.residents → s.onLostDie pa = false →
      ∃ t, exec (if reg then .joinwWake c k else .joinwPoll c k) s = .next t ∧ t.mem = s.mem ∧ others t ∧
        (s.mem.readN pa 8 ≠ 0 → t.warpAt c k = { w with park := some (.join va pa reg false) }) ∧
        (s.mem.readN pa 8 = 0 → t.warpAt c k = ({ w with park := none } : Warp).complete w.wakePc ∧ (t.core c).l1 = [] ∧
          (t.die (paDie pa)).waiters = (s.die (paDie pa)).waiters - if reg then 1 else 0)) ∧
    (∀ d ds pa u, w.exitDecs = d :: ds → d.waiting = false → d.ready (s.core c) k w = true →
      s.engAddr c w.launch d.join.toNat true false = (.ok pa, u) → s.mem.wf = true →
      ∃ t, exec (.childExitDecrement c k) s = .next t ∧ s.keepsOutside t 8 [(0, .mem pa)] ∧ (t.warpAt c k).exitDecs = ds ∧
        (s.mem.readN pa 8 ≠ 0 → t.mem.readN pa 8 = s.mem.readN pa 8 - 1) ∧
        (s.mem.readN pa 8 = 0 → t.mem = s.mem ∧ ∀ l, s.launch? w.launch = some l → l.trap = none →
          ∃ r, t.launch? w.launch = some { l with trap := some r, trapAt := s.clock } ∧ r.d0 = 1 ∧ r.cause.toNat % 32 = gJOIN ∧
            r.addr = d.pc ∧ r.slot = d.slot)) ∧
    (w.status = .retired → s.drained c k = true → w.failed = [] →
      ((s.core c).matFailed ++ (s.core c).sortFailed).all (fun f => f.slot != k) = true →
      ∃ t, exec (.warpRelease c k) s = .next t ∧ t.mem = s.mem ∧ others t ∧ (t.warpAt c k).status = .free ∧
        ∀ b, w.kind = .block → AMap.find? (s.core c).blocks w.block = some b →
          AMap.find? (t.core c).blocks w.block =
            if b.released.length + 1 < b.slots.length then some { b with released := w.idx :: b.released } else none)

/-- R292 to R294, R296, R297, R299, R300, R404: the Bellows. An entry joins the Kindling queue; the oldest formable group
with room becomes a child warp in a free slot, each lane with its payload and join address, at most one in a cycle, and the
child is ready from the next cycle on. Entries that one warp sent to one core arrive in the order in which they set out. An
evicted warp whose counter has
read 0 takes a slot again; a core that has stayed deadlocked for 1 ms stops the launch with SPAWN 4. -/
def Obligations.ChildrenFormAndReturn : Prop :=
  ∀ (s : State) (c : Nat),
    (∀ x, firstArrival c [] s.travel = some x → ∃ older later, s.travel = older ++ x :: later ∧ x.core = c ∧ x.hops = [] ∧
      ∀ y ∈ older, ¬(y.core = c ∧ y.entry.launch = x.entry.launch ∧ y.entry.coreid = x.entry.coreid ∧ y.wid = x.wid)) ∧
    (firstArrival c [] s.travel = none → exec (.kindlingEntryArrival c) s = .next s) ∧
    ((s.core c).formedAt = some s.clock → exec (.childWarpForm c) s = .next s) ∧
    (∀ k, (s.warpAt c k).kind = .child → s.clock ≤ (s.warpAt c k).since → s.canIssue c k = false) ∧
    (∀ x l, firstArrival c [] s.travel = some x → s.launch? x.entry.launch = some l →
      (s.core c).kindling.length < 2048 → (s.core c).overflow.all (fun y => y.launch != x.entry.launch) = true →
      ∃ t, exec (.kindlingEntryArrival c) s = .next t ∧ t.mem = s.mem ∧ t.travel = s.travel.erase x ∧
        (t.core c).kindling = (s.core c).kindling ++ [{ x.entry with arrived := s.clock }] ∧ (t.core c).overflow = (s.core c).overflow) ∧
    (∀ h hs, s.formable c = h :: hs → s.canReturn c = false → s.childRoom c h = true → (s.core c).formedAt ≠ some s.clock →
      let es := (takeGroup h s.clock 32 (s.core c).kindling).1
      ∃ t k, exec (.childWarpForm c) s = .next t ∧ t.mem = s.mem ∧ k < 48 ∧ (s.warpAt c k).takesSlot = false ∧
        let w := t.warpAt c k
        w.status = .live ∧ w.kind = .child ∧ w.launch = h.launch ∧ w.pc = h.entry ∧ w.budget = h.budget ∧ w.epoch = h.epoch ∧
        w.active = BitVec.ofNat 32 (2 ^ es.length - 1) ∧ w.launchMask = w.active ∧
        (∀ (i : Nat) (e : Kindle), es[i]? = some e → AMap.get 0 w.joins i = e.join ∧
          ∀ j, j < h.n → i < 32 → (w.v j).getD i 0 = e.pay.getD j 0) ∧
        w.since = s.clock ∧ (t.core c).formedAt = some s.clock ∧ (t.core c).deadlockSince = none) ∧
    (∀ j w, s.returning c = some (j, w) → 48 ≤ j →
      ∃ t k, exec (.warpReturn c) s = .next t ∧ t.mem = s.mem ∧ k < 48 ∧ (s.warpAt c k).takesSlot = false ∧
        (t.warpAt c j).status = .free ∧ (t.warpAt c k).status = .live ∧ (t.warpAt c k).pc = w.pc ∧
        (t.warpAt c k).links = w.links ∧ (t.warpAt c k).kregs = w.kregs) ∧
    (∀ h, s.spawnStuck c = some h →
      ((s.core c).deadlockSince = none → ∃ t, exec (.spawnDeadlock c) s = .next t ∧ (t.core c).deadlockSince = some s.time) ∧
      (∀ a l, (s.core c).deadlockSince = some a → a + 1000000 ≤ s.time → s.launch? h.launch = some l → l.trap = none →
        ∃ t r, exec (.spawnDeadlock c) s = .next t ∧ t.mem = s.mem ∧ t.launch? h.launch = some { l with trap := some r, trapAt := s.clock } ∧
          r.cause.toNat % 32 = gSPAWN ∧ r.d2.toNat / 2 ^ 20 % 16 = 4 ∧ r.coreid = coreId c))

/-- R187, R190, R192, R203, R262: the copy and stack engines. Commands start in issue order: with the one that executes, every
one before it in its queue has started. A command whose accesses meet no condition leaves its queue and
counts in its batch. A copy to the scratchpads or the scale memories of its targets delivers each element's bytes, or its
fill, at its offset; one to global memory stores each element or reduces it into its location; one to a cluster window
stores each element in another core's scratchpad. A TABLD fills its
functions of the bank it is bound to; SGATHER, SREDUCE and SCVT do their elements in increasing order, and one element of
each does what R192 says: SCVT's destination elements are the conversions of its source elements, scaled by the block's SE8
byte if it scales, with q4x pair by pair. What a scaled integer element rounds to is log 131, DEDUCED, and what SCVT makes of a NaN from a format to itself and between
F8A and F8B log 50, a DESIGN CHOICE. -/
def Obligations.EnginesExecute : Prop :=
  ∀ (s : State) (c pos : Nat),
    let r := s.startCopy c pos
    let q := s.startStack c pos
    let copiesLeft := ((s.core c).copyq.take pos).map (fun z => { z with started := true }) ++ (s.core c).copyq.drop (pos + 1)
    let stacksLeft := ((s.core c).stackq.take pos).map (fun z => { z with started := true }) ++ (s.core c).stackq.drop (pos + 1)
    (∀ x, (r.core c).copyq[pos]? = some x → x.waiting = none → (s.warpAt c x.slot).failed = [] → s.stopping c x.launch [x.owed] = false →
      s.mem.wf = true → (∀ k, (s.core k).spad.wf = true ∧ (s.core k).scale.wf = true) →
      let n := copySize x.desc
      let l := (x.checks r c x.rest).1
      let apart := fun (a b : Nat) => a + n ≤ b ∨ b + n ≤ a
      let dest := fun (y : CopyElem) => 192 * dieOf c + bits y.mem 27 20
      let done := fun (t : State) => exec (.copyExecute c pos) s = .next t ∧ (t.core c).copyq = copiesLeft
      (x.dir = 0 ∨ x.dir = 2 → (∀ y ∈ l, ∃ ps, y.2 = .ok ps ∧ ps.all (fun p => regionOf p.1 == 0) = true) →
        let store := fun (u : State) k => if x.dir = 2 then (u.core k).scale else (u.core k).spad
        ∃ t, done t ∧ t.mem = s.mem ∧
          (∀ k a, (k ∈ x.targets → ∀ y ∈ l, a < y.1.off ∨ y.1.off + n ≤ a) → (store t k).read a = (store s k).read a) ∧
          (∀ k, if x.dir = 2 then (t.core k).spad = (s.core k).spad else (t.core k).scale = (s.core k).scale) ∧
          ∀ k ∈ x.targets, ∀ (i : Nat) (y : CopyElem) (ps : List (Nat × Nat)), l[i]? = some (y, .ok ps) →
            (∀ (j : Nat) z, l[j]? = some z → j ≠ i → apart y.off z.1.off) →
            (y.inb = true → (ps.map Prod.snd).sum = n → (store t k).bytes y.off n = ps.flatMap fun p => s.mem.bytes p.1 p.2) ∧
            (y.inb = false → (store t k).bytes y.off n = copyFill x.desc)) ∧
      (x.dir = 1 → (∀ y ∈ l, if y.1.inb then ∃ pa, y.2 = .ok [(pa, n)] ∧ regionOf pa = 0 else y.2 = .ok []) →
        ∃ t, done t ∧ (∀ k, (t.core k).spad = (s.core k).spad) ∧
          (∀ a, (∀ y ∈ l, ∀ pa, y.2 = .ok [(pa, n)] → a < pa ∨ pa + n ≤ a) → t.mem.read a = s.mem.read a) ∧
          ∀ (i : Nat) (y : CopyElem) (pa : Nat), l[i]? = some (y, .ok [(pa, n)]) →
            (∀ (j : Nat) z q, l[j]? = some (z, .ok [(q, n)]) → j ≠ i → apart pa q) →
            t.mem.readN pa n = if copyRed x.desc = 0 then (s.core c).spad.readN y.off n
              else reduceVal (copyRfmt x.desc) (copyRed x.desc - 1) (s.mem.readN pa n) ((s.core c).spad.readN y.off n) % 2 ^ (8 * n)) ∧
      (x.dir = 3 → (∀ y ∈ l, y.2 = .ok []) →
        ∃ t, done t ∧ t.mem = s.mem ∧
          (∀ k a, (∀ y ∈ l, y.1.inb = true → dest y.1 = k → a < y.1.mem % 2 ^ 20 ∨ y.1.mem % 2 ^ 20 + n ≤ a) →
            (t.core k).spad.read a = (s.core k).spad.read a) ∧
          ∀ (i : Nat) (y : CopyElem), l[i]? = some (y, .ok []) → y.inb = true →
            (∀ (j : Nat) z, l[j]? = some z → z.1.inb = true → (dest z.1 = c → apart (z.1.mem % 2 ^ 20) y.off) ∧
              (j ≠ i → dest z.1 = dest y → apart (z.1.mem % 2 ^ 20) (y.mem % 2 ^ 20))) →
            (t.core (dest y)).spad.bytes (y.mem % 2 ^ 20) n = (s.core c).spad.bytes y.off n)) ∧
    (∀ x, (r.core c).copyq[pos]? = some x → x.dir = 4 → x.waiting = none → (s.warpAt c x.slot).failed = [] →
      s.stopping c x.launch [x.owed] = false →
      (if x.bank then (s.core c).bank1 else (s.core c).bank0).wf = true →
      (∀ y ∈ (x.tabChecks r c x.tabPieces).1, ∃ pa, y.2 = .ok [(pa, 16)] ∧ regionOf pa = 0) →
      ∃ t, exec (.tabldExecute c pos) s = .next t ∧ t.mem = s.mem ∧ (t.core c).copyq = copiesLeft ∧
        (if x.bank then (t.core c).bank0 = (s.core c).bank0 else (t.core c).bank1 = (s.core c).bank1) ∧
        ∀ off pa, (off, .ok [(pa, 16)]) ∈ (x.tabChecks r c x.tabPieces).1 →
          (if x.bank then (t.core c).bank1 else (t.core c).bank0).bytes off 16 = s.mem.bytes pa 16) ∧
    (∀ x i, (q.core c).stackq[pos]? = some x → x.waiting = none → (s.warpAt c x.slot).failed = [] → s.stopping c x.launch [x.owed] = false →
      (x.kind = 0 ∧ i = .sgatherExecute c pos ∨ x.kind = 1 ∧ i = .sreduceExecute c pos ∨ x.kind = 2 ∧ i = .scvtExecute c pos) →
      let r := x.steps c (stepCount x.kind x.desc - x.next) x.next q []
      r.2.2.err = none → ∃ t, exec i s = .next t ∧ t.mem = r.1.mem ∧ (t.core c).stackq = stacksLeft) ∧
    (∀ (x : StackCmd) (i pj ps pd : Nat) (t u v : State),
      let d := x.desc
      let st := s.cmdStack c x
      s.mem.wf = true → regionOf pj = 0 → regionOf ps = 0 → regionOf pd = 0 →
      (x.kind = 0 → s.stackRange c x.launch st (stAux d + 4 * i) 4 false = (.ok [(pj, 4)], t) →
        t.stackRange c x.launch st ((stSrc d + s.mem.readN pj 4 * stEs d) % 2 ^ 64) (stEs d) false = (.ok [(ps, stEs d)], u) →
        u.stackRange c x.launch st (stDst d + i * stEs d) (stEs d) true = (.ok [(pd, stEs d)], v) →
        ∃ y l, (x.one s c i).1 = .ok (y, l) ∧ y.mem.bytes pd (stEs d) = s.mem.bytes ps (stEs d) ∧
          ∀ a, a < pd ∨ pd + stEs d ≤ a → y.mem.read a = s.mem.read a) ∧
      (x.kind = 1 → let n := tyWidth (stFa d) / 8
        s.stackRange c x.launch st (stSrc d + i * n) n false = (.ok [(ps, n)], t) →
        t.stackRange c x.launch st (stDst d + i * n) n true = (.ok [(pd, n)], u) →
        ∃ y l, (x.one s c i).1 = .ok (y, l) ∧
          y.mem.readN pd n = reduceVal (stFa d) (stFb d) (s.mem.readN pd n) (s.mem.readN ps n) % 2 ^ (8 * n) ∧
          ∀ a, a < pd ∨ pd + n ≤ a → y.mem.read a = s.mem.read a) ∧
      (x.kind = 2 → scvtPair (stFa d) (stFb d) = true →
        let e := if stQ4 d then 2 else 1
        let na := if stFa d = 14 then 1 else e * (tyWidth (stFa d) / 8)
        let nb := if stFb d = 14 then 1 else e * (tyWidth (stFb d) / 8)
        let k := if stFa d = 14 then 1 else e
        s.stackRange c x.launch st (stSrc d + i * na) na false = (.ok [(ps, na)], t) →
        t.stackRange c x.launch st (stAux d + e * i / 32) (if stSc d then 1 else 0) false = (.ok (if stSc d then [(pj, 1)] else []), u) →
        u.stackRange c x.launch st (stDst d + i * nb) nb true = (.ok [(pd, nb)], v) →
        let ys := scvtElems d (if stSc d then some (s.mem.readN pj 1) else none)
          ((List.range k).map fun j => s.mem.readN (ps + j * (na / k)) (na / k))
        ∃ y l, (x.one s c i).1 = .ok (y, l) ∧
          (∀ (j z : Nat), ys[j]? = some z → let n := if stFb d = 14 then 1 else tyWidth (stFb d) / 8
            y.mem.readN (pd + j * n) n = z % 2 ^ (8 * n)) ∧
          ∀ a, a < pd ∨ pd + nb ≤ a → y.mem.read a = s.mem.read a)) ∧
    ∀ (d : List Byte) (scale : Option Nat), scvtPair (stFa d) (stFb d) = true → stRmc d < 5 → (∀ e, scale = some e → e < 256) →
      let fa := stFa d
      let fb := stFb d
      let rm := stRmc d
      let k : Int := match scale with | some e => (e : Int) - 127 | none => 0
      let special := if tyFloat fb then defaultNaN fb else 0
      (fa < 14 → fb < 14 → ∀ x, x < 2 ^ tyWidth fa → ∃ y z, scvtElems d scale [x] = [z] ∧ (scale = some 255 → z = special) ∧
        (scale ≠ some 255 → Converted fa fb rm (if tyWidth fb < tyWidth fa then -k else 0) x y ∧
          if tyWidth fa < tyWidth fb then Converted fb fb rm k y z else z = y)) ∧
      (fb = 14 → fa < 14 → ∀ x0 x1, x0 < 2 ^ tyWidth fa → x1 < 2 ^ tyWidth fa →
        let value := fun x => match elemQ fa x with | .fin n e => QVal.fin n (e - k) | v => v
        scvtElems d scale [x0, x1] = [if scale = some 255 then 0 else (q4Encode (value x0) (value x1)).1]) ∧
      (fa = 14 → ∀ b, b < 256 → ∃ z0 z1, scvtElems d scale [b] = [z0, z1] ∧
        ∀ q ∈ [((q4Decode b).1, z0), ((q4Decode b).2, z1)], (scale = some 255 → q.2 = special) ∧
          (scale ≠ some 255 → ∃ y, finiteCode fb y = true ∧ ratOf fb y = (q.1 : ℚ) / 64 ∧ (q.1 = 0 → y = 0) ∧
            Converted fb fb rm k y q.2))

/-- R82, R83, R196, R198, R267, R276: the oldest matrix command of a core, which meets no condition, has its effect on the
latches, on its tile or on the scratchpad, and leaves the queue. MMA and MMAS first exchange the latches, and each of their
rows is what the row of R196 gives for the old row, or for zeros. -/
def Obligations.MatrixExecutes : Prop :=
  ∀ (s : State) (c : Nat) (x : MatCmd) (xs : List MatCmd),
    let o := s.core c
    let k := x.ctl.toNat
    o.mqueue = x :: xs → o.matFailed = [] → o.spad.wf = true → s.stopping c x.launch (o.mqueue.map MatCmd.owed) = false →
    (x.kind = .wload → x.owns s c x.off (weightBytes (k % 16)) = true →
      ∃ t l, exec (.wloadExecute c) s = .next t ∧ t.mem = s.mem ∧ (t.core c).mqueue = xs ∧ (t.core c).latchA = o.latchA ∧
        (t.core c).latchS = some l ∧ l.fmt = k % 16 ∧ l.scf = k.testBit 4 ∧ l.wsoff = bits k 31 16 ∧
        (∀ j, j < weightBytes (k % 16) → l.bytes.read j = o.spad.read (x.off + j)) ∧ (t.core c).acc = o.acc ∧ (t.core c).spad = o.spad) ∧
    (∀ i sparse l, (x.kind = .mma ∧ i = .mmaExecute c ∧ sparse = false ∨ x.kind = .mmas ∧ i = .mmasExecute c ∧ sparse = true) →
      o.exchange.latchA = some l → mx16 l.fmt = mx16 (mmaSfmt k) → mmaRow0 k + mmaM k ≤ 128 → l.poison = false →
      x.owns s c x.off (if sparse then 16 * mmaM k + packedBytes o.spad x.off (mmaM k) (mmaSfmt k) (mxK l.fmt (mmaSfmt k)) else 128 * mmaM k) = true →
      ∃ t, exec i s = .next t ∧ t.mem = s.mem ∧ (t.core c).mqueue = xs ∧ (t.core c).latchA = some l ∧ (t.core c).latchS = none ∧
        (t.core c).spad = o.spad ∧
        ∀ row col, row < 128 → col < 128 → (t.core c).accAt x.tile row col =
          if mmaRow0 k ≤ row ∧ row < mmaRow0 k + mmaM k ∧ col < mxN l.fmt then
            (x.rowOf l o sparse (row - mmaRow0 k)
              (if mmaZ k then List.replicate (mxN l.fmt) 0 else (List.range (mxN l.fmt)).map (o.accAt x.tile row))).getD col 0
          else o.accAt x.tile row col) ∧
    (x.kind = .accrd → x.owns s c x.off (512 * rcCount k) = true →
      ∃ t, exec (.accrdExecute c) s = .next t ∧ t.mem = s.mem ∧ (t.core c).mqueue = xs ∧ (t.core c).acc = o.acc ∧
        (∀ j col, j < rcCount k → col < 128 →
          (t.core c).spad.readN (x.off + 512 * j + 4 * col) 4 = (o.accAt x.tile (rcRow0 k + j) col).toNat) ∧
        ∀ a, a < x.off ∨ x.off + 512 * rcCount k ≤ a → (t.core c).spad.read a = o.spad.read a) ∧
    (∀ i, (x.kind = .accwr ∧ i = .accwrExecute c ∧ x.owns s c x.off (512 * rcCount k) = true ∨ x.kind = .accz ∧ i = .acczExecute c) →
      rcRow0 k + rcCount k ≤ 128 →
      ∃ t, exec i s = .next t ∧ t.mem = s.mem ∧ (t.core c).mqueue = xs ∧ (t.core c).spad = o.spad ∧
        ∀ row col, row < 128 → col < 128 → (t.core c).accAt x.tile row col =
          if rcRow0 k ≤ row ∧ row < rcRow0 k + rcCount k then
            (if x.kind = .accz then 0 else BitVec.ofNat 32 (o.spad.readN (x.off + 512 * (row - rcRow0 k) + 4 * col) 4))
          else o.accAt x.tile row col)

/-- R85, R202, R277 to R284: the oldest Riddle command of a core. SORTLD loads keys, payloads and origins; SORT starts
at the first step or at the point of .resume, and is done at once at PHASE = NP; a step exchanges the pairs of its phase that
are out of order and names the next step; SORTST writes the tile in the order of R281.
That the origins are written last where regions overlap is log 141, a DESIGN CHOICE. -/
def Obligations.RiddleExecutes : Prop :=
  ∀ (s : State) (c : Nat) (x : SortCmd) (xs : List SortCmd),
    let o := s.core c
    let r := o.riddle
    let k := x.ctl.toNat
    let n := scRows k * scCols k
    o.rqueue = x :: xs → o.sortFailed = [] → o.spad.wf = true → s.sortHeld c = false →
    (x.kind = 0 → x.owns s c = true →
      (x.flags.getLsbD 0 = true → ∀ e, e < n → o.spad.readN (scOoff k + 2 * e) 2 < 2 ^ 14) →
      ∃ t, exec (.sortldExecute c) s = .next t ∧ t.mem = s.mem ∧ (t.core c).rqueue = xs ∧ (t.core c).spad = o.spad ∧
        let v := (t.core c).riddle
        v.rows = scRows k ∧ v.cols = scCols k ∧ v.fmt = scFmt k ∧ v.state = 1 ∧ v.phase = 0 ∧ v.step = 0 ∧ v.cells.length = n ∧
        ∀ e y, v.cells[e]? = some y → y.key.toNat = o.spad.readN (x.off + 4 * e) 4 % 2 ^ tyWidth (scFmt k) ∧
          y.payload.toNat = (if scP k then o.spad.readN (scPoff k + 4 * e) 4 else 0) ∧
          y.origin.toNat = if x.flags.getLsbD 0 then o.spad.readN (scOoff k + 2 * e) 2 else e) ∧
    (∀ p st, x.kind = 1 → r.state ≠ 0 → r.state ≠ 2 → r.validPoint p st = true →
      p = (if x.flags.getLsbD 2 then k % 16 else 0) → st = (if x.flags.getLsbD 2 then bits k 11 4 else 0) →
      ∃ t, exec (.sortStart c) s = .next t ∧ t.mem = s.mem ∧
        (t.core c).riddle = { r with state := if p = r.np then 4 else 2, phase := p, step := st, desc := x.flags.getLsbD 0,
                                     stable := x.flags.getLsbD 1 } ∧
        (t.core c).rqueue = if p = r.np then xs else x :: xs) ∧
    (r.state = 2 → ∃ t, exec (.sortStep c) s = .next t ∧ t.mem = s.mem ∧
      let v := (t.core c).riddle
      (v.state, v.phase, v.step) =
        (if r.step + 1 < r.phaseLen r.phase then (if r.phase < r.np then (2, r.phase, r.step + 1) else (4, r.np, 0))
         else if r.phase + 1 < r.np then (2, r.phase + 1, 0) else (4, r.np, 0)) ∧
      (t.core c).rqueue = (if v.state = 4 then xs else x :: xs) ∧ v.cells.length = r.cells.length ∧
      ∀ q y, r.cells[q]? = some y →
        v.cells[q]? = some (match r.partner r.phase r.step (q / r.cols) (q % r.cols) with
          | none => y
          | some (i, j, first) =>
            let z := r.cells.getD (i * r.cols + j) y
            if (if first then r.before z y else r.before y z) then z else y)) ∧
    (x.kind = 2 → r.state ≠ 0 → scRows k = r.rows → scCols k = r.cols → scFmt k = r.fmt → x.owns s c = true →
      ∃ t, exec (.sortstExecute c) s = .next t ∧ t.mem = s.mem ∧ (t.core c).rqueue = xs ∧ (t.core c).riddle = r ∧
        (∀ e, e < n → ((scRegions x.off k).drop 1).all (fun y => decide (y.1 + y.2 ≤ x.off ∨ x.off + 4 * n ≤ y.1)) = true →
          (t.core c).spad.readN (x.off + 4 * e) 4 = ((r.order (x.flags.getLsbD 0)).getD e ⟨0, 0, 0⟩).key.toNat % 2 ^ tyWidth r.fmt) ∧
        (∀ e, e < n → scO k = true →
          (t.core c).spad.readN (scOoff k + 2 * e) 2 = ((r.order (x.flags.getLsbD 0)).getD e ⟨0, 0, 0⟩).origin.toNat) ∧
        ∀ a, (scRegions x.off k).all (fun y => decide (a < y.1 ∨ y.1 + y.2 ≤ a)) = true → (t.core c).spad.read a = o.spad.read a)

/-- R182, R183, R241, R253 to R258, R309, R396, R407 to R411: ordered-add epochs, and the tiles of a launch. A closed
epoch is applied in the order of R182 and the warps that flush it go on; a packet reaches its mailbox. A walker passes a
DONE record over, puts a MIGRATING one on its retry list or stays at it when the list is full, and claims one that can run:
TAG is the launch's, DONE is 0, and the packet goes to the die of R256. A record that reads ABSENT, FAULTED or a reserved
code it lists, once in a launch: COUNT rises by 1 and returns the slot, and the entry is written when CAP has room; then
SKIP goes on, WAIT puts it on the retry list and STOP signals the stop. A retry pass takes up the list; DONE and the discard
of a tile write the state word, and WAIT puts the discarded tile on the retry list of its walker; WALKFAULT posts when COUNT
has grown. -/
def Obligations.TilesAndEpochs : Prop :=
  (∀ (s : State) (n : Nat) (l : Launch), s.launch? n = some l → s.epochClosed n l l.epochsDone = true → s.memPoison = [] →
    (∀ x ∈ l.contribs, s.onLostDie x.pa = false) →
    ∃ t k, exec (.orderedAddEpochApply n) s = .next t ∧ t.launch? n = some k ∧ k.epochsDone = l.epochsDone + 1 ∧
      k.contribs = l.contribs.filter (fun c => l.epochsDone < c.epoch) ∧
      (∃ cs : List Contrib, cs.Perm (l.contribs.filter fun c => c.epoch ≤ l.epochsDone) ∧ cs.Pairwise (fun a b => b.before a = false) ∧
        ∀ ty pa, s.mem.wf = true → regionOf pa = 0 →
          (∀ c ∈ cs, (c.pa = pa → c.ty = ty) ∧ (c.pa ≠ pa → c.pa + tyWidth c.ty / 8 ≤ pa ∨ pa + tyWidth ty / 8 ≤ c.pa)) →
          t.mem.readN pa (tyWidth ty / 8) = (cs.filter fun c => c.pa == pa).foldl
            (fun v c => memAdd ty v c.val.toNat % 2 ^ (8 * (tyWidth ty / 8))) (s.mem.readN pa (tyWidth ty / 8))) ∧
      ∀ c j e, (s.warpAt c j).launch = n → (s.warpAt c j).park = some (.oflush e) → e ≤ l.epochsDone →
        t.warpAt c j = (s.warpAt c j).wake ∧ (t.core c).l1 = []) ∧
  (∀ (s : State) (d : Nat) (m : Mail), (s.die d).incoming.find? (fun m => m.hops.isEmpty) = some m →
    ∃ t, exec (.mailboxPacketArrival d) s = .next t ∧ t.mem = s.mem ∧ (t.die d).incoming = (s.die d).incoming.erase m ∧
      (t.die d).mailbox = (s.die d).mailbox ++ [m] ∧
      t.warpAt (192 * d) 48 = if (s.warpAt (192 * d) 48).park = some .mbrecv then { s.warpAt (192 * d) 48 with park := none }
        else s.warpAt (192 * d) 48) ∧
  (∀ (s t : State) (d n : Nat) (l : Launch) (w : Walker) (pa : Nat), s.launch? n = some l → l.walks = true → s.dieLost d = false →
    AMap.find? l.walkers d = some w → w.waiting = none → w.ready = true → w.out = none → w.listing = none → w.stopKnown = false →
    l.walkStop = false → w.next < w.stop →
    s.engRange (192 * d) n (w.ptab + 64 * w.next) 64 false false = (.ok [(pa, 64)], t) → regionOf pa = 0 → s.memPoison = [] →
    let r := s.mem.bytes pa 64
    let sword := fieldN r 8 8
    let old := bits sword 47 16 = l.hdr.tag.toNat ∧ bit sword 48 = true
    (old → ∃ v k x, exec (.walkRecord d n) s = .next v ∧ v.mem = s.mem ∧ v.launch? n = some k ∧ k.pend = l.pend ∧
      AMap.find? k.walkers d = some x ∧ x.next = w.next + 1 ∧ x.claims = w.claims ∧ x.met = w.met ∧ x.retry = w.retry) ∧
    let full := 1024 ≤ w.retry.length
    let deferred := fun (x : Walker) => x.claims = w.claims ∧ x.met = w.met ∧
      x.next = (if full then w.next else w.next + 1) ∧ x.retry = w.retry ++ if full then [] else [w.next]
    (¬old → sword % 16 = 3 → ∃ v k x, exec (.walkRecord d n) s = .next v ∧ v.mem = s.mem ∧
      v.launch? n = some k ∧ k.pend = l.pend ∧ AMap.find? k.walkers d = some x ∧ deferred x) ∧
    (¬old → sword % 16 = 0 ∨ 4 ≤ sword % 16 →
      let fl := l.hdr.faultlist.toNat
      let listed := fun (z : State) => ∃ k x, exec (.walkRecord d n) s = .next z ∧ z.launch? n = some k ∧ k.pend = l.pend ∧
        w.next ∈ k.listed ∧ AMap.find? k.walkers d = some x ∧ x.listing = none ∧ k.walkStop = decide (l.hdr.policy ≠ 1 ∧ l.hdr.policy ≠ 2) ∧
        (l.hdr.policy = 2 → deferred x) ∧
        (l.hdr.policy ≠ 2 → x.claims = w.claims ∧ x.next = w.next + 1 ∧ w.next ∈ x.met) ∧
        (l.hdr.policy = 1 → x.retry = w.retry ∧ x.stopKnown = false) ∧
        (l.hdr.policy ≠ 1 → l.hdr.policy ≠ 2 → x.retry = [] ∧ x.stopKnown = true)
      (fl = 0 ∨ w.next ∈ l.listed → ∃ z, listed z ∧ z.mem = s.mem) ∧
      ∀ (u v : State) (cpa kpa : Nat), fl ≠ 0 → w.next ∉ l.listed → t.itemPa d n fl 2 = (.ok cpa, u) → regionOf cpa = 0 → s.mem.wf = true →
        let slot := s.mem.readN cpa 8
        let r := (u.writePhys cpa (leBytes 8 (slot + 1))).setLaunch n { l with listed := w.next :: l.listed }
        r.engRange (192 * d) n (fl + 8) 8 false false = (.ok [(kpa, 8)], v) → regionOf kpa = 0 →
        let cap := r.mem.readN kpa 8
        (cap ≤ slot → ∃ z, listed z ∧ z.mem.readN cpa 8 = (slot + 1) % 2 ^ 64 ∧ ∀ a, a < cpa ∨ cpa + 8 ≤ a → z.mem.read a = s.mem.read a) ∧
        ∀ (y : State) (epa : Nat), slot < cap → v.itemPa d n (fl + 64 + 16 * slot) 1 = (.ok epa, y) → regionOf epa = 0 →
          epa + 16 ≤ cpa ∨ cpa + 8 ≤ epa → ∃ z, listed z ∧ z.mem.readN cpa 8 = (slot + 1) % 2 ^ 64 ∧ z.mem.readN epa 8 = w.next % 2 ^ 64 ∧
            z.mem.readN (epa + 8) 8 = (2 ^ 16 * w.rank + 2 ^ 8 * bits sword 15 8 + sword % 16) % 2 ^ 64 ∧
            ∀ a, (a < cpa ∨ cpa + 8 ≤ a) ∧ (a < epa ∨ epa + 16 ≤ a) → z.mem.read a = s.mem.read a) ∧
    ∀ (u v : State) (spa cpa : Nat), ¬old → sword % 16 = 1 ∨ sword % 16 = 2 ∧ l.hdr.walkRo = false →
      t.itemPa d n (w.ptab + 64 * w.next + 8) 2 = (.ok spa, u) → regionOf spa = 0 → s.mem.wf = true →
      u.placeCopy (192 * d) l (fieldN r 16 8) = (some cpa, v) → s.dieLost (paDie cpa) = false →
      paDie cpa ∈ l.dies → l.hdr.walkD = 0 → (s.die (paDie cpa)).hasPlace (if paDie cpa = d then 0 else 2) (.walker d n) = true →
      ∃ z k x m, exec (.walkRecord d n) s = .next z ∧
        z.mem.readN spa 8 = sword % 2 ^ 16 + 2 ^ 16 * l.hdr.tag.toNat + 2 ^ 49 * (sword / 2 ^ 49) ∧
        (∀ a, a < spa ∨ spa + 8 ≤ a → z.mem.read a = s.mem.read a) ∧
        (z.die (paDie cpa)).incoming = (s.die (paDie cpa)).incoming ++ [m] ∧ m.launch = n ∧
        m.words.getD 0 0 = BitVec.ofNat 64 (fieldN r 0 8) ∧ m.words.getD 2 0 = l.hdr.entry ∧
        m.words.getD 3 0 = BitVec.ofNat 64 (fieldN r 16 8) ∧ m.words.getD 4 0 = BitVec.ofNat 64 w.next ∧ m.words.getD 5 0 = w.desc ∧
        z.launch? n = some k ∧ AMap.get 0 k.pend (paDie cpa) = AMap.get 0 l.pend (paDie cpa) + 1 ∧
        AMap.find? k.walkers d = some x ∧ x.next = w.next + 1 ∧ x.claims = w.next :: w.claims ∧ x.met = w.met) ∧
  (∀ (s : State) (d n : Nat) (l : Launch) (w : Walker), s.launch? n = some l → l.walks = true →
    AMap.find? l.walkers d = some w → w.ready = true → w.stopKnown = false → w.out = none → w.listing = none → w.stop ≤ w.next →
    w.pass = [] → w.retry ≠ [] →
    (∀ a, w.pausedAt = some a → a + 1000 ≤ s.time) →
    ∃ t k, exec (.walkerRetryPass d n) s = .next t ∧ t.mem = s.mem ∧ t.launch? n = some k ∧
      AMap.find? k.walkers d = some { w with pass := w.retry, retry := [], claimed := false, pausedAt := none }) ∧
  (∀ (s u : State) (d n i : Nat) (l : Launch) (pa : Nat), s.launch? n = some l → l.phase = .running → l.waiting = none →
    (l.dones.filter fun x => x.2 == d).head? = some (i, d) → s.itemPa d n (l.ptab i + 64 * i + 8) 2 = (.ok pa, u) →
    regionOf pa = 0 → s.memPoison = [] → s.mem.wf = true →
    ∃ t k, exec (.tileDone d n) s = .next t ∧ t.mem.readN pa 8 = s.mem.readN pa 8 ||| 2 ^ 48 ∧
      (∀ a, a < pa ∨ pa + 8 ≤ a → t.mem.read a = s.mem.read a) ∧ t.launch? n = some k ∧ k.dones = l.dones.erase (i, d) ∧
      AMap.get 0 k.pend d = AMap.get 0 l.pend d - 1) ∧
  (∀ (s u : State) (n c b i : Nat) (l : Launch) (x : Block) (rest : List (Nat × Nat)) (pa : Nat), s.launch? n = some l →
    l.walks = true → l.waiting = none → l.faulting = none → l.discards = (c, b) :: rest → AMap.find? (s.core c).blocks b = some x → x.tile = some i →
    l.hdr.faultlist = 0 → (s.core c).matFailed = [] → (s.core c).sortFailed = [] →
    let v := (s.setLaunch n { l with discards := rest, faulting := some ⟨i, dieOf c, none⟩ }).discardBlock c b
    let full := l.hdr.policy = 2 ∧ ∃ d y, l.rangeDie i = some d ∧ AMap.find? l.walkers d = some y ∧ y.stopKnown = false ∧
      1024 ≤ y.retry.length + y.pass.length
    v.itemPa v.stokerDie n (l.ptab i + 64 * i + 8) 2 = (.ok pa, u) → regionOf pa = 0 → s.memPoison = [] → s.mem.wf = true →
    ∃ t k, exec (.hwerrTileDiscard n) s = .next t ∧
      t.mem.readN pa 8 = 4 + 16 * (s.mem.readN pa 8 / 16 % 2 ^ 44) + 2 ^ 49 * (s.mem.readN pa 8 / 2 ^ 49) ∧
      (∀ a, a < pa ∨ pa + 8 ≤ a → t.mem.read a = s.mem.read a) ∧ AMap.find? (t.core c).blocks b = none ∧
      (∀ y ∈ (t.core c).warps, y.2.ofBlock b = false) ∧
      t.launch? n = some k ∧ k.discards = rest ∧ (full → k.faulting.isSome = true) ∧ (¬full → k.faulting = none) ∧ i ∈ k.listed ∧
      (∀ d y, l.rangeDie i = some d → AMap.find? l.walkers d = some y → ∃ z, AMap.find? k.walkers d = some z ∧ z.next = y.next ∧
        (full → z.retry = y.retry) ∧
        (¬full → z.retry = y.retry ++ if l.hdr.policy = 2 ∧ y.stopKnown = false then [i] else [])) ∧
      AMap.get 0 k.pend (dieOf c) = AMap.get 0 l.pend (dieOf c) - 1) ∧
  ∀ (s u : State) (n : Nat) (l : Launch) (q : Queue) (pa : Nat), s.launch? n = some l → l.hdr.kind = 0 →
    (l.hdr.policy = 1 ∨ l.hdr.policy = 2) → l.hdr.faultlist ≠ 0 →
    s.engRange (192 * s.stokerDie) n l.hdr.faultlist.toNat 8 false false = (.ok [(pa, 8)], u) → regionOf pa = 0 → s.memPoison = [] →
    l.faultsPosted < s.mem.readN pa 8 → (l.faultsPosted = 0 ∨ l.faultPostAt + 1000000 ≤ s.time) →
    AMap.find? s.queues l.queue = some q → (q.evw - q.evr).toNat ≠ q.evsize → (s.takesWrite (s.byLivePort q.eventPa)).1 = true →
    ∃ t k p, exec (.walkfault n) s = .next t ∧ t.launch? n = some k ∧
      k = { l with faultsPosted := s.mem.readN pa 8, faultPostAt := s.time } ∧
      AMap.find? t.queues l.queue = some p ∧ p.evw = q.evw + 32 ∧ t.msix = s.msix ++ [l.queue % 64]

/-- R324, R325, R328, R424 to R433: what the host writes to a queue, and what the Stoker does with hardware slots. A
doorbell sets the write offset and maps a queue with work to a free slot, or lets it wait; an event doorbell reports lost
events once an entry is free; RESTART acts on a queue in error once its started packets have completed; ABORT stops what has
started, and the queue is in error once nothing of it runs; aging counts the whole intervals of a waiting queue; a rotation takes slots from queues without work, keeps
those that nothing displaces, and maps a waiting one. -/
def Obligations.QueueRegisters : Prop :=
  ∀ (s : State) (n : Nat) (q : Queue), AMap.find? s.queues n = some q →
    (∀ x, (q.slot ≠ none ∨ q.state = 3 → ∃ t, exec (.doorbellWrite n x) s = .next t ∧ t.mem = s.mem ∧
        AMap.find? t.queues n = some { q with wr := x }) ∧
      (q.slot = none → q.state ≠ 3 → x ≠ q.ridx → s.freeHwSlots ≠ [] → ∃ t k, exec (.doorbellWrite n x) s = .next t ∧ k ∈ s.freeHwSlots ∧
        AMap.find? t.queues n = some { q with wr := x, slot := some k, state := 1, mappedAt := s.time, aged := 0 }) ∧
      (q.slot = none → q.state ≠ 3 → q.state ≠ 2 → x ≠ q.ridx → s.freeHwSlots = [] → ∃ t, exec (.doorbellWrite n x) s = .next t ∧
        AMap.find? t.queues n = some { q with wr := x, slot := none, state := 2, waitAt := s.time, aged := 0 })) ∧
    (∀ x, let frees := (q.evw - x).toNat + 32 ≤ (q.evw - q.evr).toNat
      (q.evlost = 0 ∨ ¬frees → ∃ t, exec (.eventReadOffsetWrite n x) s = .next t ∧ t.mem = s.mem ∧
        t.msix = s.msix ∧ AMap.find? t.queues n = some { q with evr := x }) ∧
      (q.evlost ≠ 0 → frees → ∃ t, exec (.eventReadOffsetWrite n x) s = .next t ∧
        ((s.takesWrite (s.byLivePort q.eventPa)).1 = true →
          t.msix = s.msix ++ [n % 64] ∧ AMap.find? t.queues n = some { q with evr := x, evw := q.evw + 32, evlost := 0 }) ∧
        ((s.takesWrite (s.byLivePort q.eventPa)).1 = false →
          t.msix = s.msix ∧ AMap.find? t.queues n = some ({ q with evr := x } : Queue).loseEvent))) ∧
    (∀ off x, ∃ t, exec (.doorbellRegisterWrite n off x) s = .next t ∧ t.mem = s.mem ∧
      AMap.find? t.queues n = some { q with newridx := if off = 24 then x.setWidth 32 else q.newridx,
                                            newnum := if off = 32 then x else q.newnum }) ∧
    (∃ t, exec (.restart n) s = .next t ∧ t.mem = s.mem ∧
      AMap.find? t.queues n = some { q with restart := if q.state = 3 then true else q.restart }) ∧
    (q.restart = true → q.state = 3 → q.abort = none →
      (q.started ≠ [] → exec (.restartApply n) s = .next s) ∧
      (q.started = [] → q.newridx.toNat % 4 = 0 → (q.wr - q.newridx).toNat ≤ q.size → ∃ t, exec (.restartApply n) s = .next t ∧
        AMap.find? t.queues n = some { q with ridx := q.newridx, doneNum := q.newnum - 1, doneSet := [], next := q.newnum.toNat,
                                              restart := false, slot := none, state := if q.newridx = q.wr then 0 else 2,
                                              waitAt := s.time, aged := 0, record := [] }) ∧
      (q.started = [] → (q.newridx.toNat % 4 ≠ 0 ∨ q.size < (q.wr - q.newridx).toNat) → ∃ t p, exec (.restartApply n) s = .next t ∧
        AMap.find? t.queues n = some p ∧ p.state = 3 ∧ p.restart = false ∧ p.ridx = q.ridx ∧ p.next = q.next)) ∧
    (q.abort = none → ∃ t p, exec (.abort n) s = .next t ∧ AMap.find? t.queues n = some p ∧ p.restart = false ∧ p.ridx = q.ridx ∧
      p.next = q.next ∧
      ((∀ x ∈ q.started, x.type ≠ 1 ∨ s.launch? x.launch = none) → p.state = 3 ∧ p.started = [] ∧ p.abort = none) ∧
      ∀ x l, x ∈ q.started → x.type = 1 → s.launch? x.launch = some l → l.phase ≠ .reserved → p.state = q.state ∧ x ∈ p.started ∧
        p.abort.isSome = true ∧ ∃ k, t.launch? x.launch = some k ∧ k.aborted = true) ∧
    (q.state = 2 → q.ageus ≠ 0 → ∃ t, exec (.queueAging n) s = .next t ∧ t.mem = s.mem ∧
      AMap.find? t.queues n = some { q with aged := (s.time - q.waitAt) / (1000 * q.ageus) }) ∧
    (keysRise s.queues = true → s.rotatedAt + 64000 ≤ s.time → ∃ t, exec .schedulingRotation s = .next t ∧ t.rotatedAt = s.time ∧
      (q.slot ≠ none → q.hasWork = true → s.rotatedAt < q.mappedAt → AMap.find? t.queues n = some (q.age s.time)) ∧
      (q.slot ≠ none → q.hasWork = false → q.state ≠ 3 →
        AMap.find? t.queues n = some { q with slot := none, state := 0, aged := 0 }) ∧
      (q.slot = none → q.hasWork = true → (∀ m p, AMap.find? s.queues m = some p → m = n ∨ p.slot ≠ none ∧ p.hasWork = true ∧
          s.rotatedAt < p.mappedAt) → s.freeHwSlots ≠ [] →
        ∃ k ∈ s.freeHwSlots, AMap.find? t.queues n = some { q with slot := some k, state := 1, mappedAt := s.time, aged := 0 }))

/-- R210, R215, R216, R324 to R327, R336, R362, R432: what the packets of a queue do. A packet that passes its checks
starts: RIDX and the next number move on behind it; those that only act complete in the same step, and the others when
what they wait for has happened. -/
def Obligations.Packets : Prop :=
  (∀ (s u v : State) (n : Nat) (q : Queue) (p : Pkt) (d : List Byte), s.nextPacket n = (some (q, p), u) → u.checkValues p = (.ok d, v) →
    let begun := fun (t : State) (r : Queue) => AMap.find? t.queues n = some r ∧
      r.ridx = q.ridx + BitVec.ofNat 32 (4 * pktLen p.word) ∧ r.next = q.next + 1
    let done := fun (t : State) => ∃ r, begun t r ∧ q.next ∉ r.started.map Started.num ∧
      (q.doneSet = [] → (q.doneNum + 1).toNat = q.next → r.doneNum = q.doneNum + 1)
    let waits := fun (t : State) => ∃ r x, begun t r ∧ r.started = q.started ++ [x] ∧ x.num = q.next ∧ x.type = p.type
    let busy := fun saved => s.launches.any fun x => x.2.asid == p.val 0 && (saved || x.2.phase != .saved)
    (p.type = 0 → ∃ t, exec (.nopPacket n) s = .next t ∧ done t ∧ t.launches = s.launches ∧ t.aspaces = s.aspaces ∧ t.flash = s.flash) ∧
    (p.type = 2 → ∃ (t : State) (r : Queue) (x : Started), exec (.inval n) s = .next t ∧ begun t r ∧ x.num = q.next ∧ x.type = 2 ∧
      r.started = (q.started ++ [x]).map (fun (y : Started) => if y.num = q.next then { y with unconfirmed := List.range 8 } else y) ∧
      (∀ c, (t.core c).tlb = (v.core c).tlb.filter fun e => !(e.asid == p.val 0 && decide (e.va < p.val 1 + p.val 2) && decide (p.val 1 < e.va + e.size))) ∧
      ∀ d, (t.die d).tlb = (v.die d).tlb.filter fun e => !(e.asid == p.val 0 && decide (e.va < p.val 1 + p.val 2) && decide (p.val 1 < e.va + e.size))) ∧
    (p.type = 3 → q.started = [] → p.val 0 < 2 ^ 46 → regionOf (p.val 0) = 0 → s.onLostDie (p.val 0) = false → s.mem.wf = true → pktEvent p.word = false →
      (p.val 0 + 8 ≤ q.status + 8 ∨ q.status + 16 ≤ p.val 0) →
      ∃ t, exec (.signal n) s = .next t ∧ done t ∧ t.mem.readN (p.val 0) 8 = p.val 1 % 2 ^ 64) ∧
    (p.type = 4 → ∃ t, exec (.waitv n) s = .next t ∧ waits t) ∧
    (p.type = 5 → p.val 0 / 2 ^ 32 = 1 →
      ∃ t r, exec (.queueCreate n) s = .next t ∧ done t ∧ AMap.find? t.queues (p.val 0 % 2 ^ 32) = some r ∧ r.ring = fieldN d 0 8 ∧
        r.size = fieldN d 8 4 ∧ r.prio = fieldN d 12 4 % 8 ∧ r.status = fieldN d 16 8 ∧ r.evring = fieldN d 24 8 ∧ r.evsize = fieldN d 32 4 ∧
        r.ageus = fieldN d 36 4 ∧ r.asid = fieldN d 40 8 % 65536 ∧ r.state = 0 ∧ r.slot = none ∧ r.started = [] ∧ r.ridx = 0 ∧
        (regionOf (p.val 1) = 0 → d = s.mem.bytes (p.val 1) 64)) ∧
    (∀ g, p.type = 5 → p.val 0 / 2 ^ 32 = 2 → p.val 0 % 2 ^ 32 ≠ n → q.started = [] → AMap.find? s.queues (p.val 0 % 2 ^ 32) = some g →
      (∀ x ∈ g.started, x.type ≠ 1 ∨ s.launch? x.launch = none) → ∃ t, exec (.queueDestroy n) s = .next t ∧ done t ∧
        AMap.find? t.queues (p.val 0 % 2 ^ 32) = none) ∧
    (p.type = 6 → q.started = [] → ∀ x, AMap.find? s.aspaces (p.val 0) = some x →
      ∃ t, exec (.genadv n) s = .next t ∧
        (busy false = false → done t ∧ AMap.find? t.aspaces (p.val 0) = some { x with gen := x.gen + 1 }) ∧
        (busy false = true → waits t ∧ t.aspaces = s.aspaces)) ∧
    (p.type = 8 → p.val 1 = 1 → ∃ t, exec (.aspaceCreate n) s = .next t ∧ done t ∧ AMap.find? t.aspaces (p.val 0) = some ⟨true, p.val 2,
        match AMap.find? s.aspaces (p.val 0) with | some x => x.gen | none => 0⟩) ∧
    (p.type = 8 → p.val 1 = 2 → q.started = [] → ∀ x, AMap.find? s.aspaces (p.val 0) = some x →
      ∃ t, exec (.aspaceSetRoot n) s = .next t ∧
        (busy true = false → done t ∧ AMap.find? t.aspaces (p.val 0) = some { x with root := p.val 2 } ∧
          (∀ c, ∀ e ∈ (t.core c).tlb, e.asid ≠ p.val 0) ∧ ∀ d, ∀ e ∈ (t.die d).tlb, e.asid ≠ p.val 0) ∧
        (busy true = true → waits t ∧ t.aspaces = s.aspaces)) ∧
    (p.type = 8 → p.val 1 = 3 → q.started = [] → ∀ x, AMap.find? s.aspaces (p.val 0) = some x →
      ∃ t, exec (.aspaceDestroy n) s = .next t ∧
        (busy true = false → done t ∧ AMap.find? t.aspaces (p.val 0) = some { x with live := false, gen := x.gen + 1 }) ∧
        (busy true = true → waits t ∧ t.aspaces = s.aspaces)) ∧
    (p.type = 9 → ∃ t, exec (.window n) s = .next t ∧ done t ∧ t.window0 = (if p.val 0 = 0 then p.val 1 else s.window0) ∧
      t.window1 = if p.val 0 = 1 then p.val 1 else s.window1)) ∧
  ∀ (s : State) (n : Nat) (q : Queue), AMap.find? s.queues n = some q →
    (∀ x dies, q.started.find? (fun x => x.type == 2) = some x →
      let left := x.unconfirmed.filter fun d => !dies.contains d && s.dieLive d
      (left ≠ [] → exec (.invalidationComplete ⟨n, dies⟩) s = .next (s.setQueue n (q.setUnconfirmed x.num left))) ∧
      (left = [] → ∃ t r, exec (.invalidationComplete ⟨n, dies⟩) s = .next t ∧
      AMap.find? t.queues n = some r ∧ x.num ∉ r.started.map Started.num ∧
      ∀ c k va l, (s.warpAt c k).park = some (.xlate va) → s.launch? (s.warpAt c k).launch = some l →
        (l.asid = x.val 0 → x.val 1 ≤ va.toNat → va.toNat < x.val 1 + x.val 2 →
          (t.warpAt c k).park = none ∧ (t.warpAt c k).pc = (s.warpAt c k).pc) ∧
        (l.asid ≠ x.val 0 → t.warpAt c k = s.warpAt c k))) ∧
    (∀ x xs, q.started.filter (fun x => x.type == 4) = x :: xs → regionOf (x.val 0) = 0 → s.onLostDie (x.val 0) = false →
      x.val 1 ≤ s.mem.readN (x.val 0) 8 →
      ∃ t r, exec (.waitvSatisfied n) s = .next t ∧ AMap.find? t.queues n = some r ∧ x.num ∉ r.started.map Started.num) ∧
    ((∀ x ∈ q.started, x.type = 4 → regionOf (x.val 0) = 0 ∧ s.mem.readN (x.val 0) 8 < x.val 1) →
      exec (.waitvSatisfied n) s = .next s)

/-- R338, R339, R343, R344, R441: an XFER starts, and sends its bytes when every earlier packet of its queue has completed,
in units of 256 B over the live ports in their order; it is complete when they have been performed at the other module, none
of them on a lost port. Bytes from another module are written where the space lets them. A staged image is kept when it
verifies; an activation takes over one that verifies and whose table version fits; the Stokers then exchange their roles.
That an inbound write which the space does not let in is dropped is log 32, DEDUCED; that Activate completes at once, and
changes nothing when the image or the standby does not fit, is log 128, a DESIGN CHOICE. -/
def Obligations.TransfersAndFirmware : Prop :=
  (∀ (s u v : State) (n : Nat) (q : Queue) (p : Pkt) (d : List Byte), s.nextPacket n = (some (q, p), u) → u.checkValues p = (.ok d, v) →
    let begun := fun (t : State) (r : Queue) => AMap.find? t.queues n = some r ∧
      r.ridx = q.ridx + BitVec.ofNat 32 (4 * pktLen p.word) ∧ r.next = q.next + 1
    (∀ pa, p.type = 7 → q.started = [] → regionOf q.status ≠ 0 → p.val 2 % 65536 + p.val 4 ≤ 65536 →
      s.spacePa q.asid (p.val 2) false = some pa → (s.die (paDie pa)).isolated = false → paExists pa = true → s.memPoison = [] →
      s.livePorts ≠ [] →
      ∃ t r x, exec (.xfer n) s = .next t ∧ t.mem = s.mem ∧ begun t r ∧ r.started = [x] ∧ x.num = q.next ∧ x.sent = true ∧
        t.eslynOut = s.eslynOut ++ (List.range (p.val 4 / 256)).map fun j => ⟨p.val 0, p.val 1, BitVec.ofNat 64 (p.val 3 + 256 * j),
          s.mem.bytes (pa + 256 * j) 256, s.livePorts.getD (j % s.livePorts.length) 0, n, q.next⟩) ∧
    (p.type = 10 → p.val 0 % 16 = 1 → ∃ t r x, exec (.firmwareStage n) s = .next t ∧ begun t r ∧ r.started = q.started ++ [x] ∧
      x.num = q.next ∧ ∀ k, t.bank k = if k = bits (p.val 0) 11 8 then { s.bank k with staged := none } else s.bank k) ∧
    (p.type = 10 → p.val 0 % 16 = 2 → ∃ t r, exec (.firmwareActivate n) s = .next t ∧ begun t r ∧ q.next ∉ r.started.map Started.num ∧
      (bits (p.val 0) 11 8 ≠ 1 → t.flash = s.flash ∧ ∀ image, (s.bank (bits (p.val 0) 11 8)).staged = some image →
        AMap.find? t.activateDue (bits (p.val 0) 11 8) = some image) ∧
      ∀ image, bits (p.val 0) 11 8 = 1 → (s.bank 1).staged = some image →
        let ok := s.standbyLive && s.dieLive s.standbyDie && Config.verifies image &&
          (s.verActive == Config.tableVersion image || s.verActive + 1 == Config.tableVersion image)
        t.bank 1 = (if ok then ⟨image, none⟩ else s.bank 1) ∧ t.standbyReady = (s.standbyReady || ok) ∧
          t.verStandby = if ok then Config.tableVersion image else s.verStandby)) ∧
  (∀ (s : State) (n : Nat) (q : Queue) (x : Started), AMap.find? s.queues n = some q →
    (q.started.find? (fun x => x.type == 7 && x.sent) = some x →
      (∃ u ∈ s.eslynOut, u.queue = n ∧ u.num = x.num ∧ u.port ∈ s.eslynLost) → exec (.xferComplete n) s = .next s) ∧
    (q.started.find? (fun x => x.type == 7 && x.sent) = some x →
      (∀ u ∈ s.eslynOut, u.queue = n → u.num = x.num → u.port ∉ s.eslynLost) → ∃ t r, exec (.xferComplete n) s = .next t ∧
      AMap.find? t.queues n = some r ∧ x.num ∉ r.started.map Started.num ∧ r.ridx = q.ridx ∧ r.next = q.next) ∧
    (q.started.find? (fun x => x.type == 10 && x.val 0 % 16 == 1) = some x → regionOf (x.val 1) = 0 →
      let image := s.mem.bytes (x.val 1) (x.val 2)
      ∃ t r, exec (.firmwareStageComplete n) s = .next t ∧ AMap.find? t.queues n = some r ∧ x.num ∉ r.started.map Started.num ∧
        ∀ k, t.bank k = if k = bits (x.val 0) 11 8 then { s.bank k with staged := if Config.verifies image then some image else none }
          else s.bank k)) ∧
  (∀ (s : State) (asid : Nat) (va : Word) (data : List Byte), data ≠ [] → va.toNat % 65536 + data.length ≤ 65536 →
    (s.spacePa asid va.toNat true = none → exec (.eslynInboundWrite asid va data) s = .next s) ∧
    ∀ pa, s.spacePa asid va.toNat true = some pa → s.onLostDie pa = false → s.mem.wf = true → ∃ t, exec (.eslynInboundWrite asid va data) s = .next t ∧
      t.mem.bytes pa data.length = data ∧ ∀ a, a < pa ∨ pa + data.length ≤ a → t.mem.read a = s.mem.read a) ∧
  ∀ s : State, s.standbyReady = true → s.standbyLive = true → s.dieLive s.standbyDie = true → (∀ x ∈ s.launches, x.2.phase ≠ .reserved) →
    exec .stokerRoleExchange s = .next { s with stokerB := !s.stokerB, standbyReady := false, verActive := s.verStandby }

/-- R182, R242, R329 to R333, R372, R427, R428, R432: the stages of a LAUNCH. A rectangle that fits is reserved with its
channels armed; the commit, which a queue in error holds back, fixes a tick at least four away and the code that fetch sees;
each die starts at the tick; an idle launch completes; the third timeout of Reserve ends it; a stopping launch whose dies
have acknowledged is saved, and is committed anew when its dies are free; one that a trap or an ABORT stops first stops its
engines, and leaves the machine once its dies have acknowledged, after a trap with its queue in error. That a resumed warp
stands in its old slot is log 30, and that an ABORT takes precedence over a recorded trap log 123, both DEDUCED. -/
def Obligations.LaunchStages : Prop :=
  (∀ (s u v t : State) (n : Nat) (q : Queue) (p : Pkt) (h : Header) (b : List Byte) (r : Nat) (os : List Nat),
    s.nextPacket n = (some (q, p), u) → p.type = 1 → (p.field 2).map (Field.val · 0) = some r →
    u.launchValues q p = (.ok (h, b), v) → v.spaceHeld q.asid = false →
    (v.launchOf n q p h b).originsFor r = .ok os → v.reserveAny s.nextLaunch (v.launchOf n q p h b) r os = .ok t →
    ∃ z l, exec (.launch n) s = .next z ∧ z.mem = s.mem ∧ z.nextLaunch = s.nextLaunch + 1 ∧ z.launch? s.nextLaunch = some l ∧
      l.phase = .reserved ∧ l.queue = n ∧ l.num = q.next ∧ l.asid = q.asid ∧ l.hdr = h ∧ l.eng = rectEng r ∧
      (∃ o ∈ origins r, o ∈ os ∧ l.dies = shapeDies r o) ∧ (∀ d ∈ l.dies, s.dieLive d = true) ∧
      ∀ d ∈ l.dies, ∀ ch < 16, (l.chim.getD ch 0).toNat % 65536 ≠ 0 → AMap.find? (z.die d).chimney ch =
        some ⟨s.nextLaunch, (l.chim.getD ch 0).toNat % 65536, (l.chim.getD ch 0).getLsbD 16, 0, 0⟩) ∧
  (∀ (s u v : State) (n : Nat) (q : Queue) (p : Pkt) (b : BadVal), s.nextPacket n = (some (q, p), u) → p.type = 1 →
    u.launchValues q p = (.error b, v) → ∃ t r, exec (.launch n) s = .next t ∧ t.launches = s.launches ∧
      AMap.find? t.queues n = some r ∧ r.state = 3 ∧ r.ridx = q.ridx ∧ r.next = q.next ∧ r.started = q.started) ∧
  ∀ (s : State) (n : Nat) (l : Launch), s.launch? n = some l →
    (∀ q, l.phase = .reserved → AMap.find? s.queues l.queue = some q → q.state = 3 → exec (.launchCommit n) s = .next s) ∧
    (∀ q, l.phase = .reserved → AMap.find? s.queues l.queue = some q → q.state ≠ 3 → ∃ t k r x, exec (.launchCommit n) s = .next t ∧
      t.launch? n = some k ∧ k.phase = .committed ∧ k.order = s.nextOrder ∧ s.ticks + 4 ≤ k.tick ∧ k.code = t.mem ∧ k.dies = l.dies ∧
      t.nextOrder = s.nextOrder + 1 ∧ AMap.find? t.queues l.queue = some r ∧
      r.ridx = q.ridx + BitVec.ofNat 32 (4 * pktLen l.word.toNat) ∧ r.started = q.started ++ [x] ∧ x.num = q.next ∧ x.launch = n) ∧
    (∀ d, s.mayStart d l = true → (l.resumed = false → l.hdr.kind = 2 → l.started = [] → ∃ t, s.writeFixup d n l = .ok t) →
      ∃ t k, exec (.gangStart n d) s = .next t ∧ t.launch? n = some k ∧ k.phase = .running ∧ k.started = d :: l.started ∧
        k.trap = none ∧ (l.resumed = true → k.walkers = l.walkers) ∧ (l.resumed = false → l.hdr.kind = 0 → ∃ w, AMap.find? k.walkers d = some w ∧ w.rank = l.dies.idxOf d ∧ w.ready = false ∧
          w.claims = [] ∧ w.retry = [] ∧ w.met = [])) ∧
    (∀ q, l.phase = .running → s.launchIdle n l = true → l.hdr.resume = 0 → AMap.find? s.queues l.queue = some q →
      ∃ t r, exec (.launchComplete n) s = .next t ∧ t.launch? n = none ∧ AMap.find? t.queues l.queue = some r ∧
        l.num ∉ r.started.map Started.num ∧ r.state = q.state) ∧
    (∀ d ∈ l.dies, l.phase = .reserved → l.reservedAt + 1000000 ≤ s.time →
      (l.retries < 2 → ∃ t, exec (.reserveTimeout n d) s = .next t ∧ t.mem = s.mem ∧
        t.launch? n = some { l with retries := l.retries + 1, reservedAt := s.time }) ∧
      ∀ q, 2 ≤ l.retries → AMap.find? s.queues l.queue = some q → ∃ t r, exec (.reserveTimeout n d) s = .next t ∧
        t.launch? n = none ∧ AMap.find? t.queues l.queue = some r ∧ r.state = 3) ∧
    (l.phase = .stopping → l.trap = none → l.aborted = false → s.halted n l true = true → ∃ t k, exec (.preemptSave n) s = .next t ∧ t.launch? n = some k ∧
      k.phase = .saved ∧ k.sets = [] ∧ k.tasks = l.tasks ∧
      (∀ c, (s.core c).has n = true → ∃ x ∈ k.savedCores, x.core = c) ∧
      ∀ c j, (t.warpAt c j).launch = n → (t.warpAt c j).kind = .hearth ∨ (t.warpAt c j).status = .free) ∧
    (l.phase = .saved → l.trap = none → l.aborted = false → l.asid ∉ s.genDue → s.diesHold n { l with chim := [] } = true →
      s.unitsFit l = true →
      (∀ x ∈ l.savedChimney, ∀ c ∈ x.2, AMap.find? (s.die x.1).chimney c.1 = none) → l.savedCores.all (s.coreFits n l) = true →
      ∃ t k, exec (.launchResume n) s = .next t ∧ t.launch? n = some k ∧ k.phase = .committed ∧ k.resumed = true ∧ k.started = [] ∧
        s.ticks + 4 ≤ k.tick ∧ k.savedCores = [] ∧ k.walkers = l.walkers ∧ k.gen = (match AMap.find? s.aspaces l.asid with | some a => a.gen | none => l.gen) ∧
        ∀ x j w, l.savedCores = [x] → keysRise x.content.warps = true → AMap.find? x.content.warps j = some w → w.park = none →
          t.warpAt x.core j = w) ∧
    (l.trap.isSome = true ∨ l.aborted = true → l.phase = .committed ∨ l.phase = .running →
      ∃ t y, exec (.launchTrapStop n) s = .next t ∧ t.mem = s.mem ∧ t.cores = s.cores ∧
        t.launch? n = some { l with phase := .stopping, ready := y } ∧ (keysRise s.launches = true → y = l.ready)) ∧
    (l.trap.isSome = true ∨ l.aborted = true → l.phase = .stopping → s.halted n l false = false → exec (.launchTrapStop n) s = .next s) ∧
    ∀ q, l.trap.isSome = true ∨ l.aborted = true → l.phase = .stopping ∧ s.halted n l false = true ∨ l.phase = .saved ∧ l.waiting = none →
      (l.hdr.kind ≠ 0 ∨ l.hdr.resume = 0) → AMap.find? s.queues l.queue = some q → (∀ a, q.abort = some a → a.remove = false) →
      ∃ t r, exec (.launchTrapStop n) s = .next t ∧ t.launch? n = none ∧
        AMap.find? t.queues l.queue = some r ∧ l.num ∉ r.started.map Started.num ∧
        (∀ c j, (t.warpAt c j).launch = n → (t.warpAt c j).kind = .hearth ∨ (t.warpAt c j).status = .free) ∧
        (∀ x, l.aborted = false → l.trap = some x → r.state = 3 ∧
          (q.state ≠ 3 → regionOf (q.status + 32) ≠ 0 → s.portAnswers (q.status + 32) = true → (q.status + 32, x.bytes) ∈ t.busWrites)) ∧
        (l.aborted = true → q.abort = none → r.state = q.state) ∧
        (l.aborted = true → q.abort.isSome = true → (∀ y ∈ q.started, y.num = l.num) → q.started ≠ [] → r.state = 3 ∧ r.abort = none)

/-- R5, R318, R321, R323, R329, R345 to R347, R434, R435: ticks, frames, lanes, clocks and sensors. A tick takes up a new
core clock, wakes the warps of module-level phases that are complete, and starts no die later than tick K + 4, and TIME
stands at the nearer of the next tick and the next frame until that has begun; a frame swaps failed lanes and moves what
waits at the links along its way, never over a lost link; the 16th CRC failure of a lane in a frame fails it; a lost
direction withdraws or stops the launches whose schedule drives its link; the clock moves by 50 MHz between 350 and 700, as
the measured power asks. Refresh and flash wear change nothing that software sees. How the counts of CRC failures and of
replays run is log 45, and that the module's power is the sum of the dies' samples log 136, both DEDUCED; the slots that what waits gets are log 108 and that time moves freely up to the next tick or
frame log 8, both DESIGN CHOICE. -/
def Obligations.ClocksAndLinks : Prop :=
  ∀ s : State, keysRise s.launches = true →
    (128 * (s.ticks + 1) ≤ s.time → (∀ n l d, s.launch? n = some l → s.ticks + 1 < l.tick + 4 ∨ s.mayStart d l = false) →
      ∃ t, exec .chimneyTick s = .next t ∧ t.mem = s.mem ∧ t.ticks = s.ticks + 1 ∧ t.launches = s.launches ∧
      t.mhz = s.mhzNext.getD s.mhz ∧ t.mhzNext = none ∧
      ∀ c k ch ph x, c < 1536 → (s.warpAt c k).park = some (.chim ch true ph) → AMap.find? (s.die (dieOf c)).chimney ch = some x →
        (x.phase ≤ ph → t.warpAt c k = s.warpAt c k) ∧
        (ph < x.phase → t.warpAt c k = (s.warpAt c k).wake ∧ (t.core c).l1 = [])) ∧
    (∀ n l d, 128 * (s.ticks + 1) ≤ s.time → s.launches = [(n, l)] → l.hdr.kind = 0 → l.resumed = false →
      l.tick + 4 ≤ s.ticks + 1 → s.mayStart d l = true →
      ∃ t k, exec .chimneyTick s = .next t ∧ t.launch? n = some k ∧ d ∈ k.started ∧ k.phase = .running ∧
        AMap.find? k.walkers d = some (Walker.fresh (l.rank d))) ∧
    (s.time < 128 * (s.ticks + 1) → exec .chimneyTick s = .next s) ∧
    (s.time ≤ 128 * (s.ticks + 1) → s.time ≤ 512 * (s.frames + 1) →
      s.time ≤ s.pass.time ∧ s.pass.time ≤ 128 * (s.ticks + 1) ∧ s.pass.time ≤ 512 * (s.frames + 1)) ∧
    (512 * (s.frames + 1) ≤ s.time → ∃ t, exec .flueFrame s = .next t ∧ t.mem = s.mem ∧ t.frames = s.frames + 1 ∧
      (∀ k, (t.dir k).failed = (s.dir k).failed ++ (s.dir k).due ∧ (t.dir k).due = [] ∧ (t.dir k).errors = [] ∧
        (t.dir k).replays = (s.dir k).replays ∧ (t.dir k).lost = (s.dir k).lost ∧ (t.dir k).slots = (s.dir k).slots) ∧
      (keysRise s.dies = true → ∀ (d i : Nat) (m : Mail), (s.die d).incoming[i]? = some m → ∃ x : Mail, (t.die d).incoming[i]? = some x ∧
        x = { m with hops := x.hops, fwd := x.fwd } ∧ x.hops <:+ m.hops ∧ x.fwd = (if x.hops = m.hops then m.fwd else none) ∧ (∀ k, m.hops.head? = some k → s.linkUp (k / 2) = false → x = m)) ∧
      (∀ (i : Nat) (c : Child), s.travel[i]? = some c → ∃ x : Child, t.travel[i]? = some x ∧ x = { c with hops := x.hops } ∧ x.hops <:+ c.hops ∧
        ∀ k, c.hops.head? = some k → s.linkUp (k / 2) = false → x = c) ∧
      ∀ (k : Nat) (c : Child), k < 20 → s.linkUp (k / 2) = true → (∀ x ∈ s.dies, x.2.incoming = []) → s.travel = [c] → c.hops = [k] →
        t.travel = [if Config.controlFlits (s.freeCtr + (s.dir k).slots.length) < (s.dir k).openSlots (s.frames + 1) s.freeCtr
          then { c with hops := [] } else c]) ∧
    (s.time < 512 * (s.frames + 1) → exec .flueFrame s = .next s) ∧
    (∀ k lane again passes, k < 20 → let d := s.dir k; let e := AMap.get 0 d.errors lane;
      let row := if again then d.replays + 1 else d.replays;
      (d.lost = true ∨ lane ∉ d.carrying → exec (.flitReplay k ⟨lane, again, passes⟩) s = .next s) ∧
      (d.lost = false → lane ∈ d.carrying → ∃ t, exec (.flitReplay k ⟨lane, again, passes⟩) s = .next t ∧ t.mem = s.mem ∧
        AMap.get 0 (t.dir k).errors lane = e + 1 ∧ (t.dir k).replays = (if passes ∧ row < 8 then 0 else row) ∧
        (t.dir k).failed = d.failed ∧ (t.dir k).due = if 15 ≤ e ∧ lane ∉ d.due then d.due ++ [lane] else d.due)) ∧
    (∀ k lanes, k < 20 → (s.dir k).lost = false → let d := s.dir k;
      ((∃ a, d.calibrated = some a ∧ s.time < a + 10000000) → exec (.flueLaneCalibration k lanes) s = .next s) ∧
      ((∀ a, d.calibrated = some a → a + 10000000 ≤ s.time) → ∃ t, exec (.flueLaneCalibration k lanes) s = .next t ∧
        t.mem = s.mem ∧ (t.dir k).calibrated = some s.time ∧ (t.dir k).failed = d.failed ∧ (t.dir k).slots = d.slots ∧
        ∀ x, x ∈ (t.dir k).due ↔ x ∈ d.due ∨ x ∈ lanes ∧ x < 34 ∧ x ∉ d.failed)) ∧
    (∀ k, k < 20 → (s.dir k).lost = false → let n := (s.dir k).failed.length + (s.dir k).due.length;
      (n < 3 → (s.dir k).replays < 8 → exec (.flueLinkLoss k) s = .next s) ∧
      (3 ≤ n ∨ 8 ≤ (s.dir k).replays →
        ∃ t, exec (.flueLinkLoss k) s = .next t ∧ (t.dir k).lost = true ∧
          ∀ m l, s.launch? m = some l →
            ((∀ x ∈ l.links, x / 2 ≠ k / 2) → ∃ y, t.launch? m = some { l with ready := y }) ∧
            ((∃ x ∈ l.links, x / 2 = k / 2) → (l.phase = .reserved → t.launch? m = none) ∧
              (l.phase ≠ .reserved → l.trap = none → ∃ r y, t.launch? m = some { l with trap := some r, trapAt := s.clock, ready := y } ∧
                r.cause.toNat % 32 = gLINK)))) ∧
    ((s.die 0).telemetry.time.toNat + 1000000 ≤ s.time → ∃ t, exec .telemetrySampling s = .next t ∧ t.mem = s.mem ∧
      t.power = (List.range 8).foldl (fun n d => n + (t.die d).telemetry.power.toNat) 0 ∧
      t.lowSince = (if 100 * t.power < 95 * s.limit then some (s.lowSince.getD s.time) else none) ∧
      ∀ d < 8, (t.die d).telemetry.time = BitVec.ofNat 64 s.time ∧ (t.die d).telemetry.mhz = BitVec.ofNat 32 s.mhz ∧
        (t.die d).telemetry.reject = (s.die d).reject ∧ (t.die d).mailbox = (s.die d).mailbox ∧ (t.die d).chimney = (s.die d).chimney) ∧
    (let f := s.mhzNext.getD s.mhz
      let low := ∃ a, s.lowSince = some a ∧ a + 10000000 ≤ s.time;
      (s.limit < s.power → s.stepAt + 1000000 ≤ s.time → 400 ≤ f →
        exec .powerStepDown s = .next { s with mhzNext := some (f - 50), stepAt := s.time }) ∧
      (s.power ≤ s.limit ∨ s.time < s.stepAt + 1000000 ∨ f < 400 → exec .powerStepDown s = .next s) ∧
      (low → s.upAt + 10000000 ≤ s.time → f ≤ 650 → exec .powerStepUp s = .next { s with mhzNext := some (f + 50), upAt := s.time }) ∧
      (¬low ∨ s.time < s.upAt + 10000000 ∨ 650 < f → exec .powerStepUp s = .next s)) ∧
    (∀ d g c, exec (.hbmRefresh d g c) s = .next s) ∧ exec .flashWearManagement s = .next s

/-- R217, R335, R336, R342, R347, R392 to R395, R441: errors in the module's storage, requests at the memory side, and its
ports. A line or a register that cannot be corrected is poisoned; a line that already holds poison in the die cache is
written back; a clean copy is dropped; an error in a core's tables or in a mailbox stops the launches there, and one of the tag table, the
Kindling queue or the mailbox also makes the core fail. A request under the
space's generation is performed and one under another is rejected and counted. The host reads and writes through its
windows, and its atomics act as one; BAR2 shows the telemetry; an answer reports what boot has measured; a lost Eslyn port
stays lost and what was in flight on it goes over a live one. The write-back of a poisoned line at its scrub is log 111, a
DESIGN CHOICE; the launches that an error in a mailbox stops are log 47, and the dropping of clean copies log 105, both
DEDUCED. -/
def Obligations.MemoryAndPorts : Prop :=
  ∀ s : State,
    let posts := fun (t : State) (b : List Byte) => ∀ q, AMap.find? s.queues 0 = some q → (q.evw - q.evr).toNat ≠ q.evsize →
      regionOf q.eventPa = 0 → s.onLostDie q.eventPa = false → q.eventPa + 32 ≤ q.status + 24 ∨ q.status + 32 ≤ q.eventPa → s.mem.wf = true →
      t.mem.bytes q.eventPa 32 = b ∧ t.msix = s.msix ++ [0]
    let coreStops := fun (t : State) c => keysRise s.launches = true → ∀ m l, s.launch? m = some l →
      l.phase ≠ .reserved → l.trap = none → (s.core c).has m = true →
        ∃ r, t.launch? m = some { l with trap := some r, trapAt := s.clock } ∧ r.cause.toNat % 32 = gHWERR ∧ r.d2 = 0x20000000
    (∀ pa, pa < 2 ^ 44 → paExists pa = true →
      (pa / 64 ∉ s.dirtyPoison → (∃ t, exec (.patrolScrub pa true) s = .next t ∧ pa / 64 ∈ t.memPoison ∧
          posts t (memErrBytes 1 0 s.time (64 * (pa / 64)))) ∧ exec (.patrolScrub pa false) s = .next s) ∧
      (pa / 64 ∈ s.dirtyPoison → ∀ bad, ∃ t, exec (.patrolScrub pa bad) s = .next t ∧ pa / 64 ∉ t.dirtyPoison ∧
          t.memPoison = s.memPoison ∧ posts t (memErrBytes 2 0 s.time (64 * (pa / 64))))) ∧
    (∀ asid gen pa (x : Aspace), AMap.find? s.aspaces asid = some x →
      (∀ b, s.onLostDie pa = true → exec (.memorySideRequest asid gen pa b) s = .next s) ∧
      (s.onLostDie pa = false → gen % 65536 = x.gen.toNat → exec (.memorySideRequest asid gen pa none) s = .next s ∧
        ∀ b, regionOf pa = 0 → s.mem.wf = true → ∃ t, exec (.memorySideRequest asid gen pa (some b)) s = .next t ∧
          t.mem.bytes pa b.length = b ∧ ∀ a, a < pa ∨ pa + b.length ≤ a → t.mem.read a = s.mem.read a) ∧
      (∀ b, s.onLostDie pa = false → gen % 65536 ≠ x.gen.toNat → ∃ t, exec (.memorySideRequest asid gen pa b) s = .next t ∧
        let r := if regionOf pa = 0 then paDie pa else if bit (pa / 2 ^ 43) 0 then 7 else 0
        (t.die r).reject = (s.die r).reject + 1 ∧
        ((∃ d ∈ s.dies, ∃ a, AMap.find? d.2.rejectAt asid = some a ∧ d.1 ≠ r ∧ s.time < a + 1000000) → t.mem = s.mem))) ∧
    (∀ p, (∀ pa, p = .dirtyLine pa → s.dirtyPoison.length < 2 ^ 20) → ∃ t, exec (.uncorrectableError p) s = .next t ∧ t.mem = s.mem ∧
      match p with
      | .memory pa => pa < 2 ^ 44 → paExists pa = true → pa / 64 ∈ t.memPoison ∧ t.dirtyPoison = s.dirtyPoison
      | .dirtyLine pa => pa < 2 ^ 44 → paExists pa = true → pa / 64 ∈ t.memPoison ∧ pa / 64 ∈ t.dirtyPoison
      | .cleanCopy c pa => (∀ x ∈ (t.core c).l1, x.line ≠ pa / 256) ∧
          (∀ e ∈ (t.core c).tlb ++ (t.die (dieOf c)).tlb, pa < e.pa ∨ e.pa + e.size ≤ pa) ∧
          (t.core c).spad = (s.core c).spad ∧ t.memPoison = s.memPoison
      | .scratchpad c off => off < 2 ^ 20 → off / 64 ∈ (t.core c).spadPoison ∧ (t.core c).spad = (s.core c).spad
      | .vreg c k off lane => (s.warpAt c k).status ≠ .free → lane < 32 →
          ∃ x, (t.warpAt c k).vPoison = (s.warpAt c k).vPoison ++ [x] ∧ x.reg = off ∧ x.lane = lane ∧ x.reason = 2
      | .kreg c k r => (s.warpAt c k).status ≠ .free → r ≠ 0 → r < 64 →
          ∃ x, (t.warpAt c k).kPoison = (s.warpAt c k).kPoison ++ [x] ∧ x.reg = r ∧ x.reason = 2
      | .accRow c tile row => tile < 8 → row < 128 → 128 * tile + row ∈ (t.core c).accPoison ∧ (t.core c).acc = (s.core c).acc
      | .riddleCells c => (t.core c).riddle = { (s.core c).riddle with poison := true }
      | .weightLatch c a => (if a then (t.core c).latchS = (s.core c).latchS else (t.core c).latchA = (s.core c).latchA) ∧
          ∀ l, (if a then (s.core c).latchA else (s.core c).latchS) = some l →
            (if a then (t.core c).latchA else (t.core c).latchS) = some { l with poison := true }
      | .scaleMemory c => (t.core c).scalePoison = true ∧ (t.core c).scale = (s.core c).scale
      | .tableBank c b => (t.core c).bankPoison0 = ((s.core c).bankPoison0 || !b) ∧ (t.core c).bankPoison1 = ((s.core c).bankPoison1 || b)
      | .tagTable c | .kindlingQueue c => (t.core c).tablesBad = true ∧ coreStops t c
      | .routeCounters c => (t.core c).tablesBad = (s.core c).tablesBad ∧ coreStops t c
      | .mailbox d => (t.die d).mailboxBad = true ∧ (keysRise s.launches = true → ∀ m l, s.launch? m = some l →
          l.phase ≠ .reserved → l.trap = none → (s.core (192 * d)).has m = true ∨
            (∃ x ∈ (s.die d).mailbox ++ (s.die d).incoming ++ (s.die d).pending.map (·.mail), x.launch = m) →
            ∃ r, t.launch? m = some { l with trap := some r, trapAt := s.clock } ∧ r.cause.toNat % 32 = gHWERR ∧ r.d2 = 0x20000000)) ∧
    (∀ port off n, port < 2 → s.dieLost (portDie port) = false → off < 2 ^ 36 →
      let pa := (if port = 0 then s.window0 else s.window1) + off
      regionOf pa = 0 → s.onLostDie pa = false →
      (off + n ≤ 2 ^ 36 → exec (.hostWindowAccess port off n .read) s = .next { s with hostReads := s.hostReads ++ [s.mem.bytes pa n] }) ∧
      (∀ b, off + b.length ≤ 2 ^ 36 → s.mem.wf = true → ∃ t, exec (.hostWindowAccess port off n (.write b)) s = .next t ∧
        t.mem.bytes pa b.length = b ∧ (∀ a, a < pa ∨ pa + b.length ≤ a → t.mem.read a = s.mem.read a) ∧ t.cores = s.cores ∧
        t.launches = s.launches) ∧
      ((n = 4 ∨ n = 8) → pa % n = 0 → off + n ≤ 2 ^ 36 → s.mem.wf = true → ∀ x y, let old := s.mem.readN pa n
        ∀ z ∈ [(HostOp.fetchAdd x, (old + x.toNat) % 2 ^ (8 * n)), (.swap x, x.toNat % 2 ^ (8 * n)),
               (.cas x y, if old = x.toNat % 2 ^ (8 * n) then y.toNat % 2 ^ (8 * n) else old)],
          ∃ t, exec (.hostWindowAccess port off n z.1) s = .next t ∧ t.mem.readN pa n = z.2 ∧
            t.hostReads = s.hostReads ++ [s.mem.bytes pa n] ∧ ∀ a, a < pa ∨ pa + n ≤ a → t.mem.read a = s.mem.read a)) ∧
    (∀ port d, port < 2 → d < 8 → s.dieLost (portDie port) = false →
      ∃ t, exec (.hostWindowAccess port (2 ^ 36 + 0x1000 + 64 * d) 64 .read) s = .next t ∧ t.mem = s.mem ∧
        let x := (s.die d).telemetry
        t.hostReads = s.hostReads ++ [leBytes 8 x.time.toNat ++ [x.mhz, x.power, x.hot, x.hbm, x.reject].flatMap (fun y => leBytes 4 y.toNat) ++
          List.replicate 36 0]) ∧
    (∀ port off n op, port < 2 → s.dieLost (portDie port) = true → exec (.hostWindowAccess port off n op) s = .next s) ∧
    (∀ port b, port < 2 → b ≠ [] → s.dieLost (portDie port) = false →
      ∃ t, exec (.spdmRequest port b) s = .next t ∧ t.mem = s.mem ∧ t.launches = s.launches ∧
        t.spdmOut = s.spdmOut ++ [Config.spdmAnswer Config.identity b s.measured s.bankStates s.freeCtr]) ∧
    ∀ port, port < 20 → (port ∉ s.eslynLost → ∃ t, exec (.eslynPortLoss port) s = .next t ∧ t.eslynLost = s.eslynLost ++ [port] ∧
        posts t (eventBytes 8 4 0 port s.time s.liveMask) ∧
        ((∃ p < 20, p ≠ port ∧ p ∉ s.eslynLost) → t.eslynOut.length = s.eslynOut.length ∧
          ∀ (i : Nat) (u : Outbound), s.eslynOut[i]? = some u → ∃ x : Outbound, t.eslynOut[i]? = some x ∧ x = { u with port := x.port } ∧
            (u.port ≠ port ∨ s.inFlight u = false → x = u) ∧ (u.port = port → s.inFlight u = true → x.port ≠ port ∧ x.port ∉ s.eslynLost))) ∧
      (port ∈ s.eslynLost → exec (.eslynPortLoss port) s = .next s)

/-- R9, R340, R341, R344, R397, R436, R437, R439, R440: failures and resets. A core that fails is removed and its launches
stop; an isolated die stops the launches of its rectangle, and the generation of their spaces advances once none of them
runs; the reset of a die waits for what is on it, and then leaves its cores as boot does; the standby Stoker takes over,
rolling back what is in Reserve; dies that a split cuts off fence themselves and are isolated; a module reset leaves device
memory, queues and launches as boot does, and keeps the flash banks, the records and the journal. That a die's reset ends
its isolation unless a split has fenced it is log 124, and its LINK reason log 46, both DEDUCED; the order of the spares is
log 121 and that a reset core's scratchpad reads 0 log 3, both DESIGN CHOICE; what a failed core takes with it log 129, and what a lost die no longer does log 130, both
DEDUCED. -/
def Obligations.FailuresAndResets : Prop :=
  ∀ s : State, keysRise s.launches = true →
    (∀ c, c < 1536 → (s.core c).removed = false →
      ((s.core c).tablesBad = true ∨ inDie c = 0 ∧ (s.die (dieOf c)).mailboxBad = true ∨ threeWithin (s.core c).hwerr2 = true →
        ∃ t, exec (.coreFailure c) s = .next t ∧ (t.core c).removed = true ∧ t.journal = s.journal ++ [c] ∧
          ∀ m l, s.launch? m = some l → let due := dieOf c ∉ l.started ∧ ∃ x ∈ l.sets, x.2.1 = c
            (l.phase = .reserved → due → t.launch? m = none) ∧
            (l.phase ≠ .reserved → l.trap = none → (s.core c).has m = true ∨ due →
              ∃ r y, t.launch? m = some { l with trap := some r, trapAt := s.clock, ready := y } ∧ r.d2 = 0x20000000) ∧
            (l.phase = .reserved ∨ (s.core c).has m = false → ¬due → ∃ y, t.launch? m = some { l with ready := y }))) ∧
    (∀ d, d < 8 → (s.die d).isolated = false → ∃ t, exec (.dieIsolation d) s = .next t ∧ (t.die d).isolated = true ∧
      (let takes := d = s.stokerDie ∧ s.standbyLive = true ∧ s.dieLive s.standbyDie = true;
        (takes → t.stokerB = !s.stokerB) ∧ (¬takes → t.stokerB = s.stokerB) ∧
        ∀ m l, s.launch? m = some l →
          (l.phase = .reserved → d ∈ l.dies ∨ takes → t.launch? m = none) ∧ (d ∉ l.dies → l.phase ≠ .reserved ∨ ¬takes → ∃ y, t.launch? m = some { l with ready := y }) ∧
          (l.phase ≠ .reserved → d ∈ l.dies → l.trap = none → ∃ r y, t.launch? m = some { l with trap := some r, trapAt := s.clock, ready := y } ∧
            r.cause.toNat % 32 = gLINK ∧ r.coreid = dieAgent d)) ∧
      ∀ a x, AMap.find? s.aspaces a = some x → a ∉ s.genDue →
        let stops := ∃ m l, s.launch? m = some l ∧ l.phase ≠ .reserved ∧ d ∈ l.dies ∧ l.asid = a;
        (stops → (∃ m l, s.launch? m = some l ∧ l.phase ≠ .reserved ∧ l.phase ≠ .saved ∧ l.asid = a) →
          a ∈ t.genDue ∧ AMap.find? t.aspaces a = some x) ∧
        (stops → (∀ m l, s.launch? m = some l → l.asid = a → l.phase = .saved) → AMap.find? t.aspaces a = some { x with gen := x.gen + 1 }) ∧
        (¬stops → AMap.find? t.aspaces a = some x)) ∧
    (∀ d, d < 8 →
      ((∀ m l, s.launch? m = some l → s.onDie d m l = true → l.phase = .reserved ∧ d ∈ l.dies) →
        ∃ t, exec (.dieReset d) s = .next t ∧ (t.die d).mailbox = [] ∧ (t.die d).tlb = [] ∧ (t.die d).resetDue = false ∧
          (t.die d).isolated = ((s.die d).isolated && (s.die d).fenced) ∧
          (∀ m l, s.launch? m = some l → (l.phase = .reserved → d ∈ l.dies → t.launch? m = none) ∧
            (l.phase ≠ .reserved ∨ d ∉ l.dies → ∃ y, t.launch? m = some { l with ready := y })) ∧
          (∀ n q x, AMap.find? t.queues n = some q → x ∈ q.started → d ∉ x.unconfirmed) ∧
          ∀ c, dieOf c = d → inDie c ≠ 0 → (t.core c).spad = [] ∧ (t.core c).mqueue = [] ∧ (∀ k, (t.warpAt c k).status = .free) ∧
            ((s.core c).removed = true → (t.core c).removed = s.noSpare c)) ∧
      ∀ m l, s.launch? m = some l → l.phase ≠ .reserved → s.onDie d m l = true → ∃ t, exec (.dieReset d) s = .next t ∧
        (t.die d).resetDue = true ∧ (l.trap = none → ∃ r y, t.launch? m = some { l with trap := some r, trapAt := s.clock, ready := y } ∧
          r.cause.toNat % 32 = gLINK)) ∧
    (s.standbyLive = true → s.dieLive s.standbyDie = true → ∃ t, exec .stokerFailover s = .next t ∧
      t.stokerB = !s.stokerB ∧ t.standbyLive = false ∧ t.standbyReady = false ∧ t.verActive = s.verStandby ∧
      ∀ m l, s.launch? m = some l → (l.phase = .reserved → t.launch? m = none) ∧
        (l.phase ≠ .reserved → ∃ y, t.launch? m = some { l with ready := y })) ∧
    (s.standbyLive = false ∨ s.dieLive s.standbyDie = false → exec .stokerFailover s = .next s) ∧
    (∃ t, exec .meshSplit s = .next t ∧
      (∀ d < 8, let cut := s.dieLive d && !s.continuing.contains d;
        (t.die d).fenced = ((s.die d).fenced || cut) ∧ (t.die d).isolated = ((s.die d).isolated || cut)) ∧
      (s.stokerDie ∈ s.continuing → t.stokerB = s.stokerB) ∧
      (s.stokerDie ∉ s.continuing → s.standbyLive = true → s.dieLive s.standbyDie = true → s.standbyDie ∈ s.continuing →
        s.dieLive s.stokerDie = true → t.stokerB = !s.stokerB)) ∧
    ∃ t, exec .moduleReset s = .next t ∧ t.mem = State.reset.mem ∧ t.memPoison = [] ∧ t.launches = [] ∧ t.queues = State.reset.queues ∧
      t.aspaces = [] ∧ t.stokerB = false ∧ t.journal = s.journal ∧ t.busWrites = s.busWrites ++ State.reset.busWrites ∧
      (∀ k, 0 < k → k < 4 → (AMap.find? s.activateDue k = none → t.bank k = s.bank k) ∧
        ∀ b, AMap.find? s.activateDue k = some b → Config.verifies b = true → (t.bank k).active = b) ∧
      (∀ k r, AMap.find? t.records k = some r → recordValid r = true) ∧
      (keysRise s.records = true → ∀ r, r ∈ s.recordsDue ∨ AMap.find? s.records (fieldN r 4 2) = some r → recordValid r = true →
        ∃ x, AMap.find? t.records (fieldN r 4 2) = some x ∧ fieldN r 6 2 ≤ fieldN x 6 2) ∧
      ∀ c, (t.core c).spad = (State.reset.core c).spad ∧ (∀ k, t.warpAt c k = State.reset.warpAt c k) ∧
        ((s.core c).removed = true → (t.core c).removed = ({ s with records := t.records } : State).noSpare c)
end

