-- ==== Sys2Proof/Laws/State.lean ====
section
/-! SUPPORT. What each update of a warp, a core or the module leaves as it was: one lemma per field and update. -/
namespace Sys2Proof.Machine

/-! ### State.setCore -/
@[simp] theorem State.setCore_schedule (s : State) (c : Nat) (x : Core) : (s.setCore c x).schedule = s.schedule := rfl
@[simp] theorem State.setCore_curCore (s : State) (c : Nat) (x : Core) : (s.setCore c x).curCore = s.curCore := rfl
@[simp] theorem State.setCore_curSlot (s : State) (c : Nat) (x : Core) : (s.setCore c x).curSlot = s.curSlot := rfl
@[simp] theorem State.setCore_stalled (s : State) (c : Nat) (x : Core) : (s.setCore c x).stalled = s.stalled := rfl
@[simp] theorem State.setCore_freeCtr (s : State) (c : Nat) (x : Core) : (s.setCore c x).freeCtr = s.freeCtr := rfl
@[simp] theorem State.setCore_steps (s : State) (c : Nat) (x : Core) : (s.setCore c x).steps = s.steps := rfl
@[simp] theorem State.setCore_clock (s : State) (c : Nat) (x : Core) : (s.setCore c x).clock = s.clock := rfl
@[simp] theorem State.setCore_time (s : State) (c : Nat) (x : Core) : (s.setCore c x).time = s.time := rfl
@[simp] theorem State.setCore_mem (s : State) (c : Nat) (x : Core) : (s.setCore c x).mem = s.mem := rfl
@[simp] theorem State.setCore_memPoison (s : State) (c : Nat) (x : Core) : (s.setCore c x).memPoison = s.memPoison := rfl
@[simp] theorem State.setCore_dirtyPoison (s : State) (c : Nat) (x : Core) : (s.setCore c x).dirtyPoison = s.dirtyPoison := rfl
@[simp] theorem State.setCore_busWrites (s : State) (c : Nat) (x : Core) : (s.setCore c x).busWrites = s.busWrites := rfl
@[simp] theorem State.setCore_dies (s : State) (c : Nat) (x : Core) : (s.setCore c x).dies = s.dies := rfl
@[simp] theorem State.setCore_travel (s : State) (c : Nat) (x : Core) : (s.setCore c x).travel = s.travel := rfl
@[simp] theorem State.setCore_launches (s : State) (c : Nat) (x : Core) : (s.setCore c x).launches = s.launches := rfl
@[simp] theorem State.setCore_nextLaunch (s : State) (c : Nat) (x : Core) : (s.setCore c x).nextLaunch = s.nextLaunch := rfl
@[simp] theorem State.setCore_nextOrder (s : State) (c : Nat) (x : Core) : (s.setCore c x).nextOrder = s.nextOrder := rfl
@[simp] theorem State.setCore_nextStamp (s : State) (c : Nat) (x : Core) : (s.setCore c x).nextStamp = s.nextStamp := rfl
@[simp] theorem State.setCore_queues (s : State) (c : Nat) (x : Core) : (s.setCore c x).queues = s.queues := rfl
@[simp] theorem State.setCore_rrobin (s : State) (c : Nat) (x : Core) : (s.setCore c x).rrobin = s.rrobin := rfl
@[simp] theorem State.setCore_aspaces (s : State) (c : Nat) (x : Core) : (s.setCore c x).aspaces = s.aspaces := rfl
@[simp] theorem State.setCore_genDue (s : State) (c : Nat) (x : Core) : (s.setCore c x).genDue = s.genDue := rfl
@[simp] theorem State.setCore_stokerB (s : State) (c : Nat) (x : Core) : (s.setCore c x).stokerB = s.stokerB := rfl
@[simp] theorem State.setCore_standbyLive (s : State) (c : Nat) (x : Core) : (s.setCore c x).standbyLive = s.standbyLive := rfl
@[simp] theorem State.setCore_standbyReady (s : State) (c : Nat) (x : Core) : (s.setCore c x).standbyReady = s.standbyReady := rfl
@[simp] theorem State.setCore_verActive (s : State) (c : Nat) (x : Core) : (s.setCore c x).verActive = s.verActive := rfl
@[simp] theorem State.setCore_verStandby (s : State) (c : Nat) (x : Core) : (s.setCore c x).verStandby = s.verStandby := rfl
@[simp] theorem State.setCore_window0 (s : State) (c : Nat) (x : Core) : (s.setCore c x).window0 = s.window0 := rfl
@[simp] theorem State.setCore_window1 (s : State) (c : Nat) (x : Core) : (s.setCore c x).window1 = s.window1 := rfl
@[simp] theorem State.setCore_flue (s : State) (c : Nat) (x : Core) : (s.setCore c x).flue = s.flue := rfl
@[simp] theorem State.setCore_routes (s : State) (c : Nat) (x : Core) : (s.setCore c x).routes = s.routes := rfl
@[simp] theorem State.setCore_streams (s : State) (c : Nat) (x : Core) : (s.setCore c x).streams = s.streams := rfl
@[simp] theorem State.setCore_flash (s : State) (c : Nat) (x : Core) : (s.setCore c x).flash = s.flash := rfl
@[simp] theorem State.setCore_journal (s : State) (c : Nat) (x : Core) : (s.setCore c x).journal = s.journal := rfl
@[simp] theorem State.setCore_activateDue (s : State) (c : Nat) (x : Core) : (s.setCore c x).activateDue = s.activateDue := rfl
@[simp] theorem State.setCore_recordsDue (s : State) (c : Nat) (x : Core) : (s.setCore c x).recordsDue = s.recordsDue := rfl
@[simp] theorem State.setCore_records (s : State) (c : Nat) (x : Core) : (s.setCore c x).records = s.records := rfl
@[simp] theorem State.setCore_measured (s : State) (c : Nat) (x : Core) : (s.setCore c x).measured = s.measured := rfl
@[simp] theorem State.setCore_eslynLost (s : State) (c : Nat) (x : Core) : (s.setCore c x).eslynLost = s.eslynLost := rfl
@[simp] theorem State.setCore_domain (s : State) (c : Nat) (x : Core) : (s.setCore c x).domain = s.domain := rfl
@[simp] theorem State.setCore_eslynOut (s : State) (c : Nat) (x : Core) : (s.setCore c x).eslynOut = s.eslynOut := rfl
@[simp] theorem State.setCore_mhz (s : State) (c : Nat) (x : Core) : (s.setCore c x).mhz = s.mhz := rfl
@[simp] theorem State.setCore_mhzNext (s : State) (c : Nat) (x : Core) : (s.setCore c x).mhzNext = s.mhzNext := rfl
@[simp] theorem State.setCore_power (s : State) (c : Nat) (x : Core) : (s.setCore c x).power = s.power := rfl
@[simp] theorem State.setCore_lowSince (s : State) (c : Nat) (x : Core) : (s.setCore c x).lowSince = s.lowSince := rfl
@[simp] theorem State.setCore_stepAt (s : State) (c : Nat) (x : Core) : (s.setCore c x).stepAt = s.stepAt := rfl
@[simp] theorem State.setCore_upAt (s : State) (c : Nat) (x : Core) : (s.setCore c x).upAt = s.upAt := rfl
@[simp] theorem State.setCore_msix (s : State) (c : Nat) (x : Core) : (s.setCore c x).msix = s.msix := rfl
@[simp] theorem State.setCore_spdmOut (s : State) (c : Nat) (x : Core) : (s.setCore c x).spdmOut = s.spdmOut := rfl
@[simp] theorem State.setCore_hostReads (s : State) (c : Nat) (x : Core) : (s.setCore c x).hostReads = s.hostReads := rfl
@[simp] theorem State.setCore_ticks (s : State) (c : Nat) (x : Core) : (s.setCore c x).ticks = s.ticks := rfl
@[simp] theorem State.setCore_frames (s : State) (c : Nat) (x : Core) : (s.setCore c x).frames = s.frames := rfl
@[simp] theorem State.setCore_rotatedAt (s : State) (c : Nat) (x : Core) : (s.setCore c x).rotatedAt = s.rotatedAt := rfl

/-! ### State.setDie -/
@[simp] theorem State.setDie_schedule (s : State) (d : Nat) (x : Die) : (s.setDie d x).schedule = s.schedule := rfl
@[simp] theorem State.setDie_curCore (s : State) (d : Nat) (x : Die) : (s.setDie d x).curCore = s.curCore := rfl
@[simp] theorem State.setDie_curSlot (s : State) (d : Nat) (x : Die) : (s.setDie d x).curSlot = s.curSlot := rfl
@[simp] theorem State.setDie_stalled (s : State) (d : Nat) (x : Die) : (s.setDie d x).stalled = s.stalled := rfl
@[simp] theorem State.setDie_freeCtr (s : State) (d : Nat) (x : Die) : (s.setDie d x).freeCtr = s.freeCtr := rfl
@[simp] theorem State.setDie_steps (s : State) (d : Nat) (x : Die) : (s.setDie d x).steps = s.steps := rfl
@[simp] theorem State.setDie_clock (s : State) (d : Nat) (x : Die) : (s.setDie d x).clock = s.clock := rfl
@[simp] theorem State.setDie_time (s : State) (d : Nat) (x : Die) : (s.setDie d x).time = s.time := rfl
@[simp] theorem State.setDie_mem (s : State) (d : Nat) (x : Die) : (s.setDie d x).mem = s.mem := rfl
@[simp] theorem State.setDie_memPoison (s : State) (d : Nat) (x : Die) : (s.setDie d x).memPoison = s.memPoison := rfl
@[simp] theorem State.setDie_dirtyPoison (s : State) (d : Nat) (x : Die) : (s.setDie d x).dirtyPoison = s.dirtyPoison := rfl
@[simp] theorem State.setDie_busWrites (s : State) (d : Nat) (x : Die) : (s.setDie d x).busWrites = s.busWrites := rfl
@[simp] theorem State.setDie_cores (s : State) (d : Nat) (x : Die) : (s.setDie d x).cores = s.cores := rfl
@[simp] theorem State.setDie_travel (s : State) (d : Nat) (x : Die) : (s.setDie d x).travel = s.travel := rfl
@[simp] theorem State.setDie_launches (s : State) (d : Nat) (x : Die) : (s.setDie d x).launches = s.launches := rfl
@[simp] theorem State.setDie_nextLaunch (s : State) (d : Nat) (x : Die) : (s.setDie d x).nextLaunch = s.nextLaunch := rfl
@[simp] theorem State.setDie_nextOrder (s : State) (d : Nat) (x : Die) : (s.setDie d x).nextOrder = s.nextOrder := rfl
@[simp] theorem State.setDie_nextStamp (s : State) (d : Nat) (x : Die) : (s.setDie d x).nextStamp = s.nextStamp := rfl
@[simp] theorem State.setDie_queues (s : State) (d : Nat) (x : Die) : (s.setDie d x).queues = s.queues := rfl
@[simp] theorem State.setDie_rrobin (s : State) (d : Nat) (x : Die) : (s.setDie d x).rrobin = s.rrobin := rfl
@[simp] theorem State.setDie_aspaces (s : State) (d : Nat) (x : Die) : (s.setDie d x).aspaces = s.aspaces := rfl
@[simp] theorem State.setDie_genDue (s : State) (d : Nat) (x : Die) : (s.setDie d x).genDue = s.genDue := rfl
@[simp] theorem State.setDie_stokerB (s : State) (d : Nat) (x : Die) : (s.setDie d x).stokerB = s.stokerB := rfl
@[simp] theorem State.setDie_standbyLive (s : State) (d : Nat) (x : Die) : (s.setDie d x).standbyLive = s.standbyLive := rfl
@[simp] theorem State.setDie_standbyReady (s : State) (d : Nat) (x : Die) : (s.setDie d x).standbyReady = s.standbyReady := rfl
@[simp] theorem State.setDie_verActive (s : State) (d : Nat) (x : Die) : (s.setDie d x).verActive = s.verActive := rfl
@[simp] theorem State.setDie_verStandby (s : State) (d : Nat) (x : Die) : (s.setDie d x).verStandby = s.verStandby := rfl
@[simp] theorem State.setDie_window0 (s : State) (d : Nat) (x : Die) : (s.setDie d x).window0 = s.window0 := rfl
@[simp] theorem State.setDie_window1 (s : State) (d : Nat) (x : Die) : (s.setDie d x).window1 = s.window1 := rfl
@[simp] theorem State.setDie_flue (s : State) (d : Nat) (x : Die) : (s.setDie d x).flue = s.flue := rfl
@[simp] theorem State.setDie_routes (s : State) (d : Nat) (x : Die) : (s.setDie d x).routes = s.routes := rfl
@[simp] theorem State.setDie_streams (s : State) (d : Nat) (x : Die) : (s.setDie d x).streams = s.streams := rfl
@[simp] theorem State.setDie_flash (s : State) (d : Nat) (x : Die) : (s.setDie d x).flash = s.flash := rfl
@[simp] theorem State.setDie_journal (s : State) (d : Nat) (x : Die) : (s.setDie d x).journal = s.journal := rfl
@[simp] theorem State.setDie_activateDue (s : State) (d : Nat) (x : Die) : (s.setDie d x).activateDue = s.activateDue := rfl
@[simp] theorem State.setDie_recordsDue (s : State) (d : Nat) (x : Die) : (s.setDie d x).recordsDue = s.recordsDue := rfl
@[simp] theorem State.setDie_records (s : State) (d : Nat) (x : Die) : (s.setDie d x).records = s.records := rfl
@[simp] theorem State.setDie_measured (s : State) (d : Nat) (x : Die) : (s.setDie d x).measured = s.measured := rfl
@[simp] theorem State.setDie_eslynLost (s : State) (d : Nat) (x : Die) : (s.setDie d x).eslynLost = s.eslynLost := rfl
@[simp] theorem State.setDie_domain (s : State) (d : Nat) (x : Die) : (s.setDie d x).domain = s.domain := rfl
@[simp] theorem State.setDie_eslynOut (s : State) (d : Nat) (x : Die) : (s.setDie d x).eslynOut = s.eslynOut := rfl
@[simp] theorem State.setDie_mhz (s : State) (d : Nat) (x : Die) : (s.setDie d x).mhz = s.mhz := rfl
@[simp] theorem State.setDie_mhzNext (s : State) (d : Nat) (x : Die) : (s.setDie d x).mhzNext = s.mhzNext := rfl
@[simp] theorem State.setDie_power (s : State) (d : Nat) (x : Die) : (s.setDie d x).power = s.power := rfl
@[simp] theorem State.setDie_lowSince (s : State) (d : Nat) (x : Die) : (s.setDie d x).lowSince = s.lowSince := rfl
@[simp] theorem State.setDie_stepAt (s : State) (d : Nat) (x : Die) : (s.setDie d x).stepAt = s.stepAt := rfl
@[simp] theorem State.setDie_upAt (s : State) (d : Nat) (x : Die) : (s.setDie d x).upAt = s.upAt := rfl
@[simp] theorem State.setDie_msix (s : State) (d : Nat) (x : Die) : (s.setDie d x).msix = s.msix := rfl
@[simp] theorem State.setDie_spdmOut (s : State) (d : Nat) (x : Die) : (s.setDie d x).spdmOut = s.spdmOut := rfl
@[simp] theorem State.setDie_hostReads (s : State) (d : Nat) (x : Die) : (s.setDie d x).hostReads = s.hostReads := rfl
@[simp] theorem State.setDie_ticks (s : State) (d : Nat) (x : Die) : (s.setDie d x).ticks = s.ticks := rfl
@[simp] theorem State.setDie_frames (s : State) (d : Nat) (x : Die) : (s.setDie d x).frames = s.frames := rfl
@[simp] theorem State.setDie_rotatedAt (s : State) (d : Nat) (x : Die) : (s.setDie d x).rotatedAt = s.rotatedAt := rfl

/-! ### State.setWarpAt -/
@[simp] theorem State.setWarpAt_schedule (s : State) (c k : Nat) (w : Warp) : (s.setWarpAt c k w).schedule = s.schedule := rfl
@[simp] theorem State.setWarpAt_curCore (s : State) (c k : Nat) (w : Warp) : (s.setWarpAt c k w).curCore = s.curCore := rfl
@[simp] theorem State.setWarpAt_curSlot (s : State) (c k : Nat) (w : Warp) : (s.setWarpAt c k w).curSlot = s.curSlot := rfl
@[simp] theorem State.setWarpAt_stalled (s : State) (c k : Nat) (w : Warp) : (s.setWarpAt c k w).stalled = s.stalled := rfl
@[simp] theorem State.setWarpAt_freeCtr (s : State) (c k : Nat) (w : Warp) : (s.setWarpAt c k w).freeCtr = s.freeCtr := rfl
@[simp] theorem State.setWarpAt_steps (s : State) (c k : Nat) (w : Warp) : (s.setWarpAt c k w).steps = s.steps := rfl
@[simp] theorem State.setWarpAt_clock (s : State) (c k : Nat) (w : Warp) : (s.setWarpAt c k w).clock = s.clock := rfl
@[simp] theorem State.setWarpAt_time (s : State) (c k : Nat) (w : Warp) : (s.setWarpAt c k w).time = s.time := rfl
@[simp] theorem State.setWarpAt_mem (s : State) (c k : Nat) (w : Warp) : (s.setWarpAt c k w).mem = s.mem := rfl
@[simp] theorem State.setWarpAt_memPoison (s : State) (c k : Nat) (w : Warp) : (s.setWarpAt c k w).memPoison = s.memPoison := rfl
@[simp] theorem State.setWarpAt_dirtyPoison (s : State) (c k : Nat) (w : Warp) : (s.setWarpAt c k w).dirtyPoison = s.dirtyPoison := rfl
@[simp] theorem State.setWarpAt_busWrites (s : State) (c k : Nat) (w : Warp) : (s.setWarpAt c k w).busWrites = s.busWrites := rfl
@[simp] theorem State.setWarpAt_dies (s : State) (c k : Nat) (w : Warp) : (s.setWarpAt c k w).dies = s.dies := rfl
@[simp] theorem State.setWarpAt_travel (s : State) (c k : Nat) (w : Warp) : (s.setWarpAt c k w).travel = s.travel := rfl
@[simp] theorem State.setWarpAt_launches (s : State) (c k : Nat) (w : Warp) : (s.setWarpAt c k w).launches = s.launches := rfl
@[simp] theorem State.setWarpAt_nextLaunch (s : State) (c k : Nat) (w : Warp) : (s.setWarpAt c k w).nextLaunch = s.nextLaunch := rfl
@[simp] theorem State.setWarpAt_nextOrder (s : State) (c k : Nat) (w : Warp) : (s.setWarpAt c k w).nextOrder = s.nextOrder := rfl
@[simp] theorem State.setWarpAt_nextStamp (s : State) (c k : Nat) (w : Warp) : (s.setWarpAt c k w).nextStamp = s.nextStamp := rfl
@[simp] theorem State.setWarpAt_queues (s : State) (c k : Nat) (w : Warp) : (s.setWarpAt c k w).queues = s.queues := rfl
@[simp] theorem State.setWarpAt_rrobin (s : State) (c k : Nat) (w : Warp) : (s.setWarpAt c k w).rrobin = s.rrobin := rfl
@[simp] theorem State.setWarpAt_aspaces (s : State) (c k : Nat) (w : Warp) : (s.setWarpAt c k w).aspaces = s.aspaces := rfl
@[simp] theorem State.setWarpAt_genDue (s : State) (c k : Nat) (w : Warp) : (s.setWarpAt c k w).genDue = s.genDue := rfl
@[simp] theorem State.setWarpAt_stokerB (s : State) (c k : Nat) (w : Warp) : (s.setWarpAt c k w).stokerB = s.stokerB := rfl
@[simp] theorem State.setWarpAt_standbyLive (s : State) (c k : Nat) (w : Warp) : (s.setWarpAt c k w).standbyLive = s.standbyLive := rfl
@[simp] theorem State.setWarpAt_standbyReady (s : State) (c k : Nat) (w : Warp) : (s.setWarpAt c k w).standbyReady = s.standbyReady := rfl
@[simp] theorem State.setWarpAt_verActive (s : State) (c k : Nat) (w : Warp) : (s.setWarpAt c k w).verActive = s.verActive := rfl
@[simp] theorem State.setWarpAt_verStandby (s : State) (c k : Nat) (w : Warp) : (s.setWarpAt c k w).verStandby = s.verStandby := rfl
@[simp] theorem State.setWarpAt_window0 (s : State) (c k : Nat) (w : Warp) : (s.setWarpAt c k w).window0 = s.window0 := rfl
@[simp] theorem State.setWarpAt_window1 (s : State) (c k : Nat) (w : Warp) : (s.setWarpAt c k w).window1 = s.window1 := rfl
@[simp] theorem State.setWarpAt_flue (s : State) (c k : Nat) (w : Warp) : (s.setWarpAt c k w).flue = s.flue := rfl
@[simp] theorem State.setWarpAt_routes (s : State) (c k : Nat) (w : Warp) : (s.setWarpAt c k w).routes = s.routes := rfl
@[simp] theorem State.setWarpAt_streams (s : State) (c k : Nat) (w : Warp) : (s.setWarpAt c k w).streams = s.streams := rfl
@[simp] theorem State.setWarpAt_flash (s : State) (c k : Nat) (w : Warp) : (s.setWarpAt c k w).flash = s.flash := rfl
@[simp] theorem State.setWarpAt_journal (s : State) (c k : Nat) (w : Warp) : (s.setWarpAt c k w).journal = s.journal := rfl
@[simp] theorem State.setWarpAt_activateDue (s : State) (c k : Nat) (w : Warp) : (s.setWarpAt c k w).activateDue = s.activateDue := rfl
@[simp] theorem State.setWarpAt_recordsDue (s : State) (c k : Nat) (w : Warp) : (s.setWarpAt c k w).recordsDue = s.recordsDue := rfl
@[simp] theorem State.setWarpAt_records (s : State) (c k : Nat) (w : Warp) : (s.setWarpAt c k w).records = s.records := rfl
@[simp] theorem State.setWarpAt_measured (s : State) (c k : Nat) (w : Warp) : (s.setWarpAt c k w).measured = s.measured := rfl
@[simp] theorem State.setWarpAt_eslynLost (s : State) (c k : Nat) (w : Warp) : (s.setWarpAt c k w).eslynLost = s.eslynLost := rfl
@[simp] theorem State.setWarpAt_domain (s : State) (c k : Nat) (w : Warp) : (s.setWarpAt c k w).domain = s.domain := rfl
@[simp] theorem State.setWarpAt_eslynOut (s : State) (c k : Nat) (w : Warp) : (s.setWarpAt c k w).eslynOut = s.eslynOut := rfl
@[simp] theorem State.setWarpAt_mhz (s : State) (c k : Nat) (w : Warp) : (s.setWarpAt c k w).mhz = s.mhz := rfl
@[simp] theorem State.setWarpAt_mhzNext (s : State) (c k : Nat) (w : Warp) : (s.setWarpAt c k w).mhzNext = s.mhzNext := rfl
@[simp] theorem State.setWarpAt_power (s : State) (c k : Nat) (w : Warp) : (s.setWarpAt c k w).power = s.power := rfl
@[simp] theorem State.setWarpAt_lowSince (s : State) (c k : Nat) (w : Warp) : (s.setWarpAt c k w).lowSince = s.lowSince := rfl
@[simp] theorem State.setWarpAt_stepAt (s : State) (c k : Nat) (w : Warp) : (s.setWarpAt c k w).stepAt = s.stepAt := rfl
@[simp] theorem State.setWarpAt_upAt (s : State) (c k : Nat) (w : Warp) : (s.setWarpAt c k w).upAt = s.upAt := rfl
@[simp] theorem State.setWarpAt_msix (s : State) (c k : Nat) (w : Warp) : (s.setWarpAt c k w).msix = s.msix := rfl
@[simp] theorem State.setWarpAt_spdmOut (s : State) (c k : Nat) (w : Warp) : (s.setWarpAt c k w).spdmOut = s.spdmOut := rfl
@[simp] theorem State.setWarpAt_hostReads (s : State) (c k : Nat) (w : Warp) : (s.setWarpAt c k w).hostReads = s.hostReads := rfl
@[simp] theorem State.setWarpAt_ticks (s : State) (c k : Nat) (w : Warp) : (s.setWarpAt c k w).ticks = s.ticks := rfl
@[simp] theorem State.setWarpAt_frames (s : State) (c k : Nat) (w : Warp) : (s.setWarpAt c k w).frames = s.frames := rfl
@[simp] theorem State.setWarpAt_rotatedAt (s : State) (c k : Nat) (w : Warp) : (s.setWarpAt c k w).rotatedAt = s.rotatedAt := rfl

/-! ### State.setW -/
@[simp] theorem State.setW_schedule (s : State) (w : Warp) : (s.setW w).schedule = s.schedule := rfl
@[simp] theorem State.setW_curCore (s : State) (w : Warp) : (s.setW w).curCore = s.curCore := rfl
@[simp] theorem State.setW_curSlot (s : State) (w : Warp) : (s.setW w).curSlot = s.curSlot := rfl
@[simp] theorem State.setW_stalled (s : State) (w : Warp) : (s.setW w).stalled = s.stalled := rfl
@[simp] theorem State.setW_freeCtr (s : State) (w : Warp) : (s.setW w).freeCtr = s.freeCtr := rfl
@[simp] theorem State.setW_steps (s : State) (w : Warp) : (s.setW w).steps = s.steps := rfl
@[simp] theorem State.setW_clock (s : State) (w : Warp) : (s.setW w).clock = s.clock := rfl
@[simp] theorem State.setW_time (s : State) (w : Warp) : (s.setW w).time = s.time := rfl
@[simp] theorem State.setW_mem (s : State) (w : Warp) : (s.setW w).mem = s.mem := rfl
@[simp] theorem State.setW_memPoison (s : State) (w : Warp) : (s.setW w).memPoison = s.memPoison := rfl
@[simp] theorem State.setW_dirtyPoison (s : State) (w : Warp) : (s.setW w).dirtyPoison = s.dirtyPoison := rfl
@[simp] theorem State.setW_busWrites (s : State) (w : Warp) : (s.setW w).busWrites = s.busWrites := rfl
@[simp] theorem State.setW_dies (s : State) (w : Warp) : (s.setW w).dies = s.dies := rfl
@[simp] theorem State.setW_travel (s : State) (w : Warp) : (s.setW w).travel = s.travel := rfl
@[simp] theorem State.setW_launches (s : State) (w : Warp) : (s.setW w).launches = s.launches := rfl
@[simp] theorem State.setW_nextLaunch (s : State) (w : Warp) : (s.setW w).nextLaunch = s.nextLaunch := rfl
@[simp] theorem State.setW_nextOrder (s : State) (w : Warp) : (s.setW w).nextOrder = s.nextOrder := rfl
@[simp] theorem State.setW_nextStamp (s : State) (w : Warp) : (s.setW w).nextStamp = s.nextStamp := rfl
@[simp] theorem State.setW_queues (s : State) (w : Warp) : (s.setW w).queues = s.queues := rfl
@[simp] theorem State.setW_rrobin (s : State) (w : Warp) : (s.setW w).rrobin = s.rrobin := rfl
@[simp] theorem State.setW_aspaces (s : State) (w : Warp) : (s.setW w).aspaces = s.aspaces := rfl
@[simp] theorem State.setW_genDue (s : State) (w : Warp) : (s.setW w).genDue = s.genDue := rfl
@[simp] theorem State.setW_stokerB (s : State) (w : Warp) : (s.setW w).stokerB = s.stokerB := rfl
@[simp] theorem State.setW_standbyLive (s : State) (w : Warp) : (s.setW w).standbyLive = s.standbyLive := rfl
@[simp] theorem State.setW_standbyReady (s : State) (w : Warp) : (s.setW w).standbyReady = s.standbyReady := rfl
@[simp] theorem State.setW_verActive (s : State) (w : Warp) : (s.setW w).verActive = s.verActive := rfl
@[simp] theorem State.setW_verStandby (s : State) (w : Warp) : (s.setW w).verStandby = s.verStandby := rfl
@[simp] theorem State.setW_window0 (s : State) (w : Warp) : (s.setW w).window0 = s.window0 := rfl
@[simp] theorem State.setW_window1 (s : State) (w : Warp) : (s.setW w).window1 = s.window1 := rfl
@[simp] theorem State.setW_flue (s : State) (w : Warp) : (s.setW w).flue = s.flue := rfl
@[simp] theorem State.setW_routes (s : State) (w : Warp) : (s.setW w).routes = s.routes := rfl
@[simp] theorem State.setW_streams (s : State) (w : Warp) : (s.setW w).streams = s.streams := rfl
@[simp] theorem State.setW_flash (s : State) (w : Warp) : (s.setW w).flash = s.flash := rfl
@[simp] theorem State.setW_journal (s : State) (w : Warp) : (s.setW w).journal = s.journal := rfl
@[simp] theorem State.setW_activateDue (s : State) (w : Warp) : (s.setW w).activateDue = s.activateDue := rfl
@[simp] theorem State.setW_recordsDue (s : State) (w : Warp) : (s.setW w).recordsDue = s.recordsDue := rfl
@[simp] theorem State.setW_records (s : State) (w : Warp) : (s.setW w).records = s.records := rfl
@[simp] theorem State.setW_measured (s : State) (w : Warp) : (s.setW w).measured = s.measured := rfl
@[simp] theorem State.setW_eslynLost (s : State) (w : Warp) : (s.setW w).eslynLost = s.eslynLost := rfl
@[simp] theorem State.setW_domain (s : State) (w : Warp) : (s.setW w).domain = s.domain := rfl
@[simp] theorem State.setW_eslynOut (s : State) (w : Warp) : (s.setW w).eslynOut = s.eslynOut := rfl
@[simp] theorem State.setW_mhz (s : State) (w : Warp) : (s.setW w).mhz = s.mhz := rfl
@[simp] theorem State.setW_mhzNext (s : State) (w : Warp) : (s.setW w).mhzNext = s.mhzNext := rfl
@[simp] theorem State.setW_power (s : State) (w : Warp) : (s.setW w).power = s.power := rfl
@[simp] theorem State.setW_lowSince (s : State) (w : Warp) : (s.setW w).lowSince = s.lowSince := rfl
@[simp] theorem State.setW_stepAt (s : State) (w : Warp) : (s.setW w).stepAt = s.stepAt := rfl
@[simp] theorem State.setW_upAt (s : State) (w : Warp) : (s.setW w).upAt = s.upAt := rfl
@[simp] theorem State.setW_msix (s : State) (w : Warp) : (s.setW w).msix = s.msix := rfl
@[simp] theorem State.setW_spdmOut (s : State) (w : Warp) : (s.setW w).spdmOut = s.spdmOut := rfl
@[simp] theorem State.setW_hostReads (s : State) (w : Warp) : (s.setW w).hostReads = s.hostReads := rfl
@[simp] theorem State.setW_ticks (s : State) (w : Warp) : (s.setW w).ticks = s.ticks := rfl
@[simp] theorem State.setW_frames (s : State) (w : Warp) : (s.setW w).frames = s.frames := rfl
@[simp] theorem State.setW_rotatedAt (s : State) (w : Warp) : (s.setW w).rotatedAt = s.rotatedAt := rfl

/-! ### State.setCo -/
@[simp] theorem State.setCo_schedule (s : State) (c : Core) : (s.setCo c).schedule = s.schedule := rfl
@[simp] theorem State.setCo_curCore (s : State) (c : Core) : (s.setCo c).curCore = s.curCore := rfl
@[simp] theorem State.setCo_curSlot (s : State) (c : Core) : (s.setCo c).curSlot = s.curSlot := rfl
@[simp] theorem State.setCo_stalled (s : State) (c : Core) : (s.setCo c).stalled = s.stalled := rfl
@[simp] theorem State.setCo_freeCtr (s : State) (c : Core) : (s.setCo c).freeCtr = s.freeCtr := rfl
@[simp] theorem State.setCo_steps (s : State) (c : Core) : (s.setCo c).steps = s.steps := rfl
@[simp] theorem State.setCo_clock (s : State) (c : Core) : (s.setCo c).clock = s.clock := rfl
@[simp] theorem State.setCo_time (s : State) (c : Core) : (s.setCo c).time = s.time := rfl
@[simp] theorem State.setCo_mem (s : State) (c : Core) : (s.setCo c).mem = s.mem := rfl
@[simp] theorem State.setCo_memPoison (s : State) (c : Core) : (s.setCo c).memPoison = s.memPoison := rfl
@[simp] theorem State.setCo_dirtyPoison (s : State) (c : Core) : (s.setCo c).dirtyPoison = s.dirtyPoison := rfl
@[simp] theorem State.setCo_busWrites (s : State) (c : Core) : (s.setCo c).busWrites = s.busWrites := rfl
@[simp] theorem State.setCo_dies (s : State) (c : Core) : (s.setCo c).dies = s.dies := rfl
@[simp] theorem State.setCo_travel (s : State) (c : Core) : (s.setCo c).travel = s.travel := rfl
@[simp] theorem State.setCo_launches (s : State) (c : Core) : (s.setCo c).launches = s.launches := rfl
@[simp] theorem State.setCo_nextLaunch (s : State) (c : Core) : (s.setCo c).nextLaunch = s.nextLaunch := rfl
@[simp] theorem State.setCo_nextOrder (s : State) (c : Core) : (s.setCo c).nextOrder = s.nextOrder := rfl
@[simp] theorem State.setCo_nextStamp (s : State) (c : Core) : (s.setCo c).nextStamp = s.nextStamp := rfl
@[simp] theorem State.setCo_queues (s : State) (c : Core) : (s.setCo c).queues = s.queues := rfl
@[simp] theorem State.setCo_rrobin (s : State) (c : Core) : (s.setCo c).rrobin = s.rrobin := rfl
@[simp] theorem State.setCo_aspaces (s : State) (c : Core) : (s.setCo c).aspaces = s.aspaces := rfl
@[simp] theorem State.setCo_genDue (s : State) (c : Core) : (s.setCo c).genDue = s.genDue := rfl
@[simp] theorem State.setCo_stokerB (s : State) (c : Core) : (s.setCo c).stokerB = s.stokerB := rfl
@[simp] theorem State.setCo_standbyLive (s : State) (c : Core) : (s.setCo c).standbyLive = s.standbyLive := rfl
@[simp] theorem State.setCo_standbyReady (s : State) (c : Core) : (s.setCo c).standbyReady = s.standbyReady := rfl
@[simp] theorem State.setCo_verActive (s : State) (c : Core) : (s.setCo c).verActive = s.verActive := rfl
@[simp] theorem State.setCo_verStandby (s : State) (c : Core) : (s.setCo c).verStandby = s.verStandby := rfl
@[simp] theorem State.setCo_window0 (s : State) (c : Core) : (s.setCo c).window0 = s.window0 := rfl
@[simp] theorem State.setCo_window1 (s : State) (c : Core) : (s.setCo c).window1 = s.window1 := rfl
@[simp] theorem State.setCo_flue (s : State) (c : Core) : (s.setCo c).flue = s.flue := rfl
@[simp] theorem State.setCo_routes (s : State) (c : Core) : (s.setCo c).routes = s.routes := rfl
@[simp] theorem State.setCo_streams (s : State) (c : Core) : (s.setCo c).streams = s.streams := rfl
@[simp] theorem State.setCo_flash (s : State) (c : Core) : (s.setCo c).flash = s.flash := rfl
@[simp] theorem State.setCo_journal (s : State) (c : Core) : (s.setCo c).journal = s.journal := rfl
@[simp] theorem State.setCo_activateDue (s : State) (c : Core) : (s.setCo c).activateDue = s.activateDue := rfl
@[simp] theorem State.setCo_recordsDue (s : State) (c : Core) : (s.setCo c).recordsDue = s.recordsDue := rfl
@[simp] theorem State.setCo_records (s : State) (c : Core) : (s.setCo c).records = s.records := rfl
@[simp] theorem State.setCo_measured (s : State) (c : Core) : (s.setCo c).measured = s.measured := rfl
@[simp] theorem State.setCo_eslynLost (s : State) (c : Core) : (s.setCo c).eslynLost = s.eslynLost := rfl
@[simp] theorem State.setCo_domain (s : State) (c : Core) : (s.setCo c).domain = s.domain := rfl
@[simp] theorem State.setCo_eslynOut (s : State) (c : Core) : (s.setCo c).eslynOut = s.eslynOut := rfl
@[simp] theorem State.setCo_mhz (s : State) (c : Core) : (s.setCo c).mhz = s.mhz := rfl
@[simp] theorem State.setCo_mhzNext (s : State) (c : Core) : (s.setCo c).mhzNext = s.mhzNext := rfl
@[simp] theorem State.setCo_power (s : State) (c : Core) : (s.setCo c).power = s.power := rfl
@[simp] theorem State.setCo_lowSince (s : State) (c : Core) : (s.setCo c).lowSince = s.lowSince := rfl
@[simp] theorem State.setCo_stepAt (s : State) (c : Core) : (s.setCo c).stepAt = s.stepAt := rfl
@[simp] theorem State.setCo_upAt (s : State) (c : Core) : (s.setCo c).upAt = s.upAt := rfl
@[simp] theorem State.setCo_msix (s : State) (c : Core) : (s.setCo c).msix = s.msix := rfl
@[simp] theorem State.setCo_spdmOut (s : State) (c : Core) : (s.setCo c).spdmOut = s.spdmOut := rfl
@[simp] theorem State.setCo_hostReads (s : State) (c : Core) : (s.setCo c).hostReads = s.hostReads := rfl
@[simp] theorem State.setCo_ticks (s : State) (c : Core) : (s.setCo c).ticks = s.ticks := rfl
@[simp] theorem State.setCo_frames (s : State) (c : Core) : (s.setCo c).frames = s.frames := rfl
@[simp] theorem State.setCo_rotatedAt (s : State) (c : Core) : (s.setCo c).rotatedAt = s.rotatedAt := rfl

/-! ### State.setLaunch -/
@[simp] theorem State.setLaunch_schedule (s : State) (n : Nat) (l : Launch) : (s.setLaunch n l).schedule = s.schedule := rfl
@[simp] theorem State.setLaunch_curCore (s : State) (n : Nat) (l : Launch) : (s.setLaunch n l).curCore = s.curCore := rfl
@[simp] theorem State.setLaunch_curSlot (s : State) (n : Nat) (l : Launch) : (s.setLaunch n l).curSlot = s.curSlot := rfl
@[simp] theorem State.setLaunch_stalled (s : State) (n : Nat) (l : Launch) : (s.setLaunch n l).stalled = s.stalled := rfl
@[simp] theorem State.setLaunch_freeCtr (s : State) (n : Nat) (l : Launch) : (s.setLaunch n l).freeCtr = s.freeCtr := rfl
@[simp] theorem State.setLaunch_steps (s : State) (n : Nat) (l : Launch) : (s.setLaunch n l).steps = s.steps := rfl
@[simp] theorem State.setLaunch_clock (s : State) (n : Nat) (l : Launch) : (s.setLaunch n l).clock = s.clock := rfl
@[simp] theorem State.setLaunch_time (s : State) (n : Nat) (l : Launch) : (s.setLaunch n l).time = s.time := rfl
@[simp] theorem State.setLaunch_mem (s : State) (n : Nat) (l : Launch) : (s.setLaunch n l).mem = s.mem := rfl
@[simp] theorem State.setLaunch_memPoison (s : State) (n : Nat) (l : Launch) : (s.setLaunch n l).memPoison = s.memPoison := rfl
@[simp] theorem State.setLaunch_dirtyPoison (s : State) (n : Nat) (l : Launch) : (s.setLaunch n l).dirtyPoison = s.dirtyPoison := rfl
@[simp] theorem State.setLaunch_busWrites (s : State) (n : Nat) (l : Launch) : (s.setLaunch n l).busWrites = s.busWrites := rfl
@[simp] theorem State.setLaunch_cores (s : State) (n : Nat) (l : Launch) : (s.setLaunch n l).cores = s.cores := rfl
@[simp] theorem State.setLaunch_dies (s : State) (n : Nat) (l : Launch) : (s.setLaunch n l).dies = s.dies := rfl
@[simp] theorem State.setLaunch_travel (s : State) (n : Nat) (l : Launch) : (s.setLaunch n l).travel = s.travel := rfl
@[simp] theorem State.setLaunch_nextLaunch (s : State) (n : Nat) (l : Launch) : (s.setLaunch n l).nextLaunch = s.nextLaunch := rfl
@[simp] theorem State.setLaunch_nextOrder (s : State) (n : Nat) (l : Launch) : (s.setLaunch n l).nextOrder = s.nextOrder := rfl
@[simp] theorem State.setLaunch_nextStamp (s : State) (n : Nat) (l : Launch) : (s.setLaunch n l).nextStamp = s.nextStamp := rfl
@[simp] theorem State.setLaunch_queues (s : State) (n : Nat) (l : Launch) : (s.setLaunch n l).queues = s.queues := rfl
@[simp] theorem State.setLaunch_rrobin (s : State) (n : Nat) (l : Launch) : (s.setLaunch n l).rrobin = s.rrobin := rfl
@[simp] theorem State.setLaunch_aspaces (s : State) (n : Nat) (l : Launch) : (s.setLaunch n l).aspaces = s.aspaces := rfl
@[simp] theorem State.setLaunch_genDue (s : State) (n : Nat) (l : Launch) : (s.setLaunch n l).genDue = s.genDue := rfl
@[simp] theorem State.setLaunch_stokerB (s : State) (n : Nat) (l : Launch) : (s.setLaunch n l).stokerB = s.stokerB := rfl
@[simp] theorem State.setLaunch_standbyLive (s : State) (n : Nat) (l : Launch) : (s.setLaunch n l).standbyLive = s.standbyLive := rfl
@[simp] theorem State.setLaunch_standbyReady (s : State) (n : Nat) (l : Launch) : (s.setLaunch n l).standbyReady = s.standbyReady := rfl
@[simp] theorem State.setLaunch_verActive (s : State) (n : Nat) (l : Launch) : (s.setLaunch n l).verActive = s.verActive := rfl
@[simp] theorem State.setLaunch_verStandby (s : State) (n : Nat) (l : Launch) : (s.setLaunch n l).verStandby = s.verStandby := rfl
@[simp] theorem State.setLaunch_window0 (s : State) (n : Nat) (l : Launch) : (s.setLaunch n l).window0 = s.window0 := rfl
@[simp] theorem State.setLaunch_window1 (s : State) (n : Nat) (l : Launch) : (s.setLaunch n l).window1 = s.window1 := rfl
@[simp] theorem State.setLaunch_flue (s : State) (n : Nat) (l : Launch) : (s.setLaunch n l).flue = s.flue := rfl
@[simp] theorem State.setLaunch_routes (s : State) (n : Nat) (l : Launch) : (s.setLaunch n l).routes = s.routes := rfl
@[simp] theorem State.setLaunch_streams (s : State) (n : Nat) (l : Launch) : (s.setLaunch n l).streams = s.streams := rfl
@[simp] theorem State.setLaunch_flash (s : State) (n : Nat) (l : Launch) : (s.setLaunch n l).flash = s.flash := rfl
@[simp] theorem State.setLaunch_journal (s : State) (n : Nat) (l : Launch) : (s.setLaunch n l).journal = s.journal := rfl
@[simp] theorem State.setLaunch_activateDue (s : State) (n : Nat) (l : Launch) : (s.setLaunch n l).activateDue = s.activateDue := rfl
@[simp] theorem State.setLaunch_recordsDue (s : State) (n : Nat) (l : Launch) : (s.setLaunch n l).recordsDue = s.recordsDue := rfl
@[simp] theorem State.setLaunch_records (s : State) (n : Nat) (l : Launch) : (s.setLaunch n l).records = s.records := rfl
@[simp] theorem State.setLaunch_measured (s : State) (n : Nat) (l : Launch) : (s.setLaunch n l).measured = s.measured := rfl
@[simp] theorem State.setLaunch_eslynLost (s : State) (n : Nat) (l : Launch) : (s.setLaunch n l).eslynLost = s.eslynLost := rfl
@[simp] theorem State.setLaunch_domain (s : State) (n : Nat) (l : Launch) : (s.setLaunch n l).domain = s.domain := rfl
@[simp] theorem State.setLaunch_eslynOut (s : State) (n : Nat) (l : Launch) : (s.setLaunch n l).eslynOut = s.eslynOut := rfl
@[simp] theorem State.setLaunch_mhz (s : State) (n : Nat) (l : Launch) : (s.setLaunch n l).mhz = s.mhz := rfl
@[simp] theorem State.setLaunch_mhzNext (s : State) (n : Nat) (l : Launch) : (s.setLaunch n l).mhzNext = s.mhzNext := rfl
@[simp] theorem State.setLaunch_power (s : State) (n : Nat) (l : Launch) : (s.setLaunch n l).power = s.power := rfl
@[simp] theorem State.setLaunch_lowSince (s : State) (n : Nat) (l : Launch) : (s.setLaunch n l).lowSince = s.lowSince := rfl
@[simp] theorem State.setLaunch_stepAt (s : State) (n : Nat) (l : Launch) : (s.setLaunch n l).stepAt = s.stepAt := rfl
@[simp] theorem State.setLaunch_upAt (s : State) (n : Nat) (l : Launch) : (s.setLaunch n l).upAt = s.upAt := rfl
@[simp] theorem State.setLaunch_msix (s : State) (n : Nat) (l : Launch) : (s.setLaunch n l).msix = s.msix := rfl
@[simp] theorem State.setLaunch_spdmOut (s : State) (n : Nat) (l : Launch) : (s.setLaunch n l).spdmOut = s.spdmOut := rfl
@[simp] theorem State.setLaunch_hostReads (s : State) (n : Nat) (l : Launch) : (s.setLaunch n l).hostReads = s.hostReads := rfl
@[simp] theorem State.setLaunch_ticks (s : State) (n : Nat) (l : Launch) : (s.setLaunch n l).ticks = s.ticks := rfl
@[simp] theorem State.setLaunch_frames (s : State) (n : Nat) (l : Launch) : (s.setLaunch n l).frames = s.frames := rfl
@[simp] theorem State.setLaunch_rotatedAt (s : State) (n : Nat) (l : Launch) : (s.setLaunch n l).rotatedAt = s.rotatedAt := rfl

/-! ### State.setQueue -/
@[simp] theorem State.setQueue_schedule (s : State) (n : Nat) (q : Queue) : (s.setQueue n q).schedule = s.schedule := rfl
@[simp] theorem State.setQueue_curCore (s : State) (n : Nat) (q : Queue) : (s.setQueue n q).curCore = s.curCore := rfl
@[simp] theorem State.setQueue_curSlot (s : State) (n : Nat) (q : Queue) : (s.setQueue n q).curSlot = s.curSlot := rfl
@[simp] theorem State.setQueue_stalled (s : State) (n : Nat) (q : Queue) : (s.setQueue n q).stalled = s.stalled := rfl
@[simp] theorem State.setQueue_freeCtr (s : State) (n : Nat) (q : Queue) : (s.setQueue n q).freeCtr = s.freeCtr := rfl
@[simp] theorem State.setQueue_steps (s : State) (n : Nat) (q : Queue) : (s.setQueue n q).steps = s.steps := rfl
@[simp] theorem State.setQueue_clock (s : State) (n : Nat) (q : Queue) : (s.setQueue n q).clock = s.clock := rfl
@[simp] theorem State.setQueue_time (s : State) (n : Nat) (q : Queue) : (s.setQueue n q).time = s.time := rfl
@[simp] theorem State.setQueue_mem (s : State) (n : Nat) (q : Queue) : (s.setQueue n q).mem = s.mem := rfl
@[simp] theorem State.setQueue_memPoison (s : State) (n : Nat) (q : Queue) : (s.setQueue n q).memPoison = s.memPoison := rfl
@[simp] theorem State.setQueue_dirtyPoison (s : State) (n : Nat) (q : Queue) : (s.setQueue n q).dirtyPoison = s.dirtyPoison := rfl
@[simp] theorem State.setQueue_busWrites (s : State) (n : Nat) (q : Queue) : (s.setQueue n q).busWrites = s.busWrites := rfl
@[simp] theorem State.setQueue_cores (s : State) (n : Nat) (q : Queue) : (s.setQueue n q).cores = s.cores := rfl
@[simp] theorem State.setQueue_dies (s : State) (n : Nat) (q : Queue) : (s.setQueue n q).dies = s.dies := rfl
@[simp] theorem State.setQueue_travel (s : State) (n : Nat) (q : Queue) : (s.setQueue n q).travel = s.travel := rfl
@[simp] theorem State.setQueue_launches (s : State) (n : Nat) (q : Queue) : (s.setQueue n q).launches = s.launches := rfl
@[simp] theorem State.setQueue_nextLaunch (s : State) (n : Nat) (q : Queue) : (s.setQueue n q).nextLaunch = s.nextLaunch := rfl
@[simp] theorem State.setQueue_nextOrder (s : State) (n : Nat) (q : Queue) : (s.setQueue n q).nextOrder = s.nextOrder := rfl
@[simp] theorem State.setQueue_nextStamp (s : State) (n : Nat) (q : Queue) : (s.setQueue n q).nextStamp = s.nextStamp := rfl
@[simp] theorem State.setQueue_rrobin (s : State) (n : Nat) (q : Queue) : (s.setQueue n q).rrobin = s.rrobin := rfl
@[simp] theorem State.setQueue_aspaces (s : State) (n : Nat) (q : Queue) : (s.setQueue n q).aspaces = s.aspaces := rfl
@[simp] theorem State.setQueue_genDue (s : State) (n : Nat) (q : Queue) : (s.setQueue n q).genDue = s.genDue := rfl
@[simp] theorem State.setQueue_stokerB (s : State) (n : Nat) (q : Queue) : (s.setQueue n q).stokerB = s.stokerB := rfl
@[simp] theorem State.setQueue_standbyLive (s : State) (n : Nat) (q : Queue) : (s.setQueue n q).standbyLive = s.standbyLive := rfl
@[simp] theorem State.setQueue_standbyReady (s : State) (n : Nat) (q : Queue) : (s.setQueue n q).standbyReady = s.standbyReady := rfl
@[simp] theorem State.setQueue_verActive (s : State) (n : Nat) (q : Queue) : (s.setQueue n q).verActive = s.verActive := rfl
@[simp] theorem State.setQueue_verStandby (s : State) (n : Nat) (q : Queue) : (s.setQueue n q).verStandby = s.verStandby := rfl
@[simp] theorem State.setQueue_window0 (s : State) (n : Nat) (q : Queue) : (s.setQueue n q).window0 = s.window0 := rfl
@[simp] theorem State.setQueue_window1 (s : State) (n : Nat) (q : Queue) : (s.setQueue n q).window1 = s.window1 := rfl
@[simp] theorem State.setQueue_flue (s : State) (n : Nat) (q : Queue) : (s.setQueue n q).flue = s.flue := rfl
@[simp] theorem State.setQueue_routes (s : State) (n : Nat) (q : Queue) : (s.setQueue n q).routes = s.routes := rfl
@[simp] theorem State.setQueue_streams (s : State) (n : Nat) (q : Queue) : (s.setQueue n q).streams = s.streams := rfl
@[simp] theorem State.setQueue_flash (s : State) (n : Nat) (q : Queue) : (s.setQueue n q).flash = s.flash := rfl
@[simp] theorem State.setQueue_journal (s : State) (n : Nat) (q : Queue) : (s.setQueue n q).journal = s.journal := rfl
@[simp] theorem State.setQueue_activateDue (s : State) (n : Nat) (q : Queue) : (s.setQueue n q).activateDue = s.activateDue := rfl
@[simp] theorem State.setQueue_recordsDue (s : State) (n : Nat) (q : Queue) : (s.setQueue n q).recordsDue = s.recordsDue := rfl
@[simp] theorem State.setQueue_records (s : State) (n : Nat) (q : Queue) : (s.setQueue n q).records = s.records := rfl
@[simp] theorem State.setQueue_measured (s : State) (n : Nat) (q : Queue) : (s.setQueue n q).measured = s.measured := rfl
@[simp] theorem State.setQueue_eslynLost (s : State) (n : Nat) (q : Queue) : (s.setQueue n q).eslynLost = s.eslynLost := rfl
@[simp] theorem State.setQueue_domain (s : State) (n : Nat) (q : Queue) : (s.setQueue n q).domain = s.domain := rfl
@[simp] theorem State.setQueue_eslynOut (s : State) (n : Nat) (q : Queue) : (s.setQueue n q).eslynOut = s.eslynOut := rfl
@[simp] theorem State.setQueue_mhz (s : State) (n : Nat) (q : Queue) : (s.setQueue n q).mhz = s.mhz := rfl
@[simp] theorem State.setQueue_mhzNext (s : State) (n : Nat) (q : Queue) : (s.setQueue n q).mhzNext = s.mhzNext := rfl
@[simp] theorem State.setQueue_power (s : State) (n : Nat) (q : Queue) : (s.setQueue n q).power = s.power := rfl
@[simp] theorem State.setQueue_lowSince (s : State) (n : Nat) (q : Queue) : (s.setQueue n q).lowSince = s.lowSince := rfl
@[simp] theorem State.setQueue_stepAt (s : State) (n : Nat) (q : Queue) : (s.setQueue n q).stepAt = s.stepAt := rfl
@[simp] theorem State.setQueue_upAt (s : State) (n : Nat) (q : Queue) : (s.setQueue n q).upAt = s.upAt := rfl
@[simp] theorem State.setQueue_msix (s : State) (n : Nat) (q : Queue) : (s.setQueue n q).msix = s.msix := rfl
@[simp] theorem State.setQueue_spdmOut (s : State) (n : Nat) (q : Queue) : (s.setQueue n q).spdmOut = s.spdmOut := rfl
@[simp] theorem State.setQueue_hostReads (s : State) (n : Nat) (q : Queue) : (s.setQueue n q).hostReads = s.hostReads := rfl
@[simp] theorem State.setQueue_ticks (s : State) (n : Nat) (q : Queue) : (s.setQueue n q).ticks = s.ticks := rfl
@[simp] theorem State.setQueue_frames (s : State) (n : Nat) (q : Queue) : (s.setQueue n q).frames = s.frames := rfl
@[simp] theorem State.setQueue_rotatedAt (s : State) (n : Nat) (q : Queue) : (s.setQueue n q).rotatedAt = s.rotatedAt := rfl

/-! ### State.finish -/
@[simp] theorem State.finish_schedule (s : State) (a : Word) : (s.finish a).schedule = s.schedule := rfl
@[simp] theorem State.finish_curCore (s : State) (a : Word) : (s.finish a).curCore = s.curCore := rfl
@[simp] theorem State.finish_curSlot (s : State) (a : Word) : (s.finish a).curSlot = s.curSlot := rfl
@[simp] theorem State.finish_stalled (s : State) (a : Word) : (s.finish a).stalled = s.stalled := rfl
@[simp] theorem State.finish_freeCtr (s : State) (a : Word) : (s.finish a).freeCtr = s.freeCtr := rfl
@[simp] theorem State.finish_steps (s : State) (a : Word) : (s.finish a).steps = s.steps := rfl
@[simp] theorem State.finish_clock (s : State) (a : Word) : (s.finish a).clock = s.clock := rfl
@[simp] theorem State.finish_time (s : State) (a : Word) : (s.finish a).time = s.time := rfl
@[simp] theorem State.finish_mem (s : State) (a : Word) : (s.finish a).mem = s.mem := rfl
@[simp] theorem State.finish_memPoison (s : State) (a : Word) : (s.finish a).memPoison = s.memPoison := rfl
@[simp] theorem State.finish_dirtyPoison (s : State) (a : Word) : (s.finish a).dirtyPoison = s.dirtyPoison := rfl
@[simp] theorem State.finish_busWrites (s : State) (a : Word) : (s.finish a).busWrites = s.busWrites := rfl
@[simp] theorem State.finish_dies (s : State) (a : Word) : (s.finish a).dies = s.dies := rfl
@[simp] theorem State.finish_travel (s : State) (a : Word) : (s.finish a).travel = s.travel := rfl
@[simp] theorem State.finish_launches (s : State) (a : Word) : (s.finish a).launches = s.launches := rfl
@[simp] theorem State.finish_nextLaunch (s : State) (a : Word) : (s.finish a).nextLaunch = s.nextLaunch := rfl
@[simp] theorem State.finish_nextOrder (s : State) (a : Word) : (s.finish a).nextOrder = s.nextOrder := rfl
@[simp] theorem State.finish_nextStamp (s : State) (a : Word) : (s.finish a).nextStamp = s.nextStamp := rfl
@[simp] theorem State.finish_queues (s : State) (a : Word) : (s.finish a).queues = s.queues := rfl
@[simp] theorem State.finish_rrobin (s : State) (a : Word) : (s.finish a).rrobin = s.rrobin := rfl
@[simp] theorem State.finish_aspaces (s : State) (a : Word) : (s.finish a).aspaces = s.aspaces := rfl
@[simp] theorem State.finish_genDue (s : State) (a : Word) : (s.finish a).genDue = s.genDue := rfl
@[simp] theorem State.finish_stokerB (s : State) (a : Word) : (s.finish a).stokerB = s.stokerB := rfl
@[simp] theorem State.finish_standbyLive (s : State) (a : Word) : (s.finish a).standbyLive = s.standbyLive := rfl
@[simp] theorem State.finish_standbyReady (s : State) (a : Word) : (s.finish a).standbyReady = s.standbyReady := rfl
@[simp] theorem State.finish_verActive (s : State) (a : Word) : (s.finish a).verActive = s.verActive := rfl
@[simp] theorem State.finish_verStandby (s : State) (a : Word) : (s.finish a).verStandby = s.verStandby := rfl
@[simp] theorem State.finish_window0 (s : State) (a : Word) : (s.finish a).window0 = s.window0 := rfl
@[simp] theorem State.finish_window1 (s : State) (a : Word) : (s.finish a).window1 = s.window1 := rfl
@[simp] theorem State.finish_flue (s : State) (a : Word) : (s.finish a).flue = s.flue := rfl
@[simp] theorem State.finish_routes (s : State) (a : Word) : (s.finish a).routes = s.routes := rfl
@[simp] theorem State.finish_streams (s : State) (a : Word) : (s.finish a).streams = s.streams := rfl
@[simp] theorem State.finish_flash (s : State) (a : Word) : (s.finish a).flash = s.flash := rfl
@[simp] theorem State.finish_journal (s : State) (a : Word) : (s.finish a).journal = s.journal := rfl
@[simp] theorem State.finish_activateDue (s : State) (a : Word) : (s.finish a).activateDue = s.activateDue := rfl
@[simp] theorem State.finish_recordsDue (s : State) (a : Word) : (s.finish a).recordsDue = s.recordsDue := rfl
@[simp] theorem State.finish_records (s : State) (a : Word) : (s.finish a).records = s.records := rfl
@[simp] theorem State.finish_measured (s : State) (a : Word) : (s.finish a).measured = s.measured := rfl
@[simp] theorem State.finish_eslynLost (s : State) (a : Word) : (s.finish a).eslynLost = s.eslynLost := rfl
@[simp] theorem State.finish_domain (s : State) (a : Word) : (s.finish a).domain = s.domain := rfl
@[simp] theorem State.finish_eslynOut (s : State) (a : Word) : (s.finish a).eslynOut = s.eslynOut := rfl
@[simp] theorem State.finish_mhz (s : State) (a : Word) : (s.finish a).mhz = s.mhz := rfl
@[simp] theorem State.finish_mhzNext (s : State) (a : Word) : (s.finish a).mhzNext = s.mhzNext := rfl
@[simp] theorem State.finish_power (s : State) (a : Word) : (s.finish a).power = s.power := rfl
@[simp] theorem State.finish_lowSince (s : State) (a : Word) : (s.finish a).lowSince = s.lowSince := rfl
@[simp] theorem State.finish_stepAt (s : State) (a : Word) : (s.finish a).stepAt = s.stepAt := rfl
@[simp] theorem State.finish_upAt (s : State) (a : Word) : (s.finish a).upAt = s.upAt := rfl
@[simp] theorem State.finish_msix (s : State) (a : Word) : (s.finish a).msix = s.msix := rfl
@[simp] theorem State.finish_spdmOut (s : State) (a : Word) : (s.finish a).spdmOut = s.spdmOut := rfl
@[simp] theorem State.finish_hostReads (s : State) (a : Word) : (s.finish a).hostReads = s.hostReads := rfl
@[simp] theorem State.finish_ticks (s : State) (a : Word) : (s.finish a).ticks = s.ticks := rfl
@[simp] theorem State.finish_frames (s : State) (a : Word) : (s.finish a).frames = s.frames := rfl
@[simp] theorem State.finish_rotatedAt (s : State) (a : Word) : (s.finish a).rotatedAt = s.rotatedAt := rfl

/-! ### State.finishW -/
@[simp] theorem State.finishW_schedule (s : State) (w : Warp) (a : Word) : (s.finishW w a).schedule = s.schedule := rfl
@[simp] theorem State.finishW_curCore (s : State) (w : Warp) (a : Word) : (s.finishW w a).curCore = s.curCore := rfl
@[simp] theorem State.finishW_curSlot (s : State) (w : Warp) (a : Word) : (s.finishW w a).curSlot = s.curSlot := rfl
@[simp] theorem State.finishW_stalled (s : State) (w : Warp) (a : Word) : (s.finishW w a).stalled = s.stalled := rfl
@[simp] theorem State.finishW_freeCtr (s : State) (w : Warp) (a : Word) : (s.finishW w a).freeCtr = s.freeCtr := rfl
@[simp] theorem State.finishW_steps (s : State) (w : Warp) (a : Word) : (s.finishW w a).steps = s.steps := rfl
@[simp] theorem State.finishW_clock (s : State) (w : Warp) (a : Word) : (s.finishW w a).clock = s.clock := rfl
@[simp] theorem State.finishW_time (s : State) (w : Warp) (a : Word) : (s.finishW w a).time = s.time := rfl
@[simp] theorem State.finishW_mem (s : State) (w : Warp) (a : Word) : (s.finishW w a).mem = s.mem := rfl
@[simp] theorem State.finishW_memPoison (s : State) (w : Warp) (a : Word) : (s.finishW w a).memPoison = s.memPoison := rfl
@[simp] theorem State.finishW_dirtyPoison (s : State) (w : Warp) (a : Word) : (s.finishW w a).dirtyPoison = s.dirtyPoison := rfl
@[simp] theorem State.finishW_busWrites (s : State) (w : Warp) (a : Word) : (s.finishW w a).busWrites = s.busWrites := rfl
@[simp] theorem State.finishW_dies (s : State) (w : Warp) (a : Word) : (s.finishW w a).dies = s.dies := rfl
@[simp] theorem State.finishW_travel (s : State) (w : Warp) (a : Word) : (s.finishW w a).travel = s.travel := rfl
@[simp] theorem State.finishW_launches (s : State) (w : Warp) (a : Word) : (s.finishW w a).launches = s.launches := rfl
@[simp] theorem State.finishW_nextLaunch (s : State) (w : Warp) (a : Word) : (s.finishW w a).nextLaunch = s.nextLaunch := rfl
@[simp] theorem State.finishW_nextOrder (s : State) (w : Warp) (a : Word) : (s.finishW w a).nextOrder = s.nextOrder := rfl
@[simp] theorem State.finishW_nextStamp (s : State) (w : Warp) (a : Word) : (s.finishW w a).nextStamp = s.nextStamp := rfl
@[simp] theorem State.finishW_queues (s : State) (w : Warp) (a : Word) : (s.finishW w a).queues = s.queues := rfl
@[simp] theorem State.finishW_rrobin (s : State) (w : Warp) (a : Word) : (s.finishW w a).rrobin = s.rrobin := rfl
@[simp] theorem State.finishW_aspaces (s : State) (w : Warp) (a : Word) : (s.finishW w a).aspaces = s.aspaces := rfl
@[simp] theorem State.finishW_genDue (s : State) (w : Warp) (a : Word) : (s.finishW w a).genDue = s.genDue := rfl
@[simp] theorem State.finishW_stokerB (s : State) (w : Warp) (a : Word) : (s.finishW w a).stokerB = s.stokerB := rfl
@[simp] theorem State.finishW_standbyLive (s : State) (w : Warp) (a : Word) : (s.finishW w a).standbyLive = s.standbyLive := rfl
@[simp] theorem State.finishW_standbyReady (s : State) (w : Warp) (a : Word) : (s.finishW w a).standbyReady = s.standbyReady := rfl
@[simp] theorem State.finishW_verActive (s : State) (w : Warp) (a : Word) : (s.finishW w a).verActive = s.verActive := rfl
@[simp] theorem State.finishW_verStandby (s : State) (w : Warp) (a : Word) : (s.finishW w a).verStandby = s.verStandby := rfl
@[simp] theorem State.finishW_window0 (s : State) (w : Warp) (a : Word) : (s.finishW w a).window0 = s.window0 := rfl
@[simp] theorem State.finishW_window1 (s : State) (w : Warp) (a : Word) : (s.finishW w a).window1 = s.window1 := rfl
@[simp] theorem State.finishW_flue (s : State) (w : Warp) (a : Word) : (s.finishW w a).flue = s.flue := rfl
@[simp] theorem State.finishW_routes (s : State) (w : Warp) (a : Word) : (s.finishW w a).routes = s.routes := rfl
@[simp] theorem State.finishW_streams (s : State) (w : Warp) (a : Word) : (s.finishW w a).streams = s.streams := rfl
@[simp] theorem State.finishW_flash (s : State) (w : Warp) (a : Word) : (s.finishW w a).flash = s.flash := rfl
@[simp] theorem State.finishW_journal (s : State) (w : Warp) (a : Word) : (s.finishW w a).journal = s.journal := rfl
@[simp] theorem State.finishW_activateDue (s : State) (w : Warp) (a : Word) : (s.finishW w a).activateDue = s.activateDue := rfl
@[simp] theorem State.finishW_recordsDue (s : State) (w : Warp) (a : Word) : (s.finishW w a).recordsDue = s.recordsDue := rfl
@[simp] theorem State.finishW_records (s : State) (w : Warp) (a : Word) : (s.finishW w a).records = s.records := rfl
@[simp] theorem State.finishW_measured (s : State) (w : Warp) (a : Word) : (s.finishW w a).measured = s.measured := rfl
@[simp] theorem State.finishW_eslynLost (s : State) (w : Warp) (a : Word) : (s.finishW w a).eslynLost = s.eslynLost := rfl
@[simp] theorem State.finishW_domain (s : State) (w : Warp) (a : Word) : (s.finishW w a).domain = s.domain := rfl
@[simp] theorem State.finishW_eslynOut (s : State) (w : Warp) (a : Word) : (s.finishW w a).eslynOut = s.eslynOut := rfl
@[simp] theorem State.finishW_mhz (s : State) (w : Warp) (a : Word) : (s.finishW w a).mhz = s.mhz := rfl
@[simp] theorem State.finishW_mhzNext (s : State) (w : Warp) (a : Word) : (s.finishW w a).mhzNext = s.mhzNext := rfl
@[simp] theorem State.finishW_power (s : State) (w : Warp) (a : Word) : (s.finishW w a).power = s.power := rfl
@[simp] theorem State.finishW_lowSince (s : State) (w : Warp) (a : Word) : (s.finishW w a).lowSince = s.lowSince := rfl
@[simp] theorem State.finishW_stepAt (s : State) (w : Warp) (a : Word) : (s.finishW w a).stepAt = s.stepAt := rfl
@[simp] theorem State.finishW_upAt (s : State) (w : Warp) (a : Word) : (s.finishW w a).upAt = s.upAt := rfl
@[simp] theorem State.finishW_msix (s : State) (w : Warp) (a : Word) : (s.finishW w a).msix = s.msix := rfl
@[simp] theorem State.finishW_spdmOut (s : State) (w : Warp) (a : Word) : (s.finishW w a).spdmOut = s.spdmOut := rfl
@[simp] theorem State.finishW_hostReads (s : State) (w : Warp) (a : Word) : (s.finishW w a).hostReads = s.hostReads := rfl
@[simp] theorem State.finishW_ticks (s : State) (w : Warp) (a : Word) : (s.finishW w a).ticks = s.ticks := rfl
@[simp] theorem State.finishW_frames (s : State) (w : Warp) (a : Word) : (s.finishW w a).frames = s.frames := rfl
@[simp] theorem State.finishW_rotatedAt (s : State) (w : Warp) (a : Word) : (s.finishW w a).rotatedAt = s.rotatedAt := rfl

/-! ### State.noteStall -/
@[simp] theorem State.noteStall_schedule (s : State) : (s.noteStall).schedule = s.schedule := rfl
@[simp] theorem State.noteStall_curCore (s : State) : (s.noteStall).curCore = s.curCore := rfl
@[simp] theorem State.noteStall_curSlot (s : State) : (s.noteStall).curSlot = s.curSlot := rfl
@[simp] theorem State.noteStall_freeCtr (s : State) : (s.noteStall).freeCtr = s.freeCtr := rfl
@[simp] theorem State.noteStall_steps (s : State) : (s.noteStall).steps = s.steps := rfl
@[simp] theorem State.noteStall_clock (s : State) : (s.noteStall).clock = s.clock := rfl
@[simp] theorem State.noteStall_time (s : State) : (s.noteStall).time = s.time := rfl
@[simp] theorem State.noteStall_mem (s : State) : (s.noteStall).mem = s.mem := rfl
@[simp] theorem State.noteStall_memPoison (s : State) : (s.noteStall).memPoison = s.memPoison := rfl
@[simp] theorem State.noteStall_dirtyPoison (s : State) : (s.noteStall).dirtyPoison = s.dirtyPoison := rfl
@[simp] theorem State.noteStall_busWrites (s : State) : (s.noteStall).busWrites = s.busWrites := rfl
@[simp] theorem State.noteStall_cores (s : State) : (s.noteStall).cores = s.cores := rfl
@[simp] theorem State.noteStall_dies (s : State) : (s.noteStall).dies = s.dies := rfl
@[simp] theorem State.noteStall_travel (s : State) : (s.noteStall).travel = s.travel := rfl
@[simp] theorem State.noteStall_launches (s : State) : (s.noteStall).launches = s.launches := rfl
@[simp] theorem State.noteStall_nextLaunch (s : State) : (s.noteStall).nextLaunch = s.nextLaunch := rfl
@[simp] theorem State.noteStall_nextOrder (s : State) : (s.noteStall).nextOrder = s.nextOrder := rfl
@[simp] theorem State.noteStall_nextStamp (s : State) : (s.noteStall).nextStamp = s.nextStamp := rfl
@[simp] theorem State.noteStall_queues (s : State) : (s.noteStall).queues = s.queues := rfl
@[simp] theorem State.noteStall_rrobin (s : State) : (s.noteStall).rrobin = s.rrobin := rfl
@[simp] theorem State.noteStall_aspaces (s : State) : (s.noteStall).aspaces = s.aspaces := rfl
@[simp] theorem State.noteStall_genDue (s : State) : (s.noteStall).genDue = s.genDue := rfl
@[simp] theorem State.noteStall_stokerB (s : State) : (s.noteStall).stokerB = s.stokerB := rfl
@[simp] theorem State.noteStall_standbyLive (s : State) : (s.noteStall).standbyLive = s.standbyLive := rfl
@[simp] theorem State.noteStall_standbyReady (s : State) : (s.noteStall).standbyReady = s.standbyReady := rfl
@[simp] theorem State.noteStall_verActive (s : State) : (s.noteStall).verActive = s.verActive := rfl
@[simp] theorem State.noteStall_verStandby (s : State) : (s.noteStall).verStandby = s.verStandby := rfl
@[simp] theorem State.noteStall_window0 (s : State) : (s.noteStall).window0 = s.window0 := rfl
@[simp] theorem State.noteStall_window1 (s : State) : (s.noteStall).window1 = s.window1 := rfl
@[simp] theorem State.noteStall_flue (s : State) : (s.noteStall).flue = s.flue := rfl
@[simp] theorem State.noteStall_routes (s : State) : (s.noteStall).routes = s.routes := rfl
@[simp] theorem State.noteStall_streams (s : State) : (s.noteStall).streams = s.streams := rfl
@[simp] theorem State.noteStall_flash (s : State) : (s.noteStall).flash = s.flash := rfl
@[simp] theorem State.noteStall_journal (s : State) : (s.noteStall).journal = s.journal := rfl
@[simp] theorem State.noteStall_activateDue (s : State) : (s.noteStall).activateDue = s.activateDue := rfl
@[simp] theorem State.noteStall_recordsDue (s : State) : (s.noteStall).recordsDue = s.recordsDue := rfl
@[simp] theorem State.noteStall_records (s : State) : (s.noteStall).records = s.records := rfl
@[simp] theorem State.noteStall_measured (s : State) : (s.noteStall).measured = s.measured := rfl
@[simp] theorem State.noteStall_eslynLost (s : State) : (s.noteStall).eslynLost = s.eslynLost := rfl
@[simp] theorem State.noteStall_domain (s : State) : (s.noteStall).domain = s.domain := rfl
@[simp] theorem State.noteStall_eslynOut (s : State) : (s.noteStall).eslynOut = s.eslynOut := rfl
@[simp] theorem State.noteStall_mhz (s : State) : (s.noteStall).mhz = s.mhz := rfl
@[simp] theorem State.noteStall_mhzNext (s : State) : (s.noteStall).mhzNext = s.mhzNext := rfl
@[simp] theorem State.noteStall_power (s : State) : (s.noteStall).power = s.power := rfl
@[simp] theorem State.noteStall_lowSince (s : State) : (s.noteStall).lowSince = s.lowSince := rfl
@[simp] theorem State.noteStall_stepAt (s : State) : (s.noteStall).stepAt = s.stepAt := rfl
@[simp] theorem State.noteStall_upAt (s : State) : (s.noteStall).upAt = s.upAt := rfl
@[simp] theorem State.noteStall_msix (s : State) : (s.noteStall).msix = s.msix := rfl
@[simp] theorem State.noteStall_spdmOut (s : State) : (s.noteStall).spdmOut = s.spdmOut := rfl
@[simp] theorem State.noteStall_hostReads (s : State) : (s.noteStall).hostReads = s.hostReads := rfl
@[simp] theorem State.noteStall_ticks (s : State) : (s.noteStall).ticks = s.ticks := rfl
@[simp] theorem State.noteStall_frames (s : State) : (s.noteStall).frames = s.frames := rfl
@[simp] theorem State.noteStall_rotatedAt (s : State) : (s.noteStall).rotatedAt = s.rotatedAt := rfl

/-! ### State.writePhys -/
@[simp] theorem State.writePhys_schedule (s : State) (pa : Nat) (b : List Byte) : (s.writePhys pa b).schedule = s.schedule := by unfold State.writePhys; split <;> rfl
@[simp] theorem State.writePhys_curCore (s : State) (pa : Nat) (b : List Byte) : (s.writePhys pa b).curCore = s.curCore := by unfold State.writePhys; split <;> rfl
@[simp] theorem State.writePhys_curSlot (s : State) (pa : Nat) (b : List Byte) : (s.writePhys pa b).curSlot = s.curSlot := by unfold State.writePhys; split <;> rfl
@[simp] theorem State.writePhys_stalled (s : State) (pa : Nat) (b : List Byte) : (s.writePhys pa b).stalled = s.stalled := by unfold State.writePhys; split <;> rfl
@[simp] theorem State.writePhys_freeCtr (s : State) (pa : Nat) (b : List Byte) : (s.writePhys pa b).freeCtr = s.freeCtr := by unfold State.writePhys; split <;> rfl
@[simp] theorem State.writePhys_steps (s : State) (pa : Nat) (b : List Byte) : (s.writePhys pa b).steps = s.steps := by unfold State.writePhys; split <;> rfl
@[simp] theorem State.writePhys_clock (s : State) (pa : Nat) (b : List Byte) : (s.writePhys pa b).clock = s.clock := by unfold State.writePhys; split <;> rfl
@[simp] theorem State.writePhys_time (s : State) (pa : Nat) (b : List Byte) : (s.writePhys pa b).time = s.time := by unfold State.writePhys; split <;> rfl
@[simp] theorem State.writePhys_cores (s : State) (pa : Nat) (b : List Byte) : (s.writePhys pa b).cores = s.cores := by unfold State.writePhys; split <;> rfl
@[simp] theorem State.writePhys_dies (s : State) (pa : Nat) (b : List Byte) : (s.writePhys pa b).dies = s.dies := by unfold State.writePhys; split <;> rfl
@[simp] theorem State.writePhys_travel (s : State) (pa : Nat) (b : List Byte) : (s.writePhys pa b).travel = s.travel := by unfold State.writePhys; split <;> rfl
@[simp] theorem State.writePhys_launches (s : State) (pa : Nat) (b : List Byte) : (s.writePhys pa b).launches = s.launches := by unfold State.writePhys; split <;> rfl
@[simp] theorem State.writePhys_nextLaunch (s : State) (pa : Nat) (b : List Byte) : (s.writePhys pa b).nextLaunch = s.nextLaunch := by unfold State.writePhys; split <;> rfl
@[simp] theorem State.writePhys_nextOrder (s : State) (pa : Nat) (b : List Byte) : (s.writePhys pa b).nextOrder = s.nextOrder := by unfold State.writePhys; split <;> rfl
@[simp] theorem State.writePhys_nextStamp (s : State) (pa : Nat) (b : List Byte) : (s.writePhys pa b).nextStamp = s.nextStamp := by unfold State.writePhys; split <;> rfl
@[simp] theorem State.writePhys_queues (s : State) (pa : Nat) (b : List Byte) : (s.writePhys pa b).queues = s.queues := by unfold State.writePhys; split <;> rfl
@[simp] theorem State.writePhys_rrobin (s : State) (pa : Nat) (b : List Byte) : (s.writePhys pa b).rrobin = s.rrobin := by unfold State.writePhys; split <;> rfl
@[simp] theorem State.writePhys_aspaces (s : State) (pa : Nat) (b : List Byte) : (s.writePhys pa b).aspaces = s.aspaces := by unfold State.writePhys; split <;> rfl
@[simp] theorem State.writePhys_genDue (s : State) (pa : Nat) (b : List Byte) : (s.writePhys pa b).genDue = s.genDue := by unfold State.writePhys; split <;> rfl
@[simp] theorem State.writePhys_stokerB (s : State) (pa : Nat) (b : List Byte) : (s.writePhys pa b).stokerB = s.stokerB := by unfold State.writePhys; split <;> rfl
@[simp] theorem State.writePhys_standbyLive (s : State) (pa : Nat) (b : List Byte) : (s.writePhys pa b).standbyLive = s.standbyLive := by unfold State.writePhys; split <;> rfl
@[simp] theorem State.writePhys_standbyReady (s : State) (pa : Nat) (b : List Byte) : (s.writePhys pa b).standbyReady = s.standbyReady := by unfold State.writePhys; split <;> rfl
@[simp] theorem State.writePhys_verActive (s : State) (pa : Nat) (b : List Byte) : (s.writePhys pa b).verActive = s.verActive := by unfold State.writePhys; split <;> rfl
@[simp] theorem State.writePhys_verStandby (s : State) (pa : Nat) (b : List Byte) : (s.writePhys pa b).verStandby = s.verStandby := by unfold State.writePhys; split <;> rfl
@[simp] theorem State.writePhys_window0 (s : State) (pa : Nat) (b : List Byte) : (s.writePhys pa b).window0 = s.window0 := by unfold State.writePhys; split <;> rfl
@[simp] theorem State.writePhys_window1 (s : State) (pa : Nat) (b : List Byte) : (s.writePhys pa b).window1 = s.window1 := by unfold State.writePhys; split <;> rfl
@[simp] theorem State.writePhys_flue (s : State) (pa : Nat) (b : List Byte) : (s.writePhys pa b).flue = s.flue := by unfold State.writePhys; split <;> rfl
@[simp] theorem State.writePhys_routes (s : State) (pa : Nat) (b : List Byte) : (s.writePhys pa b).routes = s.routes := by unfold State.writePhys; split <;> rfl
@[simp] theorem State.writePhys_streams (s : State) (pa : Nat) (b : List Byte) : (s.writePhys pa b).streams = s.streams := by unfold State.writePhys; split <;> rfl
@[simp] theorem State.writePhys_flash (s : State) (pa : Nat) (b : List Byte) : (s.writePhys pa b).flash = s.flash := by unfold State.writePhys; split <;> rfl
@[simp] theorem State.writePhys_journal (s : State) (pa : Nat) (b : List Byte) : (s.writePhys pa b).journal = s.journal := by unfold State.writePhys; split <;> rfl
@[simp] theorem State.writePhys_activateDue (s : State) (pa : Nat) (b : List Byte) : (s.writePhys pa b).activateDue = s.activateDue := by unfold State.writePhys; split <;> rfl
@[simp] theorem State.writePhys_recordsDue (s : State) (pa : Nat) (b : List Byte) : (s.writePhys pa b).recordsDue = s.recordsDue := by unfold State.writePhys; split <;> rfl
@[simp] theorem State.writePhys_records (s : State) (pa : Nat) (b : List Byte) : (s.writePhys pa b).records = s.records := by unfold State.writePhys; split <;> rfl
@[simp] theorem State.writePhys_measured (s : State) (pa : Nat) (b : List Byte) : (s.writePhys pa b).measured = s.measured := by unfold State.writePhys; split <;> rfl
@[simp] theorem State.writePhys_eslynLost (s : State) (pa : Nat) (b : List Byte) : (s.writePhys pa b).eslynLost = s.eslynLost := by unfold State.writePhys; split <;> rfl
@[simp] theorem State.writePhys_domain (s : State) (pa : Nat) (b : List Byte) : (s.writePhys pa b).domain = s.domain := by unfold State.writePhys; split <;> rfl
@[simp] theorem State.writePhys_eslynOut (s : State) (pa : Nat) (b : List Byte) : (s.writePhys pa b).eslynOut = s.eslynOut := by unfold State.writePhys; split <;> rfl
@[simp] theorem State.writePhys_mhz (s : State) (pa : Nat) (b : List Byte) : (s.writePhys pa b).mhz = s.mhz := by unfold State.writePhys; split <;> rfl
@[simp] theorem State.writePhys_mhzNext (s : State) (pa : Nat) (b : List Byte) : (s.writePhys pa b).mhzNext = s.mhzNext := by unfold State.writePhys; split <;> rfl
@[simp] theorem State.writePhys_power (s : State) (pa : Nat) (b : List Byte) : (s.writePhys pa b).power = s.power := by unfold State.writePhys; split <;> rfl
@[simp] theorem State.writePhys_lowSince (s : State) (pa : Nat) (b : List Byte) : (s.writePhys pa b).lowSince = s.lowSince := by unfold State.writePhys; split <;> rfl
@[simp] theorem State.writePhys_stepAt (s : State) (pa : Nat) (b : List Byte) : (s.writePhys pa b).stepAt = s.stepAt := by unfold State.writePhys; split <;> rfl
@[simp] theorem State.writePhys_upAt (s : State) (pa : Nat) (b : List Byte) : (s.writePhys pa b).upAt = s.upAt := by unfold State.writePhys; split <;> rfl
@[simp] theorem State.writePhys_msix (s : State) (pa : Nat) (b : List Byte) : (s.writePhys pa b).msix = s.msix := by unfold State.writePhys; split <;> rfl
@[simp] theorem State.writePhys_spdmOut (s : State) (pa : Nat) (b : List Byte) : (s.writePhys pa b).spdmOut = s.spdmOut := by unfold State.writePhys; split <;> rfl
@[simp] theorem State.writePhys_hostReads (s : State) (pa : Nat) (b : List Byte) : (s.writePhys pa b).hostReads = s.hostReads := by unfold State.writePhys; split <;> rfl
@[simp] theorem State.writePhys_ticks (s : State) (pa : Nat) (b : List Byte) : (s.writePhys pa b).ticks = s.ticks := by unfold State.writePhys; split <;> rfl
@[simp] theorem State.writePhys_frames (s : State) (pa : Nat) (b : List Byte) : (s.writePhys pa b).frames = s.frames := by unfold State.writePhys; split <;> rfl
@[simp] theorem State.writePhys_rotatedAt (s : State) (pa : Nat) (b : List Byte) : (s.writePhys pa b).rotatedAt = s.rotatedAt := by unfold State.writePhys; split <;> rfl

/-! ### State.sendWrite -/
@[simp] theorem State.sendWrite_schedule (s : State) (pa : Nat) (b : List Byte) : (s.sendWrite pa b).schedule = s.schedule := by unfold State.sendWrite; split <;> simp
@[simp] theorem State.sendWrite_curCore (s : State) (pa : Nat) (b : List Byte) : (s.sendWrite pa b).curCore = s.curCore := by unfold State.sendWrite; split <;> simp
@[simp] theorem State.sendWrite_curSlot (s : State) (pa : Nat) (b : List Byte) : (s.sendWrite pa b).curSlot = s.curSlot := by unfold State.sendWrite; split <;> simp
@[simp] theorem State.sendWrite_stalled (s : State) (pa : Nat) (b : List Byte) : (s.sendWrite pa b).stalled = s.stalled := by unfold State.sendWrite; split <;> simp
@[simp] theorem State.sendWrite_freeCtr (s : State) (pa : Nat) (b : List Byte) : (s.sendWrite pa b).freeCtr = s.freeCtr := by unfold State.sendWrite; split <;> simp
@[simp] theorem State.sendWrite_steps (s : State) (pa : Nat) (b : List Byte) : (s.sendWrite pa b).steps = s.steps := by unfold State.sendWrite; split <;> simp
@[simp] theorem State.sendWrite_clock (s : State) (pa : Nat) (b : List Byte) : (s.sendWrite pa b).clock = s.clock := by unfold State.sendWrite; split <;> simp
@[simp] theorem State.sendWrite_time (s : State) (pa : Nat) (b : List Byte) : (s.sendWrite pa b).time = s.time := by unfold State.sendWrite; split <;> simp
@[simp] theorem State.sendWrite_cores (s : State) (pa : Nat) (b : List Byte) : (s.sendWrite pa b).cores = s.cores := by unfold State.sendWrite; split <;> simp
@[simp] theorem State.sendWrite_dies (s : State) (pa : Nat) (b : List Byte) : (s.sendWrite pa b).dies = s.dies := by unfold State.sendWrite; split <;> simp
@[simp] theorem State.sendWrite_travel (s : State) (pa : Nat) (b : List Byte) : (s.sendWrite pa b).travel = s.travel := by unfold State.sendWrite; split <;> simp
@[simp] theorem State.sendWrite_launches (s : State) (pa : Nat) (b : List Byte) : (s.sendWrite pa b).launches = s.launches := by unfold State.sendWrite; split <;> simp
@[simp] theorem State.sendWrite_nextLaunch (s : State) (pa : Nat) (b : List Byte) : (s.sendWrite pa b).nextLaunch = s.nextLaunch := by unfold State.sendWrite; split <;> simp
@[simp] theorem State.sendWrite_nextOrder (s : State) (pa : Nat) (b : List Byte) : (s.sendWrite pa b).nextOrder = s.nextOrder := by unfold State.sendWrite; split <;> simp
@[simp] theorem State.sendWrite_nextStamp (s : State) (pa : Nat) (b : List Byte) : (s.sendWrite pa b).nextStamp = s.nextStamp := by unfold State.sendWrite; split <;> simp
@[simp] theorem State.sendWrite_queues (s : State) (pa : Nat) (b : List Byte) : (s.sendWrite pa b).queues = s.queues := by unfold State.sendWrite; split <;> simp
@[simp] theorem State.sendWrite_rrobin (s : State) (pa : Nat) (b : List Byte) : (s.sendWrite pa b).rrobin = s.rrobin := by unfold State.sendWrite; split <;> simp
@[simp] theorem State.sendWrite_aspaces (s : State) (pa : Nat) (b : List Byte) : (s.sendWrite pa b).aspaces = s.aspaces := by unfold State.sendWrite; split <;> simp
@[simp] theorem State.sendWrite_genDue (s : State) (pa : Nat) (b : List Byte) : (s.sendWrite pa b).genDue = s.genDue := by unfold State.sendWrite; split <;> simp
@[simp] theorem State.sendWrite_stokerB (s : State) (pa : Nat) (b : List Byte) : (s.sendWrite pa b).stokerB = s.stokerB := by unfold State.sendWrite; split <;> simp
@[simp] theorem State.sendWrite_standbyLive (s : State) (pa : Nat) (b : List Byte) : (s.sendWrite pa b).standbyLive = s.standbyLive := by unfold State.sendWrite; split <;> simp
@[simp] theorem State.sendWrite_standbyReady (s : State) (pa : Nat) (b : List Byte) : (s.sendWrite pa b).standbyReady = s.standbyReady := by unfold State.sendWrite; split <;> simp
@[simp] theorem State.sendWrite_verActive (s : State) (pa : Nat) (b : List Byte) : (s.sendWrite pa b).verActive = s.verActive := by unfold State.sendWrite; split <;> simp
@[simp] theorem State.sendWrite_verStandby (s : State) (pa : Nat) (b : List Byte) : (s.sendWrite pa b).verStandby = s.verStandby := by unfold State.sendWrite; split <;> simp
@[simp] theorem State.sendWrite_window0 (s : State) (pa : Nat) (b : List Byte) : (s.sendWrite pa b).window0 = s.window0 := by unfold State.sendWrite; split <;> simp
@[simp] theorem State.sendWrite_window1 (s : State) (pa : Nat) (b : List Byte) : (s.sendWrite pa b).window1 = s.window1 := by unfold State.sendWrite; split <;> simp
@[simp] theorem State.sendWrite_flue (s : State) (pa : Nat) (b : List Byte) : (s.sendWrite pa b).flue = s.flue := by unfold State.sendWrite; split <;> simp
@[simp] theorem State.sendWrite_routes (s : State) (pa : Nat) (b : List Byte) : (s.sendWrite pa b).routes = s.routes := by unfold State.sendWrite; split <;> simp
@[simp] theorem State.sendWrite_streams (s : State) (pa : Nat) (b : List Byte) : (s.sendWrite pa b).streams = s.streams := by unfold State.sendWrite; split <;> simp
@[simp] theorem State.sendWrite_flash (s : State) (pa : Nat) (b : List Byte) : (s.sendWrite pa b).flash = s.flash := by unfold State.sendWrite; split <;> simp
@[simp] theorem State.sendWrite_journal (s : State) (pa : Nat) (b : List Byte) : (s.sendWrite pa b).journal = s.journal := by unfold State.sendWrite; split <;> simp
@[simp] theorem State.sendWrite_activateDue (s : State) (pa : Nat) (b : List Byte) : (s.sendWrite pa b).activateDue = s.activateDue := by unfold State.sendWrite; split <;> simp
@[simp] theorem State.sendWrite_recordsDue (s : State) (pa : Nat) (b : List Byte) : (s.sendWrite pa b).recordsDue = s.recordsDue := by unfold State.sendWrite; split <;> simp
@[simp] theorem State.sendWrite_records (s : State) (pa : Nat) (b : List Byte) : (s.sendWrite pa b).records = s.records := by unfold State.sendWrite; split <;> simp
@[simp] theorem State.sendWrite_measured (s : State) (pa : Nat) (b : List Byte) : (s.sendWrite pa b).measured = s.measured := by unfold State.sendWrite; split <;> simp
@[simp] theorem State.sendWrite_eslynLost (s : State) (pa : Nat) (b : List Byte) : (s.sendWrite pa b).eslynLost = s.eslynLost := by unfold State.sendWrite; split <;> simp
@[simp] theorem State.sendWrite_domain (s : State) (pa : Nat) (b : List Byte) : (s.sendWrite pa b).domain = s.domain := by unfold State.sendWrite; split <;> simp
@[simp] theorem State.sendWrite_eslynOut (s : State) (pa : Nat) (b : List Byte) : (s.sendWrite pa b).eslynOut = s.eslynOut := by unfold State.sendWrite; split <;> simp
@[simp] theorem State.sendWrite_mhz (s : State) (pa : Nat) (b : List Byte) : (s.sendWrite pa b).mhz = s.mhz := by unfold State.sendWrite; split <;> simp
@[simp] theorem State.sendWrite_mhzNext (s : State) (pa : Nat) (b : List Byte) : (s.sendWrite pa b).mhzNext = s.mhzNext := by unfold State.sendWrite; split <;> simp
@[simp] theorem State.sendWrite_power (s : State) (pa : Nat) (b : List Byte) : (s.sendWrite pa b).power = s.power := by unfold State.sendWrite; split <;> simp
@[simp] theorem State.sendWrite_lowSince (s : State) (pa : Nat) (b : List Byte) : (s.sendWrite pa b).lowSince = s.lowSince := by unfold State.sendWrite; split <;> simp
@[simp] theorem State.sendWrite_stepAt (s : State) (pa : Nat) (b : List Byte) : (s.sendWrite pa b).stepAt = s.stepAt := by unfold State.sendWrite; split <;> simp
@[simp] theorem State.sendWrite_upAt (s : State) (pa : Nat) (b : List Byte) : (s.sendWrite pa b).upAt = s.upAt := by unfold State.sendWrite; split <;> simp
@[simp] theorem State.sendWrite_msix (s : State) (pa : Nat) (b : List Byte) : (s.sendWrite pa b).msix = s.msix := by unfold State.sendWrite; split <;> simp
@[simp] theorem State.sendWrite_spdmOut (s : State) (pa : Nat) (b : List Byte) : (s.sendWrite pa b).spdmOut = s.spdmOut := by unfold State.sendWrite; split <;> simp
@[simp] theorem State.sendWrite_hostReads (s : State) (pa : Nat) (b : List Byte) : (s.sendWrite pa b).hostReads = s.hostReads := by unfold State.sendWrite; split <;> simp
@[simp] theorem State.sendWrite_ticks (s : State) (pa : Nat) (b : List Byte) : (s.sendWrite pa b).ticks = s.ticks := by unfold State.sendWrite; split <;> simp
@[simp] theorem State.sendWrite_frames (s : State) (pa : Nat) (b : List Byte) : (s.sendWrite pa b).frames = s.frames := by unfold State.sendWrite; split <;> simp
@[simp] theorem State.sendWrite_rotatedAt (s : State) (pa : Nat) (b : List Byte) : (s.sendWrite pa b).rotatedAt = s.rotatedAt := by unfold State.sendWrite; split <;> simp

/-! ### State.dropL1 -/
@[simp] theorem State.dropL1_schedule (s : State) (c : Nat) (f : L1Line → Bool) : (s.dropL1 c f).schedule = s.schedule := rfl
@[simp] theorem State.dropL1_curCore (s : State) (c : Nat) (f : L1Line → Bool) : (s.dropL1 c f).curCore = s.curCore := rfl
@[simp] theorem State.dropL1_curSlot (s : State) (c : Nat) (f : L1Line → Bool) : (s.dropL1 c f).curSlot = s.curSlot := rfl
@[simp] theorem State.dropL1_stalled (s : State) (c : Nat) (f : L1Line → Bool) : (s.dropL1 c f).stalled = s.stalled := rfl
@[simp] theorem State.dropL1_freeCtr (s : State) (c : Nat) (f : L1Line → Bool) : (s.dropL1 c f).freeCtr = s.freeCtr := rfl
@[simp] theorem State.dropL1_steps (s : State) (c : Nat) (f : L1Line → Bool) : (s.dropL1 c f).steps = s.steps := rfl
@[simp] theorem State.dropL1_clock (s : State) (c : Nat) (f : L1Line → Bool) : (s.dropL1 c f).clock = s.clock := rfl
@[simp] theorem State.dropL1_time (s : State) (c : Nat) (f : L1Line → Bool) : (s.dropL1 c f).time = s.time := rfl
@[simp] theorem State.dropL1_mem (s : State) (c : Nat) (f : L1Line → Bool) : (s.dropL1 c f).mem = s.mem := rfl
@[simp] theorem State.dropL1_memPoison (s : State) (c : Nat) (f : L1Line → Bool) : (s.dropL1 c f).memPoison = s.memPoison := rfl
@[simp] theorem State.dropL1_dirtyPoison (s : State) (c : Nat) (f : L1Line → Bool) : (s.dropL1 c f).dirtyPoison = s.dirtyPoison := rfl
@[simp] theorem State.dropL1_busWrites (s : State) (c : Nat) (f : L1Line → Bool) : (s.dropL1 c f).busWrites = s.busWrites := rfl
@[simp] theorem State.dropL1_dies (s : State) (c : Nat) (f : L1Line → Bool) : (s.dropL1 c f).dies = s.dies := rfl
@[simp] theorem State.dropL1_travel (s : State) (c : Nat) (f : L1Line → Bool) : (s.dropL1 c f).travel = s.travel := rfl
@[simp] theorem State.dropL1_launches (s : State) (c : Nat) (f : L1Line → Bool) : (s.dropL1 c f).launches = s.launches := rfl
@[simp] theorem State.dropL1_nextLaunch (s : State) (c : Nat) (f : L1Line → Bool) : (s.dropL1 c f).nextLaunch = s.nextLaunch := rfl
@[simp] theorem State.dropL1_nextOrder (s : State) (c : Nat) (f : L1Line → Bool) : (s.dropL1 c f).nextOrder = s.nextOrder := rfl
@[simp] theorem State.dropL1_nextStamp (s : State) (c : Nat) (f : L1Line → Bool) : (s.dropL1 c f).nextStamp = s.nextStamp := rfl
@[simp] theorem State.dropL1_queues (s : State) (c : Nat) (f : L1Line → Bool) : (s.dropL1 c f).queues = s.queues := rfl
@[simp] theorem State.dropL1_rrobin (s : State) (c : Nat) (f : L1Line → Bool) : (s.dropL1 c f).rrobin = s.rrobin := rfl
@[simp] theorem State.dropL1_aspaces (s : State) (c : Nat) (f : L1Line → Bool) : (s.dropL1 c f).aspaces = s.aspaces := rfl
@[simp] theorem State.dropL1_genDue (s : State) (c : Nat) (f : L1Line → Bool) : (s.dropL1 c f).genDue = s.genDue := rfl
@[simp] theorem State.dropL1_stokerB (s : State) (c : Nat) (f : L1Line → Bool) : (s.dropL1 c f).stokerB = s.stokerB := rfl
@[simp] theorem State.dropL1_standbyLive (s : State) (c : Nat) (f : L1Line → Bool) : (s.dropL1 c f).standbyLive = s.standbyLive := rfl
@[simp] theorem State.dropL1_standbyReady (s : State) (c : Nat) (f : L1Line → Bool) : (s.dropL1 c f).standbyReady = s.standbyReady := rfl
@[simp] theorem State.dropL1_verActive (s : State) (c : Nat) (f : L1Line → Bool) : (s.dropL1 c f).verActive = s.verActive := rfl
@[simp] theorem State.dropL1_verStandby (s : State) (c : Nat) (f : L1Line → Bool) : (s.dropL1 c f).verStandby = s.verStandby := rfl
@[simp] theorem State.dropL1_window0 (s : State) (c : Nat) (f : L1Line → Bool) : (s.dropL1 c f).window0 = s.window0 := rfl
@[simp] theorem State.dropL1_window1 (s : State) (c : Nat) (f : L1Line → Bool) : (s.dropL1 c f).window1 = s.window1 := rfl
@[simp] theorem State.dropL1_flue (s : State) (c : Nat) (f : L1Line → Bool) : (s.dropL1 c f).flue = s.flue := rfl
@[simp] theorem State.dropL1_routes (s : State) (c : Nat) (f : L1Line → Bool) : (s.dropL1 c f).routes = s.routes := rfl
@[simp] theorem State.dropL1_streams (s : State) (c : Nat) (f : L1Line → Bool) : (s.dropL1 c f).streams = s.streams := rfl
@[simp] theorem State.dropL1_flash (s : State) (c : Nat) (f : L1Line → Bool) : (s.dropL1 c f).flash = s.flash := rfl
@[simp] theorem State.dropL1_journal (s : State) (c : Nat) (f : L1Line → Bool) : (s.dropL1 c f).journal = s.journal := rfl
@[simp] theorem State.dropL1_activateDue (s : State) (c : Nat) (f : L1Line → Bool) : (s.dropL1 c f).activateDue = s.activateDue := rfl
@[simp] theorem State.dropL1_recordsDue (s : State) (c : Nat) (f : L1Line → Bool) : (s.dropL1 c f).recordsDue = s.recordsDue := rfl
@[simp] theorem State.dropL1_records (s : State) (c : Nat) (f : L1Line → Bool) : (s.dropL1 c f).records = s.records := rfl
@[simp] theorem State.dropL1_measured (s : State) (c : Nat) (f : L1Line → Bool) : (s.dropL1 c f).measured = s.measured := rfl
@[simp] theorem State.dropL1_eslynLost (s : State) (c : Nat) (f : L1Line → Bool) : (s.dropL1 c f).eslynLost = s.eslynLost := rfl
@[simp] theorem State.dropL1_domain (s : State) (c : Nat) (f : L1Line → Bool) : (s.dropL1 c f).domain = s.domain := rfl
@[simp] theorem State.dropL1_eslynOut (s : State) (c : Nat) (f : L1Line → Bool) : (s.dropL1 c f).eslynOut = s.eslynOut := rfl
@[simp] theorem State.dropL1_mhz (s : State) (c : Nat) (f : L1Line → Bool) : (s.dropL1 c f).mhz = s.mhz := rfl
@[simp] theorem State.dropL1_mhzNext (s : State) (c : Nat) (f : L1Line → Bool) : (s.dropL1 c f).mhzNext = s.mhzNext := rfl
@[simp] theorem State.dropL1_power (s : State) (c : Nat) (f : L1Line → Bool) : (s.dropL1 c f).power = s.power := rfl
@[simp] theorem State.dropL1_lowSince (s : State) (c : Nat) (f : L1Line → Bool) : (s.dropL1 c f).lowSince = s.lowSince := rfl
@[simp] theorem State.dropL1_stepAt (s : State) (c : Nat) (f : L1Line → Bool) : (s.dropL1 c f).stepAt = s.stepAt := rfl
@[simp] theorem State.dropL1_upAt (s : State) (c : Nat) (f : L1Line → Bool) : (s.dropL1 c f).upAt = s.upAt := rfl
@[simp] theorem State.dropL1_msix (s : State) (c : Nat) (f : L1Line → Bool) : (s.dropL1 c f).msix = s.msix := rfl
@[simp] theorem State.dropL1_spdmOut (s : State) (c : Nat) (f : L1Line → Bool) : (s.dropL1 c f).spdmOut = s.spdmOut := rfl
@[simp] theorem State.dropL1_hostReads (s : State) (c : Nat) (f : L1Line → Bool) : (s.dropL1 c f).hostReads = s.hostReads := rfl
@[simp] theorem State.dropL1_ticks (s : State) (c : Nat) (f : L1Line → Bool) : (s.dropL1 c f).ticks = s.ticks := rfl
@[simp] theorem State.dropL1_frames (s : State) (c : Nat) (f : L1Line → Bool) : (s.dropL1 c f).frames = s.frames := rfl
@[simp] theorem State.dropL1_rotatedAt (s : State) (c : Nat) (f : L1Line → Bool) : (s.dropL1 c f).rotatedAt = s.rotatedAt := rfl

/-! ### State.acquireAt -/
@[simp] theorem State.acquireAt_schedule (s : State) (c k : Nat) : (s.acquireAt c k).schedule = s.schedule := by unfold State.acquireAt; split <;> rfl
@[simp] theorem State.acquireAt_curCore (s : State) (c k : Nat) : (s.acquireAt c k).curCore = s.curCore := by unfold State.acquireAt; split <;> rfl
@[simp] theorem State.acquireAt_curSlot (s : State) (c k : Nat) : (s.acquireAt c k).curSlot = s.curSlot := by unfold State.acquireAt; split <;> rfl
@[simp] theorem State.acquireAt_stalled (s : State) (c k : Nat) : (s.acquireAt c k).stalled = s.stalled := by unfold State.acquireAt; split <;> rfl
@[simp] theorem State.acquireAt_freeCtr (s : State) (c k : Nat) : (s.acquireAt c k).freeCtr = s.freeCtr := by unfold State.acquireAt; split <;> rfl
@[simp] theorem State.acquireAt_steps (s : State) (c k : Nat) : (s.acquireAt c k).steps = s.steps := by unfold State.acquireAt; split <;> rfl
@[simp] theorem State.acquireAt_clock (s : State) (c k : Nat) : (s.acquireAt c k).clock = s.clock := by unfold State.acquireAt; split <;> rfl
@[simp] theorem State.acquireAt_time (s : State) (c k : Nat) : (s.acquireAt c k).time = s.time := by unfold State.acquireAt; split <;> rfl
@[simp] theorem State.acquireAt_mem (s : State) (c k : Nat) : (s.acquireAt c k).mem = s.mem := by unfold State.acquireAt; split <;> rfl
@[simp] theorem State.acquireAt_memPoison (s : State) (c k : Nat) : (s.acquireAt c k).memPoison = s.memPoison := by unfold State.acquireAt; split <;> rfl
@[simp] theorem State.acquireAt_dirtyPoison (s : State) (c k : Nat) : (s.acquireAt c k).dirtyPoison = s.dirtyPoison := by unfold State.acquireAt; split <;> rfl
@[simp] theorem State.acquireAt_busWrites (s : State) (c k : Nat) : (s.acquireAt c k).busWrites = s.busWrites := by unfold State.acquireAt; split <;> rfl
@[simp] theorem State.acquireAt_dies (s : State) (c k : Nat) : (s.acquireAt c k).dies = s.dies := by unfold State.acquireAt; split <;> rfl
@[simp] theorem State.acquireAt_travel (s : State) (c k : Nat) : (s.acquireAt c k).travel = s.travel := by unfold State.acquireAt; split <;> rfl
@[simp] theorem State.acquireAt_launches (s : State) (c k : Nat) : (s.acquireAt c k).launches = s.launches := by unfold State.acquireAt; split <;> rfl
@[simp] theorem State.acquireAt_nextLaunch (s : State) (c k : Nat) : (s.acquireAt c k).nextLaunch = s.nextLaunch := by unfold State.acquireAt; split <;> rfl
@[simp] theorem State.acquireAt_nextOrder (s : State) (c k : Nat) : (s.acquireAt c k).nextOrder = s.nextOrder := by unfold State.acquireAt; split <;> rfl
@[simp] theorem State.acquireAt_nextStamp (s : State) (c k : Nat) : (s.acquireAt c k).nextStamp = s.nextStamp := by unfold State.acquireAt; split <;> rfl
@[simp] theorem State.acquireAt_queues (s : State) (c k : Nat) : (s.acquireAt c k).queues = s.queues := by unfold State.acquireAt; split <;> rfl
@[simp] theorem State.acquireAt_rrobin (s : State) (c k : Nat) : (s.acquireAt c k).rrobin = s.rrobin := by unfold State.acquireAt; split <;> rfl
@[simp] theorem State.acquireAt_aspaces (s : State) (c k : Nat) : (s.acquireAt c k).aspaces = s.aspaces := by unfold State.acquireAt; split <;> rfl
@[simp] theorem State.acquireAt_genDue (s : State) (c k : Nat) : (s.acquireAt c k).genDue = s.genDue := by unfold State.acquireAt; split <;> rfl
@[simp] theorem State.acquireAt_stokerB (s : State) (c k : Nat) : (s.acquireAt c k).stokerB = s.stokerB := by unfold State.acquireAt; split <;> rfl
@[simp] theorem State.acquireAt_standbyLive (s : State) (c k : Nat) : (s.acquireAt c k).standbyLive = s.standbyLive := by unfold State.acquireAt; split <;> rfl
@[simp] theorem State.acquireAt_standbyReady (s : State) (c k : Nat) : (s.acquireAt c k).standbyReady = s.standbyReady := by unfold State.acquireAt; split <;> rfl
@[simp] theorem State.acquireAt_verActive (s : State) (c k : Nat) : (s.acquireAt c k).verActive = s.verActive := by unfold State.acquireAt; split <;> rfl
@[simp] theorem State.acquireAt_verStandby (s : State) (c k : Nat) : (s.acquireAt c k).verStandby = s.verStandby := by unfold State.acquireAt; split <;> rfl
@[simp] theorem State.acquireAt_window0 (s : State) (c k : Nat) : (s.acquireAt c k).window0 = s.window0 := by unfold State.acquireAt; split <;> rfl
@[simp] theorem State.acquireAt_window1 (s : State) (c k : Nat) : (s.acquireAt c k).window1 = s.window1 := by unfold State.acquireAt; split <;> rfl
@[simp] theorem State.acquireAt_flue (s : State) (c k : Nat) : (s.acquireAt c k).flue = s.flue := by unfold State.acquireAt; split <;> rfl
@[simp] theorem State.acquireAt_routes (s : State) (c k : Nat) : (s.acquireAt c k).routes = s.routes := by unfold State.acquireAt; split <;> rfl
@[simp] theorem State.acquireAt_streams (s : State) (c k : Nat) : (s.acquireAt c k).streams = s.streams := by unfold State.acquireAt; split <;> rfl
@[simp] theorem State.acquireAt_flash (s : State) (c k : Nat) : (s.acquireAt c k).flash = s.flash := by unfold State.acquireAt; split <;> rfl
@[simp] theorem State.acquireAt_journal (s : State) (c k : Nat) : (s.acquireAt c k).journal = s.journal := by unfold State.acquireAt; split <;> rfl
@[simp] theorem State.acquireAt_activateDue (s : State) (c k : Nat) : (s.acquireAt c k).activateDue = s.activateDue := by unfold State.acquireAt; split <;> rfl
@[simp] theorem State.acquireAt_recordsDue (s : State) (c k : Nat) : (s.acquireAt c k).recordsDue = s.recordsDue := by unfold State.acquireAt; split <;> rfl
@[simp] theorem State.acquireAt_records (s : State) (c k : Nat) : (s.acquireAt c k).records = s.records := by unfold State.acquireAt; split <;> rfl
@[simp] theorem State.acquireAt_measured (s : State) (c k : Nat) : (s.acquireAt c k).measured = s.measured := by unfold State.acquireAt; split <;> rfl
@[simp] theorem State.acquireAt_eslynLost (s : State) (c k : Nat) : (s.acquireAt c k).eslynLost = s.eslynLost := by unfold State.acquireAt; split <;> rfl
@[simp] theorem State.acquireAt_domain (s : State) (c k : Nat) : (s.acquireAt c k).domain = s.domain := by unfold State.acquireAt; split <;> rfl
@[simp] theorem State.acquireAt_eslynOut (s : State) (c k : Nat) : (s.acquireAt c k).eslynOut = s.eslynOut := by unfold State.acquireAt; split <;> rfl
@[simp] theorem State.acquireAt_mhz (s : State) (c k : Nat) : (s.acquireAt c k).mhz = s.mhz := by unfold State.acquireAt; split <;> rfl
@[simp] theorem State.acquireAt_mhzNext (s : State) (c k : Nat) : (s.acquireAt c k).mhzNext = s.mhzNext := by unfold State.acquireAt; split <;> rfl
@[simp] theorem State.acquireAt_power (s : State) (c k : Nat) : (s.acquireAt c k).power = s.power := by unfold State.acquireAt; split <;> rfl
@[simp] theorem State.acquireAt_lowSince (s : State) (c k : Nat) : (s.acquireAt c k).lowSince = s.lowSince := by unfold State.acquireAt; split <;> rfl
@[simp] theorem State.acquireAt_stepAt (s : State) (c k : Nat) : (s.acquireAt c k).stepAt = s.stepAt := by unfold State.acquireAt; split <;> rfl
@[simp] theorem State.acquireAt_upAt (s : State) (c k : Nat) : (s.acquireAt c k).upAt = s.upAt := by unfold State.acquireAt; split <;> rfl
@[simp] theorem State.acquireAt_msix (s : State) (c k : Nat) : (s.acquireAt c k).msix = s.msix := by unfold State.acquireAt; split <;> rfl
@[simp] theorem State.acquireAt_spdmOut (s : State) (c k : Nat) : (s.acquireAt c k).spdmOut = s.spdmOut := by unfold State.acquireAt; split <;> rfl
@[simp] theorem State.acquireAt_hostReads (s : State) (c k : Nat) : (s.acquireAt c k).hostReads = s.hostReads := by unfold State.acquireAt; split <;> rfl
@[simp] theorem State.acquireAt_ticks (s : State) (c k : Nat) : (s.acquireAt c k).ticks = s.ticks := by unfold State.acquireAt; split <;> rfl
@[simp] theorem State.acquireAt_frames (s : State) (c k : Nat) : (s.acquireAt c k).frames = s.frames := by unfold State.acquireAt; split <;> rfl
@[simp] theorem State.acquireAt_rotatedAt (s : State) (c k : Nat) : (s.acquireAt c k).rotatedAt = s.rotatedAt := by unfold State.acquireAt; split <;> rfl

/-! ### State.writeSpad -/
@[simp] theorem State.writeSpad_schedule (s : State) (c off : Nat) (b : List Byte) : (s.writeSpad c off b).schedule = s.schedule := rfl
@[simp] theorem State.writeSpad_curCore (s : State) (c off : Nat) (b : List Byte) : (s.writeSpad c off b).curCore = s.curCore := rfl
@[simp] theorem State.writeSpad_curSlot (s : State) (c off : Nat) (b : List Byte) : (s.writeSpad c off b).curSlot = s.curSlot := rfl
@[simp] theorem State.writeSpad_stalled (s : State) (c off : Nat) (b : List Byte) : (s.writeSpad c off b).stalled = s.stalled := rfl
@[simp] theorem State.writeSpad_freeCtr (s : State) (c off : Nat) (b : List Byte) : (s.writeSpad c off b).freeCtr = s.freeCtr := rfl
@[simp] theorem State.writeSpad_steps (s : State) (c off : Nat) (b : List Byte) : (s.writeSpad c off b).steps = s.steps := rfl
@[simp] theorem State.writeSpad_clock (s : State) (c off : Nat) (b : List Byte) : (s.writeSpad c off b).clock = s.clock := rfl
@[simp] theorem State.writeSpad_time (s : State) (c off : Nat) (b : List Byte) : (s.writeSpad c off b).time = s.time := rfl
@[simp] theorem State.writeSpad_mem (s : State) (c off : Nat) (b : List Byte) : (s.writeSpad c off b).mem = s.mem := rfl
@[simp] theorem State.writeSpad_memPoison (s : State) (c off : Nat) (b : List Byte) : (s.writeSpad c off b).memPoison = s.memPoison := rfl
@[simp] theorem State.writeSpad_dirtyPoison (s : State) (c off : Nat) (b : List Byte) : (s.writeSpad c off b).dirtyPoison = s.dirtyPoison := rfl
@[simp] theorem State.writeSpad_busWrites (s : State) (c off : Nat) (b : List Byte) : (s.writeSpad c off b).busWrites = s.busWrites := rfl
@[simp] theorem State.writeSpad_dies (s : State) (c off : Nat) (b : List Byte) : (s.writeSpad c off b).dies = s.dies := rfl
@[simp] theorem State.writeSpad_travel (s : State) (c off : Nat) (b : List Byte) : (s.writeSpad c off b).travel = s.travel := rfl
@[simp] theorem State.writeSpad_launches (s : State) (c off : Nat) (b : List Byte) : (s.writeSpad c off b).launches = s.launches := rfl
@[simp] theorem State.writeSpad_nextLaunch (s : State) (c off : Nat) (b : List Byte) : (s.writeSpad c off b).nextLaunch = s.nextLaunch := rfl
@[simp] theorem State.writeSpad_nextOrder (s : State) (c off : Nat) (b : List Byte) : (s.writeSpad c off b).nextOrder = s.nextOrder := rfl
@[simp] theorem State.writeSpad_nextStamp (s : State) (c off : Nat) (b : List Byte) : (s.writeSpad c off b).nextStamp = s.nextStamp := rfl
@[simp] theorem State.writeSpad_queues (s : State) (c off : Nat) (b : List Byte) : (s.writeSpad c off b).queues = s.queues := rfl
@[simp] theorem State.writeSpad_rrobin (s : State) (c off : Nat) (b : List Byte) : (s.writeSpad c off b).rrobin = s.rrobin := rfl
@[simp] theorem State.writeSpad_aspaces (s : State) (c off : Nat) (b : List Byte) : (s.writeSpad c off b).aspaces = s.aspaces := rfl
@[simp] theorem State.writeSpad_genDue (s : State) (c off : Nat) (b : List Byte) : (s.writeSpad c off b).genDue = s.genDue := rfl
@[simp] theorem State.writeSpad_stokerB (s : State) (c off : Nat) (b : List Byte) : (s.writeSpad c off b).stokerB = s.stokerB := rfl
@[simp] theorem State.writeSpad_standbyLive (s : State) (c off : Nat) (b : List Byte) : (s.writeSpad c off b).standbyLive = s.standbyLive := rfl
@[simp] theorem State.writeSpad_standbyReady (s : State) (c off : Nat) (b : List Byte) : (s.writeSpad c off b).standbyReady = s.standbyReady := rfl
@[simp] theorem State.writeSpad_verActive (s : State) (c off : Nat) (b : List Byte) : (s.writeSpad c off b).verActive = s.verActive := rfl
@[simp] theorem State.writeSpad_verStandby (s : State) (c off : Nat) (b : List Byte) : (s.writeSpad c off b).verStandby = s.verStandby := rfl
@[simp] theorem State.writeSpad_window0 (s : State) (c off : Nat) (b : List Byte) : (s.writeSpad c off b).window0 = s.window0 := rfl
@[simp] theorem State.writeSpad_window1 (s : State) (c off : Nat) (b : List Byte) : (s.writeSpad c off b).window1 = s.window1 := rfl
@[simp] theorem State.writeSpad_flue (s : State) (c off : Nat) (b : List Byte) : (s.writeSpad c off b).flue = s.flue := rfl
@[simp] theorem State.writeSpad_routes (s : State) (c off : Nat) (b : List Byte) : (s.writeSpad c off b).routes = s.routes := rfl
@[simp] theorem State.writeSpad_streams (s : State) (c off : Nat) (b : List Byte) : (s.writeSpad c off b).streams = s.streams := rfl
@[simp] theorem State.writeSpad_flash (s : State) (c off : Nat) (b : List Byte) : (s.writeSpad c off b).flash = s.flash := rfl
@[simp] theorem State.writeSpad_journal (s : State) (c off : Nat) (b : List Byte) : (s.writeSpad c off b).journal = s.journal := rfl
@[simp] theorem State.writeSpad_activateDue (s : State) (c off : Nat) (b : List Byte) : (s.writeSpad c off b).activateDue = s.activateDue := rfl
@[simp] theorem State.writeSpad_recordsDue (s : State) (c off : Nat) (b : List Byte) : (s.writeSpad c off b).recordsDue = s.recordsDue := rfl
@[simp] theorem State.writeSpad_records (s : State) (c off : Nat) (b : List Byte) : (s.writeSpad c off b).records = s.records := rfl
@[simp] theorem State.writeSpad_measured (s : State) (c off : Nat) (b : List Byte) : (s.writeSpad c off b).measured = s.measured := rfl
@[simp] theorem State.writeSpad_eslynLost (s : State) (c off : Nat) (b : List Byte) : (s.writeSpad c off b).eslynLost = s.eslynLost := rfl
@[simp] theorem State.writeSpad_domain (s : State) (c off : Nat) (b : List Byte) : (s.writeSpad c off b).domain = s.domain := rfl
@[simp] theorem State.writeSpad_eslynOut (s : State) (c off : Nat) (b : List Byte) : (s.writeSpad c off b).eslynOut = s.eslynOut := rfl
@[simp] theorem State.writeSpad_mhz (s : State) (c off : Nat) (b : List Byte) : (s.writeSpad c off b).mhz = s.mhz := rfl
@[simp] theorem State.writeSpad_mhzNext (s : State) (c off : Nat) (b : List Byte) : (s.writeSpad c off b).mhzNext = s.mhzNext := rfl
@[simp] theorem State.writeSpad_power (s : State) (c off : Nat) (b : List Byte) : (s.writeSpad c off b).power = s.power := rfl
@[simp] theorem State.writeSpad_lowSince (s : State) (c off : Nat) (b : List Byte) : (s.writeSpad c off b).lowSince = s.lowSince := rfl
@[simp] theorem State.writeSpad_stepAt (s : State) (c off : Nat) (b : List Byte) : (s.writeSpad c off b).stepAt = s.stepAt := rfl
@[simp] theorem State.writeSpad_upAt (s : State) (c off : Nat) (b : List Byte) : (s.writeSpad c off b).upAt = s.upAt := rfl
@[simp] theorem State.writeSpad_msix (s : State) (c off : Nat) (b : List Byte) : (s.writeSpad c off b).msix = s.msix := rfl
@[simp] theorem State.writeSpad_spdmOut (s : State) (c off : Nat) (b : List Byte) : (s.writeSpad c off b).spdmOut = s.spdmOut := rfl
@[simp] theorem State.writeSpad_hostReads (s : State) (c off : Nat) (b : List Byte) : (s.writeSpad c off b).hostReads = s.hostReads := rfl
@[simp] theorem State.writeSpad_ticks (s : State) (c off : Nat) (b : List Byte) : (s.writeSpad c off b).ticks = s.ticks := rfl
@[simp] theorem State.writeSpad_frames (s : State) (c off : Nat) (b : List Byte) : (s.writeSpad c off b).frames = s.frames := rfl
@[simp] theorem State.writeSpad_rotatedAt (s : State) (c off : Nat) (b : List Byte) : (s.writeSpad c off b).rotatedAt = s.rotatedAt := rfl

/-! ### State.storePhys -/
@[simp] theorem State.storePhys_schedule (s : State) (c pa : Nat) (b : List Byte) : (s.storePhys c pa b).schedule = s.schedule := by unfold State.storePhys; split <;> simp
@[simp] theorem State.storePhys_curCore (s : State) (c pa : Nat) (b : List Byte) : (s.storePhys c pa b).curCore = s.curCore := by unfold State.storePhys; split <;> simp
@[simp] theorem State.storePhys_curSlot (s : State) (c pa : Nat) (b : List Byte) : (s.storePhys c pa b).curSlot = s.curSlot := by unfold State.storePhys; split <;> simp
@[simp] theorem State.storePhys_stalled (s : State) (c pa : Nat) (b : List Byte) : (s.storePhys c pa b).stalled = s.stalled := by unfold State.storePhys; split <;> simp
@[simp] theorem State.storePhys_freeCtr (s : State) (c pa : Nat) (b : List Byte) : (s.storePhys c pa b).freeCtr = s.freeCtr := by unfold State.storePhys; split <;> simp
@[simp] theorem State.storePhys_steps (s : State) (c pa : Nat) (b : List Byte) : (s.storePhys c pa b).steps = s.steps := by unfold State.storePhys; split <;> simp
@[simp] theorem State.storePhys_clock (s : State) (c pa : Nat) (b : List Byte) : (s.storePhys c pa b).clock = s.clock := by unfold State.storePhys; split <;> simp
@[simp] theorem State.storePhys_time (s : State) (c pa : Nat) (b : List Byte) : (s.storePhys c pa b).time = s.time := by unfold State.storePhys; split <;> simp
@[simp] theorem State.storePhys_dies (s : State) (c pa : Nat) (b : List Byte) : (s.storePhys c pa b).dies = s.dies := by unfold State.storePhys; split <;> simp
@[simp] theorem State.storePhys_travel (s : State) (c pa : Nat) (b : List Byte) : (s.storePhys c pa b).travel = s.travel := by unfold State.storePhys; split <;> simp
@[simp] theorem State.storePhys_launches (s : State) (c pa : Nat) (b : List Byte) : (s.storePhys c pa b).launches = s.launches := by unfold State.storePhys; split <;> simp
@[simp] theorem State.storePhys_nextLaunch (s : State) (c pa : Nat) (b : List Byte) : (s.storePhys c pa b).nextLaunch = s.nextLaunch := by unfold State.storePhys; split <;> simp
@[simp] theorem State.storePhys_nextOrder (s : State) (c pa : Nat) (b : List Byte) : (s.storePhys c pa b).nextOrder = s.nextOrder := by unfold State.storePhys; split <;> simp
@[simp] theorem State.storePhys_nextStamp (s : State) (c pa : Nat) (b : List Byte) : (s.storePhys c pa b).nextStamp = s.nextStamp := by unfold State.storePhys; split <;> simp
@[simp] theorem State.storePhys_queues (s : State) (c pa : Nat) (b : List Byte) : (s.storePhys c pa b).queues = s.queues := by unfold State.storePhys; split <;> simp
@[simp] theorem State.storePhys_rrobin (s : State) (c pa : Nat) (b : List Byte) : (s.storePhys c pa b).rrobin = s.rrobin := by unfold State.storePhys; split <;> simp
@[simp] theorem State.storePhys_aspaces (s : State) (c pa : Nat) (b : List Byte) : (s.storePhys c pa b).aspaces = s.aspaces := by unfold State.storePhys; split <;> simp
@[simp] theorem State.storePhys_genDue (s : State) (c pa : Nat) (b : List Byte) : (s.storePhys c pa b).genDue = s.genDue := by unfold State.storePhys; split <;> simp
@[simp] theorem State.storePhys_stokerB (s : State) (c pa : Nat) (b : List Byte) : (s.storePhys c pa b).stokerB = s.stokerB := by unfold State.storePhys; split <;> simp
@[simp] theorem State.storePhys_standbyLive (s : State) (c pa : Nat) (b : List Byte) : (s.storePhys c pa b).standbyLive = s.standbyLive := by unfold State.storePhys; split <;> simp
@[simp] theorem State.storePhys_standbyReady (s : State) (c pa : Nat) (b : List Byte) : (s.storePhys c pa b).standbyReady = s.standbyReady := by unfold State.storePhys; split <;> simp
@[simp] theorem State.storePhys_verActive (s : State) (c pa : Nat) (b : List Byte) : (s.storePhys c pa b).verActive = s.verActive := by unfold State.storePhys; split <;> simp
@[simp] theorem State.storePhys_verStandby (s : State) (c pa : Nat) (b : List Byte) : (s.storePhys c pa b).verStandby = s.verStandby := by unfold State.storePhys; split <;> simp
@[simp] theorem State.storePhys_window0 (s : State) (c pa : Nat) (b : List Byte) : (s.storePhys c pa b).window0 = s.window0 := by unfold State.storePhys; split <;> simp
@[simp] theorem State.storePhys_window1 (s : State) (c pa : Nat) (b : List Byte) : (s.storePhys c pa b).window1 = s.window1 := by unfold State.storePhys; split <;> simp
@[simp] theorem State.storePhys_flue (s : State) (c pa : Nat) (b : List Byte) : (s.storePhys c pa b).flue = s.flue := by unfold State.storePhys; split <;> simp
@[simp] theorem State.storePhys_routes (s : State) (c pa : Nat) (b : List Byte) : (s.storePhys c pa b).routes = s.routes := by unfold State.storePhys; split <;> simp
@[simp] theorem State.storePhys_streams (s : State) (c pa : Nat) (b : List Byte) : (s.storePhys c pa b).streams = s.streams := by unfold State.storePhys; split <;> simp
@[simp] theorem State.storePhys_flash (s : State) (c pa : Nat) (b : List Byte) : (s.storePhys c pa b).flash = s.flash := by unfold State.storePhys; split <;> simp
@[simp] theorem State.storePhys_journal (s : State) (c pa : Nat) (b : List Byte) : (s.storePhys c pa b).journal = s.journal := by unfold State.storePhys; split <;> simp
@[simp] theorem State.storePhys_activateDue (s : State) (c pa : Nat) (b : List Byte) : (s.storePhys c pa b).activateDue = s.activateDue := by unfold State.storePhys; split <;> simp
@[simp] theorem State.storePhys_recordsDue (s : State) (c pa : Nat) (b : List Byte) : (s.storePhys c pa b).recordsDue = s.recordsDue := by unfold State.storePhys; split <;> simp
@[simp] theorem State.storePhys_records (s : State) (c pa : Nat) (b : List Byte) : (s.storePhys c pa b).records = s.records := by unfold State.storePhys; split <;> simp
@[simp] theorem State.storePhys_measured (s : State) (c pa : Nat) (b : List Byte) : (s.storePhys c pa b).measured = s.measured := by unfold State.storePhys; split <;> simp
@[simp] theorem State.storePhys_eslynLost (s : State) (c pa : Nat) (b : List Byte) : (s.storePhys c pa b).eslynLost = s.eslynLost := by unfold State.storePhys; split <;> simp
@[simp] theorem State.storePhys_domain (s : State) (c pa : Nat) (b : List Byte) : (s.storePhys c pa b).domain = s.domain := by unfold State.storePhys; split <;> simp
@[simp] theorem State.storePhys_eslynOut (s : State) (c pa : Nat) (b : List Byte) : (s.storePhys c pa b).eslynOut = s.eslynOut := by unfold State.storePhys; split <;> simp
@[simp] theorem State.storePhys_mhz (s : State) (c pa : Nat) (b : List Byte) : (s.storePhys c pa b).mhz = s.mhz := by unfold State.storePhys; split <;> simp
@[simp] theorem State.storePhys_mhzNext (s : State) (c pa : Nat) (b : List Byte) : (s.storePhys c pa b).mhzNext = s.mhzNext := by unfold State.storePhys; split <;> simp
@[simp] theorem State.storePhys_power (s : State) (c pa : Nat) (b : List Byte) : (s.storePhys c pa b).power = s.power := by unfold State.storePhys; split <;> simp
@[simp] theorem State.storePhys_lowSince (s : State) (c pa : Nat) (b : List Byte) : (s.storePhys c pa b).lowSince = s.lowSince := by unfold State.storePhys; split <;> simp
@[simp] theorem State.storePhys_stepAt (s : State) (c pa : Nat) (b : List Byte) : (s.storePhys c pa b).stepAt = s.stepAt := by unfold State.storePhys; split <;> simp
@[simp] theorem State.storePhys_upAt (s : State) (c pa : Nat) (b : List Byte) : (s.storePhys c pa b).upAt = s.upAt := by unfold State.storePhys; split <;> simp
@[simp] theorem State.storePhys_msix (s : State) (c pa : Nat) (b : List Byte) : (s.storePhys c pa b).msix = s.msix := by unfold State.storePhys; split <;> simp
@[simp] theorem State.storePhys_spdmOut (s : State) (c pa : Nat) (b : List Byte) : (s.storePhys c pa b).spdmOut = s.spdmOut := by unfold State.storePhys; split <;> simp
@[simp] theorem State.storePhys_hostReads (s : State) (c pa : Nat) (b : List Byte) : (s.storePhys c pa b).hostReads = s.hostReads := by unfold State.storePhys; split <;> simp
@[simp] theorem State.storePhys_ticks (s : State) (c pa : Nat) (b : List Byte) : (s.storePhys c pa b).ticks = s.ticks := by unfold State.storePhys; split <;> simp
@[simp] theorem State.storePhys_frames (s : State) (c pa : Nat) (b : List Byte) : (s.storePhys c pa b).frames = s.frames := by unfold State.storePhys; split <;> simp
@[simp] theorem State.storePhys_rotatedAt (s : State) (c pa : Nat) (b : List Byte) : (s.storePhys c pa b).rotatedAt = s.rotatedAt := by unfold State.storePhys; split <;> simp

/-! ### State.writePlace -/
@[simp] theorem State.writePlace_schedule (s : State) (c : Nat) (p : Place) (b : List Byte) : (s.writePlace c p b).schedule = s.schedule := by cases p <;> simp [State.writePlace]
@[simp] theorem State.writePlace_curCore (s : State) (c : Nat) (p : Place) (b : List Byte) : (s.writePlace c p b).curCore = s.curCore := by cases p <;> simp [State.writePlace]
@[simp] theorem State.writePlace_curSlot (s : State) (c : Nat) (p : Place) (b : List Byte) : (s.writePlace c p b).curSlot = s.curSlot := by cases p <;> simp [State.writePlace]
@[simp] theorem State.writePlace_stalled (s : State) (c : Nat) (p : Place) (b : List Byte) : (s.writePlace c p b).stalled = s.stalled := by cases p <;> simp [State.writePlace]
@[simp] theorem State.writePlace_freeCtr (s : State) (c : Nat) (p : Place) (b : List Byte) : (s.writePlace c p b).freeCtr = s.freeCtr := by cases p <;> simp [State.writePlace]
@[simp] theorem State.writePlace_steps (s : State) (c : Nat) (p : Place) (b : List Byte) : (s.writePlace c p b).steps = s.steps := by cases p <;> simp [State.writePlace]
@[simp] theorem State.writePlace_clock (s : State) (c : Nat) (p : Place) (b : List Byte) : (s.writePlace c p b).clock = s.clock := by cases p <;> simp [State.writePlace]
@[simp] theorem State.writePlace_time (s : State) (c : Nat) (p : Place) (b : List Byte) : (s.writePlace c p b).time = s.time := by cases p <;> simp [State.writePlace]
@[simp] theorem State.writePlace_dies (s : State) (c : Nat) (p : Place) (b : List Byte) : (s.writePlace c p b).dies = s.dies := by cases p <;> simp [State.writePlace]
@[simp] theorem State.writePlace_travel (s : State) (c : Nat) (p : Place) (b : List Byte) : (s.writePlace c p b).travel = s.travel := by cases p <;> simp [State.writePlace]
@[simp] theorem State.writePlace_launches (s : State) (c : Nat) (p : Place) (b : List Byte) : (s.writePlace c p b).launches = s.launches := by cases p <;> simp [State.writePlace]
@[simp] theorem State.writePlace_nextLaunch (s : State) (c : Nat) (p : Place) (b : List Byte) : (s.writePlace c p b).nextLaunch = s.nextLaunch := by cases p <;> simp [State.writePlace]
@[simp] theorem State.writePlace_nextOrder (s : State) (c : Nat) (p : Place) (b : List Byte) : (s.writePlace c p b).nextOrder = s.nextOrder := by cases p <;> simp [State.writePlace]
@[simp] theorem State.writePlace_nextStamp (s : State) (c : Nat) (p : Place) (b : List Byte) : (s.writePlace c p b).nextStamp = s.nextStamp := by cases p <;> simp [State.writePlace]
@[simp] theorem State.writePlace_queues (s : State) (c : Nat) (p : Place) (b : List Byte) : (s.writePlace c p b).queues = s.queues := by cases p <;> simp [State.writePlace]
@[simp] theorem State.writePlace_rrobin (s : State) (c : Nat) (p : Place) (b : List Byte) : (s.writePlace c p b).rrobin = s.rrobin := by cases p <;> simp [State.writePlace]
@[simp] theorem State.writePlace_aspaces (s : State) (c : Nat) (p : Place) (b : List Byte) : (s.writePlace c p b).aspaces = s.aspaces := by cases p <;> simp [State.writePlace]
@[simp] theorem State.writePlace_genDue (s : State) (c : Nat) (p : Place) (b : List Byte) : (s.writePlace c p b).genDue = s.genDue := by cases p <;> simp [State.writePlace]
@[simp] theorem State.writePlace_stokerB (s : State) (c : Nat) (p : Place) (b : List Byte) : (s.writePlace c p b).stokerB = s.stokerB := by cases p <;> simp [State.writePlace]
@[simp] theorem State.writePlace_standbyLive (s : State) (c : Nat) (p : Place) (b : List Byte) : (s.writePlace c p b).standbyLive = s.standbyLive := by cases p <;> simp [State.writePlace]
@[simp] theorem State.writePlace_standbyReady (s : State) (c : Nat) (p : Place) (b : List Byte) : (s.writePlace c p b).standbyReady = s.standbyReady := by cases p <;> simp [State.writePlace]
@[simp] theorem State.writePlace_verActive (s : State) (c : Nat) (p : Place) (b : List Byte) : (s.writePlace c p b).verActive = s.verActive := by cases p <;> simp [State.writePlace]
@[simp] theorem State.writePlace_verStandby (s : State) (c : Nat) (p : Place) (b : List Byte) : (s.writePlace c p b).verStandby = s.verStandby := by cases p <;> simp [State.writePlace]
@[simp] theorem State.writePlace_window0 (s : State) (c : Nat) (p : Place) (b : List Byte) : (s.writePlace c p b).window0 = s.window0 := by cases p <;> simp [State.writePlace]
@[simp] theorem State.writePlace_window1 (s : State) (c : Nat) (p : Place) (b : List Byte) : (s.writePlace c p b).window1 = s.window1 := by cases p <;> simp [State.writePlace]
@[simp] theorem State.writePlace_flue (s : State) (c : Nat) (p : Place) (b : List Byte) : (s.writePlace c p b).flue = s.flue := by cases p <;> simp [State.writePlace]
@[simp] theorem State.writePlace_routes (s : State) (c : Nat) (p : Place) (b : List Byte) : (s.writePlace c p b).routes = s.routes := by cases p <;> simp [State.writePlace]
@[simp] theorem State.writePlace_streams (s : State) (c : Nat) (p : Place) (b : List Byte) : (s.writePlace c p b).streams = s.streams := by cases p <;> simp [State.writePlace]
@[simp] theorem State.writePlace_flash (s : State) (c : Nat) (p : Place) (b : List Byte) : (s.writePlace c p b).flash = s.flash := by cases p <;> simp [State.writePlace]
@[simp] theorem State.writePlace_journal (s : State) (c : Nat) (p : Place) (b : List Byte) : (s.writePlace c p b).journal = s.journal := by cases p <;> simp [State.writePlace]
@[simp] theorem State.writePlace_activateDue (s : State) (c : Nat) (p : Place) (b : List Byte) : (s.writePlace c p b).activateDue = s.activateDue := by cases p <;> simp [State.writePlace]
@[simp] theorem State.writePlace_recordsDue (s : State) (c : Nat) (p : Place) (b : List Byte) : (s.writePlace c p b).recordsDue = s.recordsDue := by cases p <;> simp [State.writePlace]
@[simp] theorem State.writePlace_records (s : State) (c : Nat) (p : Place) (b : List Byte) : (s.writePlace c p b).records = s.records := by cases p <;> simp [State.writePlace]
@[simp] theorem State.writePlace_measured (s : State) (c : Nat) (p : Place) (b : List Byte) : (s.writePlace c p b).measured = s.measured := by cases p <;> simp [State.writePlace]
@[simp] theorem State.writePlace_eslynLost (s : State) (c : Nat) (p : Place) (b : List Byte) : (s.writePlace c p b).eslynLost = s.eslynLost := by cases p <;> simp [State.writePlace]
@[simp] theorem State.writePlace_domain (s : State) (c : Nat) (p : Place) (b : List Byte) : (s.writePlace c p b).domain = s.domain := by cases p <;> simp [State.writePlace]
@[simp] theorem State.writePlace_eslynOut (s : State) (c : Nat) (p : Place) (b : List Byte) : (s.writePlace c p b).eslynOut = s.eslynOut := by cases p <;> simp [State.writePlace]
@[simp] theorem State.writePlace_mhz (s : State) (c : Nat) (p : Place) (b : List Byte) : (s.writePlace c p b).mhz = s.mhz := by cases p <;> simp [State.writePlace]
@[simp] theorem State.writePlace_mhzNext (s : State) (c : Nat) (p : Place) (b : List Byte) : (s.writePlace c p b).mhzNext = s.mhzNext := by cases p <;> simp [State.writePlace]
@[simp] theorem State.writePlace_power (s : State) (c : Nat) (p : Place) (b : List Byte) : (s.writePlace c p b).power = s.power := by cases p <;> simp [State.writePlace]
@[simp] theorem State.writePlace_lowSince (s : State) (c : Nat) (p : Place) (b : List Byte) : (s.writePlace c p b).lowSince = s.lowSince := by cases p <;> simp [State.writePlace]
@[simp] theorem State.writePlace_stepAt (s : State) (c : Nat) (p : Place) (b : List Byte) : (s.writePlace c p b).stepAt = s.stepAt := by cases p <;> simp [State.writePlace]
@[simp] theorem State.writePlace_upAt (s : State) (c : Nat) (p : Place) (b : List Byte) : (s.writePlace c p b).upAt = s.upAt := by cases p <;> simp [State.writePlace]
@[simp] theorem State.writePlace_msix (s : State) (c : Nat) (p : Place) (b : List Byte) : (s.writePlace c p b).msix = s.msix := by cases p <;> simp [State.writePlace]
@[simp] theorem State.writePlace_spdmOut (s : State) (c : Nat) (p : Place) (b : List Byte) : (s.writePlace c p b).spdmOut = s.spdmOut := by cases p <;> simp [State.writePlace]
@[simp] theorem State.writePlace_hostReads (s : State) (c : Nat) (p : Place) (b : List Byte) : (s.writePlace c p b).hostReads = s.hostReads := by cases p <;> simp [State.writePlace]
@[simp] theorem State.writePlace_ticks (s : State) (c : Nat) (p : Place) (b : List Byte) : (s.writePlace c p b).ticks = s.ticks := by cases p <;> simp [State.writePlace]
@[simp] theorem State.writePlace_frames (s : State) (c : Nat) (p : Place) (b : List Byte) : (s.writePlace c p b).frames = s.frames := by cases p <;> simp [State.writePlace]
@[simp] theorem State.writePlace_rotatedAt (s : State) (c : Nat) (p : Place) (b : List Byte) : (s.writePlace c p b).rotatedAt = s.rotatedAt := by cases p <;> simp [State.writePlace]

/-! ### State.setDir -/
@[simp] theorem State.setDir_schedule (s : State) (k : Nat) (d : FlueDir) : (s.setDir k d).schedule = s.schedule := rfl
@[simp] theorem State.setDir_curCore (s : State) (k : Nat) (d : FlueDir) : (s.setDir k d).curCore = s.curCore := rfl
@[simp] theorem State.setDir_curSlot (s : State) (k : Nat) (d : FlueDir) : (s.setDir k d).curSlot = s.curSlot := rfl
@[simp] theorem State.setDir_stalled (s : State) (k : Nat) (d : FlueDir) : (s.setDir k d).stalled = s.stalled := rfl
@[simp] theorem State.setDir_freeCtr (s : State) (k : Nat) (d : FlueDir) : (s.setDir k d).freeCtr = s.freeCtr := rfl
@[simp] theorem State.setDir_steps (s : State) (k : Nat) (d : FlueDir) : (s.setDir k d).steps = s.steps := rfl
@[simp] theorem State.setDir_clock (s : State) (k : Nat) (d : FlueDir) : (s.setDir k d).clock = s.clock := rfl
@[simp] theorem State.setDir_time (s : State) (k : Nat) (d : FlueDir) : (s.setDir k d).time = s.time := rfl
@[simp] theorem State.setDir_mem (s : State) (k : Nat) (d : FlueDir) : (s.setDir k d).mem = s.mem := rfl
@[simp] theorem State.setDir_memPoison (s : State) (k : Nat) (d : FlueDir) : (s.setDir k d).memPoison = s.memPoison := rfl
@[simp] theorem State.setDir_dirtyPoison (s : State) (k : Nat) (d : FlueDir) : (s.setDir k d).dirtyPoison = s.dirtyPoison := rfl
@[simp] theorem State.setDir_busWrites (s : State) (k : Nat) (d : FlueDir) : (s.setDir k d).busWrites = s.busWrites := rfl
@[simp] theorem State.setDir_cores (s : State) (k : Nat) (d : FlueDir) : (s.setDir k d).cores = s.cores := rfl
@[simp] theorem State.setDir_dies (s : State) (k : Nat) (d : FlueDir) : (s.setDir k d).dies = s.dies := rfl
@[simp] theorem State.setDir_travel (s : State) (k : Nat) (d : FlueDir) : (s.setDir k d).travel = s.travel := rfl
@[simp] theorem State.setDir_launches (s : State) (k : Nat) (d : FlueDir) : (s.setDir k d).launches = s.launches := rfl
@[simp] theorem State.setDir_nextLaunch (s : State) (k : Nat) (d : FlueDir) : (s.setDir k d).nextLaunch = s.nextLaunch := rfl
@[simp] theorem State.setDir_nextOrder (s : State) (k : Nat) (d : FlueDir) : (s.setDir k d).nextOrder = s.nextOrder := rfl
@[simp] theorem State.setDir_nextStamp (s : State) (k : Nat) (d : FlueDir) : (s.setDir k d).nextStamp = s.nextStamp := rfl
@[simp] theorem State.setDir_queues (s : State) (k : Nat) (d : FlueDir) : (s.setDir k d).queues = s.queues := rfl
@[simp] theorem State.setDir_rrobin (s : State) (k : Nat) (d : FlueDir) : (s.setDir k d).rrobin = s.rrobin := rfl
@[simp] theorem State.setDir_aspaces (s : State) (k : Nat) (d : FlueDir) : (s.setDir k d).aspaces = s.aspaces := rfl
@[simp] theorem State.setDir_genDue (s : State) (k : Nat) (d : FlueDir) : (s.setDir k d).genDue = s.genDue := rfl
@[simp] theorem State.setDir_stokerB (s : State) (k : Nat) (d : FlueDir) : (s.setDir k d).stokerB = s.stokerB := rfl
@[simp] theorem State.setDir_standbyLive (s : State) (k : Nat) (d : FlueDir) : (s.setDir k d).standbyLive = s.standbyLive := rfl
@[simp] theorem State.setDir_standbyReady (s : State) (k : Nat) (d : FlueDir) : (s.setDir k d).standbyReady = s.standbyReady := rfl
@[simp] theorem State.setDir_verActive (s : State) (k : Nat) (d : FlueDir) : (s.setDir k d).verActive = s.verActive := rfl
@[simp] theorem State.setDir_verStandby (s : State) (k : Nat) (d : FlueDir) : (s.setDir k d).verStandby = s.verStandby := rfl
@[simp] theorem State.setDir_window0 (s : State) (k : Nat) (d : FlueDir) : (s.setDir k d).window0 = s.window0 := rfl
@[simp] theorem State.setDir_window1 (s : State) (k : Nat) (d : FlueDir) : (s.setDir k d).window1 = s.window1 := rfl
@[simp] theorem State.setDir_routes (s : State) (k : Nat) (d : FlueDir) : (s.setDir k d).routes = s.routes := rfl
@[simp] theorem State.setDir_streams (s : State) (k : Nat) (d : FlueDir) : (s.setDir k d).streams = s.streams := rfl
@[simp] theorem State.setDir_flash (s : State) (k : Nat) (d : FlueDir) : (s.setDir k d).flash = s.flash := rfl
@[simp] theorem State.setDir_journal (s : State) (k : Nat) (d : FlueDir) : (s.setDir k d).journal = s.journal := rfl
@[simp] theorem State.setDir_activateDue (s : State) (k : Nat) (d : FlueDir) : (s.setDir k d).activateDue = s.activateDue := rfl
@[simp] theorem State.setDir_recordsDue (s : State) (k : Nat) (d : FlueDir) : (s.setDir k d).recordsDue = s.recordsDue := rfl
@[simp] theorem State.setDir_records (s : State) (k : Nat) (d : FlueDir) : (s.setDir k d).records = s.records := rfl
@[simp] theorem State.setDir_measured (s : State) (k : Nat) (d : FlueDir) : (s.setDir k d).measured = s.measured := rfl
@[simp] theorem State.setDir_eslynLost (s : State) (k : Nat) (d : FlueDir) : (s.setDir k d).eslynLost = s.eslynLost := rfl
@[simp] theorem State.setDir_domain (s : State) (k : Nat) (d : FlueDir) : (s.setDir k d).domain = s.domain := rfl
@[simp] theorem State.setDir_eslynOut (s : State) (k : Nat) (d : FlueDir) : (s.setDir k d).eslynOut = s.eslynOut := rfl
@[simp] theorem State.setDir_mhz (s : State) (k : Nat) (d : FlueDir) : (s.setDir k d).mhz = s.mhz := rfl
@[simp] theorem State.setDir_mhzNext (s : State) (k : Nat) (d : FlueDir) : (s.setDir k d).mhzNext = s.mhzNext := rfl
@[simp] theorem State.setDir_power (s : State) (k : Nat) (d : FlueDir) : (s.setDir k d).power = s.power := rfl
@[simp] theorem State.setDir_lowSince (s : State) (k : Nat) (d : FlueDir) : (s.setDir k d).lowSince = s.lowSince := rfl
@[simp] theorem State.setDir_stepAt (s : State) (k : Nat) (d : FlueDir) : (s.setDir k d).stepAt = s.stepAt := rfl
@[simp] theorem State.setDir_upAt (s : State) (k : Nat) (d : FlueDir) : (s.setDir k d).upAt = s.upAt := rfl
@[simp] theorem State.setDir_msix (s : State) (k : Nat) (d : FlueDir) : (s.setDir k d).msix = s.msix := rfl
@[simp] theorem State.setDir_spdmOut (s : State) (k : Nat) (d : FlueDir) : (s.setDir k d).spdmOut = s.spdmOut := rfl
@[simp] theorem State.setDir_hostReads (s : State) (k : Nat) (d : FlueDir) : (s.setDir k d).hostReads = s.hostReads := rfl
@[simp] theorem State.setDir_ticks (s : State) (k : Nat) (d : FlueDir) : (s.setDir k d).ticks = s.ticks := rfl
@[simp] theorem State.setDir_frames (s : State) (k : Nat) (d : FlueDir) : (s.setDir k d).frames = s.frames := rfl
@[simp] theorem State.setDir_rotatedAt (s : State) (k : Nat) (d : FlueDir) : (s.setDir k d).rotatedAt = s.rotatedAt := rfl

/-! ### State.setEntry -/
@[simp] theorem State.setEntry_schedule (s : State) (d : Nat) (f : Nat → Nat) : (s.setEntry d f).schedule = s.schedule := rfl
@[simp] theorem State.setEntry_curCore (s : State) (d : Nat) (f : Nat → Nat) : (s.setEntry d f).curCore = s.curCore := rfl
@[simp] theorem State.setEntry_curSlot (s : State) (d : Nat) (f : Nat → Nat) : (s.setEntry d f).curSlot = s.curSlot := rfl
@[simp] theorem State.setEntry_stalled (s : State) (d : Nat) (f : Nat → Nat) : (s.setEntry d f).stalled = s.stalled := rfl
@[simp] theorem State.setEntry_freeCtr (s : State) (d : Nat) (f : Nat → Nat) : (s.setEntry d f).freeCtr = s.freeCtr := rfl
@[simp] theorem State.setEntry_steps (s : State) (d : Nat) (f : Nat → Nat) : (s.setEntry d f).steps = s.steps := rfl
@[simp] theorem State.setEntry_clock (s : State) (d : Nat) (f : Nat → Nat) : (s.setEntry d f).clock = s.clock := rfl
@[simp] theorem State.setEntry_time (s : State) (d : Nat) (f : Nat → Nat) : (s.setEntry d f).time = s.time := rfl
@[simp] theorem State.setEntry_mem (s : State) (d : Nat) (f : Nat → Nat) : (s.setEntry d f).mem = s.mem := rfl
@[simp] theorem State.setEntry_memPoison (s : State) (d : Nat) (f : Nat → Nat) : (s.setEntry d f).memPoison = s.memPoison := rfl
@[simp] theorem State.setEntry_dirtyPoison (s : State) (d : Nat) (f : Nat → Nat) : (s.setEntry d f).dirtyPoison = s.dirtyPoison := rfl
@[simp] theorem State.setEntry_busWrites (s : State) (d : Nat) (f : Nat → Nat) : (s.setEntry d f).busWrites = s.busWrites := rfl
@[simp] theorem State.setEntry_cores (s : State) (d : Nat) (f : Nat → Nat) : (s.setEntry d f).cores = s.cores := rfl
@[simp] theorem State.setEntry_dies (s : State) (d : Nat) (f : Nat → Nat) : (s.setEntry d f).dies = s.dies := rfl
@[simp] theorem State.setEntry_travel (s : State) (d : Nat) (f : Nat → Nat) : (s.setEntry d f).travel = s.travel := rfl
@[simp] theorem State.setEntry_launches (s : State) (d : Nat) (f : Nat → Nat) : (s.setEntry d f).launches = s.launches := rfl
@[simp] theorem State.setEntry_nextLaunch (s : State) (d : Nat) (f : Nat → Nat) : (s.setEntry d f).nextLaunch = s.nextLaunch := rfl
@[simp] theorem State.setEntry_nextOrder (s : State) (d : Nat) (f : Nat → Nat) : (s.setEntry d f).nextOrder = s.nextOrder := rfl
@[simp] theorem State.setEntry_nextStamp (s : State) (d : Nat) (f : Nat → Nat) : (s.setEntry d f).nextStamp = s.nextStamp := rfl
@[simp] theorem State.setEntry_queues (s : State) (d : Nat) (f : Nat → Nat) : (s.setEntry d f).queues = s.queues := rfl
@[simp] theorem State.setEntry_rrobin (s : State) (d : Nat) (f : Nat → Nat) : (s.setEntry d f).rrobin = s.rrobin := rfl
@[simp] theorem State.setEntry_aspaces (s : State) (d : Nat) (f : Nat → Nat) : (s.setEntry d f).aspaces = s.aspaces := rfl
@[simp] theorem State.setEntry_genDue (s : State) (d : Nat) (f : Nat → Nat) : (s.setEntry d f).genDue = s.genDue := rfl
@[simp] theorem State.setEntry_stokerB (s : State) (d : Nat) (f : Nat → Nat) : (s.setEntry d f).stokerB = s.stokerB := rfl
@[simp] theorem State.setEntry_standbyLive (s : State) (d : Nat) (f : Nat → Nat) : (s.setEntry d f).standbyLive = s.standbyLive := rfl
@[simp] theorem State.setEntry_standbyReady (s : State) (d : Nat) (f : Nat → Nat) : (s.setEntry d f).standbyReady = s.standbyReady := rfl
@[simp] theorem State.setEntry_verActive (s : State) (d : Nat) (f : Nat → Nat) : (s.setEntry d f).verActive = s.verActive := rfl
@[simp] theorem State.setEntry_verStandby (s : State) (d : Nat) (f : Nat → Nat) : (s.setEntry d f).verStandby = s.verStandby := rfl
@[simp] theorem State.setEntry_window0 (s : State) (d : Nat) (f : Nat → Nat) : (s.setEntry d f).window0 = s.window0 := rfl
@[simp] theorem State.setEntry_window1 (s : State) (d : Nat) (f : Nat → Nat) : (s.setEntry d f).window1 = s.window1 := rfl
@[simp] theorem State.setEntry_flue (s : State) (d : Nat) (f : Nat → Nat) : (s.setEntry d f).flue = s.flue := rfl
@[simp] theorem State.setEntry_streams (s : State) (d : Nat) (f : Nat → Nat) : (s.setEntry d f).streams = s.streams := rfl
@[simp] theorem State.setEntry_flash (s : State) (d : Nat) (f : Nat → Nat) : (s.setEntry d f).flash = s.flash := rfl
@[simp] theorem State.setEntry_journal (s : State) (d : Nat) (f : Nat → Nat) : (s.setEntry d f).journal = s.journal := rfl
@[simp] theorem State.setEntry_activateDue (s : State) (d : Nat) (f : Nat → Nat) : (s.setEntry d f).activateDue = s.activateDue := rfl
@[simp] theorem State.setEntry_recordsDue (s : State) (d : Nat) (f : Nat → Nat) : (s.setEntry d f).recordsDue = s.recordsDue := rfl
@[simp] theorem State.setEntry_records (s : State) (d : Nat) (f : Nat → Nat) : (s.setEntry d f).records = s.records := rfl
@[simp] theorem State.setEntry_measured (s : State) (d : Nat) (f : Nat → Nat) : (s.setEntry d f).measured = s.measured := rfl
@[simp] theorem State.setEntry_eslynLost (s : State) (d : Nat) (f : Nat → Nat) : (s.setEntry d f).eslynLost = s.eslynLost := rfl
@[simp] theorem State.setEntry_domain (s : State) (d : Nat) (f : Nat → Nat) : (s.setEntry d f).domain = s.domain := rfl
@[simp] theorem State.setEntry_eslynOut (s : State) (d : Nat) (f : Nat → Nat) : (s.setEntry d f).eslynOut = s.eslynOut := rfl
@[simp] theorem State.setEntry_mhz (s : State) (d : Nat) (f : Nat → Nat) : (s.setEntry d f).mhz = s.mhz := rfl
@[simp] theorem State.setEntry_mhzNext (s : State) (d : Nat) (f : Nat → Nat) : (s.setEntry d f).mhzNext = s.mhzNext := rfl
@[simp] theorem State.setEntry_power (s : State) (d : Nat) (f : Nat → Nat) : (s.setEntry d f).power = s.power := rfl
@[simp] theorem State.setEntry_lowSince (s : State) (d : Nat) (f : Nat → Nat) : (s.setEntry d f).lowSince = s.lowSince := rfl
@[simp] theorem State.setEntry_stepAt (s : State) (d : Nat) (f : Nat → Nat) : (s.setEntry d f).stepAt = s.stepAt := rfl
@[simp] theorem State.setEntry_upAt (s : State) (d : Nat) (f : Nat → Nat) : (s.setEntry d f).upAt = s.upAt := rfl
@[simp] theorem State.setEntry_msix (s : State) (d : Nat) (f : Nat → Nat) : (s.setEntry d f).msix = s.msix := rfl
@[simp] theorem State.setEntry_spdmOut (s : State) (d : Nat) (f : Nat → Nat) : (s.setEntry d f).spdmOut = s.spdmOut := rfl
@[simp] theorem State.setEntry_hostReads (s : State) (d : Nat) (f : Nat → Nat) : (s.setEntry d f).hostReads = s.hostReads := rfl
@[simp] theorem State.setEntry_ticks (s : State) (d : Nat) (f : Nat → Nat) : (s.setEntry d f).ticks = s.ticks := rfl
@[simp] theorem State.setEntry_frames (s : State) (d : Nat) (f : Nat → Nat) : (s.setEntry d f).frames = s.frames := rfl
@[simp] theorem State.setEntry_rotatedAt (s : State) (d : Nat) (f : Nat → Nat) : (s.setEntry d f).rotatedAt = s.rotatedAt := rfl

/-! ### State.notifyJoin -/
@[simp] theorem State.notifyJoin_schedule (s : State) (pa : Nat) : (s.notifyJoin pa).schedule = s.schedule := rfl
@[simp] theorem State.notifyJoin_curCore (s : State) (pa : Nat) : (s.notifyJoin pa).curCore = s.curCore := rfl
@[simp] theorem State.notifyJoin_curSlot (s : State) (pa : Nat) : (s.notifyJoin pa).curSlot = s.curSlot := rfl
@[simp] theorem State.notifyJoin_stalled (s : State) (pa : Nat) : (s.notifyJoin pa).stalled = s.stalled := rfl
@[simp] theorem State.notifyJoin_freeCtr (s : State) (pa : Nat) : (s.notifyJoin pa).freeCtr = s.freeCtr := rfl
@[simp] theorem State.notifyJoin_steps (s : State) (pa : Nat) : (s.notifyJoin pa).steps = s.steps := rfl
@[simp] theorem State.notifyJoin_clock (s : State) (pa : Nat) : (s.notifyJoin pa).clock = s.clock := rfl
@[simp] theorem State.notifyJoin_time (s : State) (pa : Nat) : (s.notifyJoin pa).time = s.time := rfl
@[simp] theorem State.notifyJoin_mem (s : State) (pa : Nat) : (s.notifyJoin pa).mem = s.mem := rfl
@[simp] theorem State.notifyJoin_memPoison (s : State) (pa : Nat) : (s.notifyJoin pa).memPoison = s.memPoison := rfl
@[simp] theorem State.notifyJoin_dirtyPoison (s : State) (pa : Nat) : (s.notifyJoin pa).dirtyPoison = s.dirtyPoison := rfl
@[simp] theorem State.notifyJoin_busWrites (s : State) (pa : Nat) : (s.notifyJoin pa).busWrites = s.busWrites := rfl
@[simp] theorem State.notifyJoin_dies (s : State) (pa : Nat) : (s.notifyJoin pa).dies = s.dies := rfl
@[simp] theorem State.notifyJoin_travel (s : State) (pa : Nat) : (s.notifyJoin pa).travel = s.travel := rfl
@[simp] theorem State.notifyJoin_launches (s : State) (pa : Nat) : (s.notifyJoin pa).launches = s.launches := rfl
@[simp] theorem State.notifyJoin_nextLaunch (s : State) (pa : Nat) : (s.notifyJoin pa).nextLaunch = s.nextLaunch := rfl
@[simp] theorem State.notifyJoin_nextOrder (s : State) (pa : Nat) : (s.notifyJoin pa).nextOrder = s.nextOrder := rfl
@[simp] theorem State.notifyJoin_nextStamp (s : State) (pa : Nat) : (s.notifyJoin pa).nextStamp = s.nextStamp := rfl
@[simp] theorem State.notifyJoin_queues (s : State) (pa : Nat) : (s.notifyJoin pa).queues = s.queues := rfl
@[simp] theorem State.notifyJoin_rrobin (s : State) (pa : Nat) : (s.notifyJoin pa).rrobin = s.rrobin := rfl
@[simp] theorem State.notifyJoin_aspaces (s : State) (pa : Nat) : (s.notifyJoin pa).aspaces = s.aspaces := rfl
@[simp] theorem State.notifyJoin_genDue (s : State) (pa : Nat) : (s.notifyJoin pa).genDue = s.genDue := rfl
@[simp] theorem State.notifyJoin_stokerB (s : State) (pa : Nat) : (s.notifyJoin pa).stokerB = s.stokerB := rfl
@[simp] theorem State.notifyJoin_standbyLive (s : State) (pa : Nat) : (s.notifyJoin pa).standbyLive = s.standbyLive := rfl
@[simp] theorem State.notifyJoin_standbyReady (s : State) (pa : Nat) : (s.notifyJoin pa).standbyReady = s.standbyReady := rfl
@[simp] theorem State.notifyJoin_verActive (s : State) (pa : Nat) : (s.notifyJoin pa).verActive = s.verActive := rfl
@[simp] theorem State.notifyJoin_verStandby (s : State) (pa : Nat) : (s.notifyJoin pa).verStandby = s.verStandby := rfl
@[simp] theorem State.notifyJoin_window0 (s : State) (pa : Nat) : (s.notifyJoin pa).window0 = s.window0 := rfl
@[simp] theorem State.notifyJoin_window1 (s : State) (pa : Nat) : (s.notifyJoin pa).window1 = s.window1 := rfl
@[simp] theorem State.notifyJoin_flue (s : State) (pa : Nat) : (s.notifyJoin pa).flue = s.flue := rfl
@[simp] theorem State.notifyJoin_routes (s : State) (pa : Nat) : (s.notifyJoin pa).routes = s.routes := rfl
@[simp] theorem State.notifyJoin_streams (s : State) (pa : Nat) : (s.notifyJoin pa).streams = s.streams := rfl
@[simp] theorem State.notifyJoin_flash (s : State) (pa : Nat) : (s.notifyJoin pa).flash = s.flash := rfl
@[simp] theorem State.notifyJoin_journal (s : State) (pa : Nat) : (s.notifyJoin pa).journal = s.journal := rfl
@[simp] theorem State.notifyJoin_activateDue (s : State) (pa : Nat) : (s.notifyJoin pa).activateDue = s.activateDue := rfl
@[simp] theorem State.notifyJoin_recordsDue (s : State) (pa : Nat) : (s.notifyJoin pa).recordsDue = s.recordsDue := rfl
@[simp] theorem State.notifyJoin_records (s : State) (pa : Nat) : (s.notifyJoin pa).records = s.records := rfl
@[simp] theorem State.notifyJoin_measured (s : State) (pa : Nat) : (s.notifyJoin pa).measured = s.measured := rfl
@[simp] theorem State.notifyJoin_eslynLost (s : State) (pa : Nat) : (s.notifyJoin pa).eslynLost = s.eslynLost := rfl
@[simp] theorem State.notifyJoin_domain (s : State) (pa : Nat) : (s.notifyJoin pa).domain = s.domain := rfl
@[simp] theorem State.notifyJoin_eslynOut (s : State) (pa : Nat) : (s.notifyJoin pa).eslynOut = s.eslynOut := rfl
@[simp] theorem State.notifyJoin_mhz (s : State) (pa : Nat) : (s.notifyJoin pa).mhz = s.mhz := rfl
@[simp] theorem State.notifyJoin_mhzNext (s : State) (pa : Nat) : (s.notifyJoin pa).mhzNext = s.mhzNext := rfl
@[simp] theorem State.notifyJoin_power (s : State) (pa : Nat) : (s.notifyJoin pa).power = s.power := rfl
@[simp] theorem State.notifyJoin_lowSince (s : State) (pa : Nat) : (s.notifyJoin pa).lowSince = s.lowSince := rfl
@[simp] theorem State.notifyJoin_stepAt (s : State) (pa : Nat) : (s.notifyJoin pa).stepAt = s.stepAt := rfl
@[simp] theorem State.notifyJoin_upAt (s : State) (pa : Nat) : (s.notifyJoin pa).upAt = s.upAt := rfl
@[simp] theorem State.notifyJoin_msix (s : State) (pa : Nat) : (s.notifyJoin pa).msix = s.msix := rfl
@[simp] theorem State.notifyJoin_spdmOut (s : State) (pa : Nat) : (s.notifyJoin pa).spdmOut = s.spdmOut := rfl
@[simp] theorem State.notifyJoin_hostReads (s : State) (pa : Nat) : (s.notifyJoin pa).hostReads = s.hostReads := rfl
@[simp] theorem State.notifyJoin_ticks (s : State) (pa : Nat) : (s.notifyJoin pa).ticks = s.ticks := rfl
@[simp] theorem State.notifyJoin_frames (s : State) (pa : Nat) : (s.notifyJoin pa).frames = s.frames := rfl
@[simp] theorem State.notifyJoin_rotatedAt (s : State) (pa : Nat) : (s.notifyJoin pa).rotatedAt = s.rotatedAt := rfl

/-! ### State.notifyZero -/
@[simp] theorem State.notifyZero_schedule (s : State) (pa : Nat) : (s.notifyZero pa).schedule = s.schedule := by unfold State.notifyZero; split <;> simp
@[simp] theorem State.notifyZero_curCore (s : State) (pa : Nat) : (s.notifyZero pa).curCore = s.curCore := by unfold State.notifyZero; split <;> simp
@[simp] theorem State.notifyZero_curSlot (s : State) (pa : Nat) : (s.notifyZero pa).curSlot = s.curSlot := by unfold State.notifyZero; split <;> simp
@[simp] theorem State.notifyZero_stalled (s : State) (pa : Nat) : (s.notifyZero pa).stalled = s.stalled := by unfold State.notifyZero; split <;> simp
@[simp] theorem State.notifyZero_freeCtr (s : State) (pa : Nat) : (s.notifyZero pa).freeCtr = s.freeCtr := by unfold State.notifyZero; split <;> simp
@[simp] theorem State.notifyZero_steps (s : State) (pa : Nat) : (s.notifyZero pa).steps = s.steps := by unfold State.notifyZero; split <;> simp
@[simp] theorem State.notifyZero_clock (s : State) (pa : Nat) : (s.notifyZero pa).clock = s.clock := by unfold State.notifyZero; split <;> simp
@[simp] theorem State.notifyZero_time (s : State) (pa : Nat) : (s.notifyZero pa).time = s.time := by unfold State.notifyZero; split <;> simp
@[simp] theorem State.notifyZero_mem (s : State) (pa : Nat) : (s.notifyZero pa).mem = s.mem := by unfold State.notifyZero; split <;> simp
@[simp] theorem State.notifyZero_memPoison (s : State) (pa : Nat) : (s.notifyZero pa).memPoison = s.memPoison := by unfold State.notifyZero; split <;> simp
@[simp] theorem State.notifyZero_dirtyPoison (s : State) (pa : Nat) : (s.notifyZero pa).dirtyPoison = s.dirtyPoison := by unfold State.notifyZero; split <;> simp
@[simp] theorem State.notifyZero_busWrites (s : State) (pa : Nat) : (s.notifyZero pa).busWrites = s.busWrites := by unfold State.notifyZero; split <;> simp
@[simp] theorem State.notifyZero_dies (s : State) (pa : Nat) : (s.notifyZero pa).dies = s.dies := by unfold State.notifyZero; split <;> simp
@[simp] theorem State.notifyZero_travel (s : State) (pa : Nat) : (s.notifyZero pa).travel = s.travel := by unfold State.notifyZero; split <;> simp
@[simp] theorem State.notifyZero_launches (s : State) (pa : Nat) : (s.notifyZero pa).launches = s.launches := by unfold State.notifyZero; split <;> simp
@[simp] theorem State.notifyZero_nextLaunch (s : State) (pa : Nat) : (s.notifyZero pa).nextLaunch = s.nextLaunch := by unfold State.notifyZero; split <;> simp
@[simp] theorem State.notifyZero_nextOrder (s : State) (pa : Nat) : (s.notifyZero pa).nextOrder = s.nextOrder := by unfold State.notifyZero; split <;> simp
@[simp] theorem State.notifyZero_nextStamp (s : State) (pa : Nat) : (s.notifyZero pa).nextStamp = s.nextStamp := by unfold State.notifyZero; split <;> simp
@[simp] theorem State.notifyZero_queues (s : State) (pa : Nat) : (s.notifyZero pa).queues = s.queues := by unfold State.notifyZero; split <;> simp
@[simp] theorem State.notifyZero_rrobin (s : State) (pa : Nat) : (s.notifyZero pa).rrobin = s.rrobin := by unfold State.notifyZero; split <;> simp
@[simp] theorem State.notifyZero_aspaces (s : State) (pa : Nat) : (s.notifyZero pa).aspaces = s.aspaces := by unfold State.notifyZero; split <;> simp
@[simp] theorem State.notifyZero_genDue (s : State) (pa : Nat) : (s.notifyZero pa).genDue = s.genDue := by unfold State.notifyZero; split <;> simp
@[simp] theorem State.notifyZero_stokerB (s : State) (pa : Nat) : (s.notifyZero pa).stokerB = s.stokerB := by unfold State.notifyZero; split <;> simp
@[simp] theorem State.notifyZero_standbyLive (s : State) (pa : Nat) : (s.notifyZero pa).standbyLive = s.standbyLive := by unfold State.notifyZero; split <;> simp
@[simp] theorem State.notifyZero_standbyReady (s : State) (pa : Nat) : (s.notifyZero pa).standbyReady = s.standbyReady := by unfold State.notifyZero; split <;> simp
@[simp] theorem State.notifyZero_verActive (s : State) (pa : Nat) : (s.notifyZero pa).verActive = s.verActive := by unfold State.notifyZero; split <;> simp
@[simp] theorem State.notifyZero_verStandby (s : State) (pa : Nat) : (s.notifyZero pa).verStandby = s.verStandby := by unfold State.notifyZero; split <;> simp
@[simp] theorem State.notifyZero_window0 (s : State) (pa : Nat) : (s.notifyZero pa).window0 = s.window0 := by unfold State.notifyZero; split <;> simp
@[simp] theorem State.notifyZero_window1 (s : State) (pa : Nat) : (s.notifyZero pa).window1 = s.window1 := by unfold State.notifyZero; split <;> simp
@[simp] theorem State.notifyZero_flue (s : State) (pa : Nat) : (s.notifyZero pa).flue = s.flue := by unfold State.notifyZero; split <;> simp
@[simp] theorem State.notifyZero_routes (s : State) (pa : Nat) : (s.notifyZero pa).routes = s.routes := by unfold State.notifyZero; split <;> simp
@[simp] theorem State.notifyZero_streams (s : State) (pa : Nat) : (s.notifyZero pa).streams = s.streams := by unfold State.notifyZero; split <;> simp
@[simp] theorem State.notifyZero_flash (s : State) (pa : Nat) : (s.notifyZero pa).flash = s.flash := by unfold State.notifyZero; split <;> simp
@[simp] theorem State.notifyZero_journal (s : State) (pa : Nat) : (s.notifyZero pa).journal = s.journal := by unfold State.notifyZero; split <;> simp
@[simp] theorem State.notifyZero_activateDue (s : State) (pa : Nat) : (s.notifyZero pa).activateDue = s.activateDue := by unfold State.notifyZero; split <;> simp
@[simp] theorem State.notifyZero_recordsDue (s : State) (pa : Nat) : (s.notifyZero pa).recordsDue = s.recordsDue := by unfold State.notifyZero; split <;> simp
@[simp] theorem State.notifyZero_records (s : State) (pa : Nat) : (s.notifyZero pa).records = s.records := by unfold State.notifyZero; split <;> simp
@[simp] theorem State.notifyZero_measured (s : State) (pa : Nat) : (s.notifyZero pa).measured = s.measured := by unfold State.notifyZero; split <;> simp
@[simp] theorem State.notifyZero_eslynLost (s : State) (pa : Nat) : (s.notifyZero pa).eslynLost = s.eslynLost := by unfold State.notifyZero; split <;> simp
@[simp] theorem State.notifyZero_domain (s : State) (pa : Nat) : (s.notifyZero pa).domain = s.domain := by unfold State.notifyZero; split <;> simp
@[simp] theorem State.notifyZero_eslynOut (s : State) (pa : Nat) : (s.notifyZero pa).eslynOut = s.eslynOut := by unfold State.notifyZero; split <;> simp
@[simp] theorem State.notifyZero_mhz (s : State) (pa : Nat) : (s.notifyZero pa).mhz = s.mhz := by unfold State.notifyZero; split <;> simp
@[simp] theorem State.notifyZero_mhzNext (s : State) (pa : Nat) : (s.notifyZero pa).mhzNext = s.mhzNext := by unfold State.notifyZero; split <;> simp
@[simp] theorem State.notifyZero_power (s : State) (pa : Nat) : (s.notifyZero pa).power = s.power := by unfold State.notifyZero; split <;> simp
@[simp] theorem State.notifyZero_lowSince (s : State) (pa : Nat) : (s.notifyZero pa).lowSince = s.lowSince := by unfold State.notifyZero; split <;> simp
@[simp] theorem State.notifyZero_stepAt (s : State) (pa : Nat) : (s.notifyZero pa).stepAt = s.stepAt := by unfold State.notifyZero; split <;> simp
@[simp] theorem State.notifyZero_upAt (s : State) (pa : Nat) : (s.notifyZero pa).upAt = s.upAt := by unfold State.notifyZero; split <;> simp
@[simp] theorem State.notifyZero_msix (s : State) (pa : Nat) : (s.notifyZero pa).msix = s.msix := by unfold State.notifyZero; split <;> simp
@[simp] theorem State.notifyZero_spdmOut (s : State) (pa : Nat) : (s.notifyZero pa).spdmOut = s.spdmOut := by unfold State.notifyZero; split <;> simp
@[simp] theorem State.notifyZero_hostReads (s : State) (pa : Nat) : (s.notifyZero pa).hostReads = s.hostReads := by unfold State.notifyZero; split <;> simp
@[simp] theorem State.notifyZero_ticks (s : State) (pa : Nat) : (s.notifyZero pa).ticks = s.ticks := by unfold State.notifyZero; split <;> simp
@[simp] theorem State.notifyZero_frames (s : State) (pa : Nat) : (s.notifyZero pa).frames = s.frames := by unfold State.notifyZero; split <;> simp
@[simp] theorem State.notifyZero_rotatedAt (s : State) (pa : Nat) : (s.notifyZero pa).rotatedAt = s.rotatedAt := by unfold State.notifyZero; split <;> simp

/-! ### Warp.setOff -/
@[simp] theorem Warp.setOff_status (z : Warp) (o : Nat) (m : LaneMask) (x : Lanes) : (z.setOff o m x).status = z.status := rfl
@[simp] theorem Warp.setOff_kind (z : Warp) (o : Nat) (m : LaneMask) (x : Lanes) : (z.setOff o m x).kind = z.kind := rfl
@[simp] theorem Warp.setOff_launch (z : Warp) (o : Nat) (m : LaneMask) (x : Lanes) : (z.setOff o m x).launch = z.launch := rfl
@[simp] theorem Warp.setOff_block (z : Warp) (o : Nat) (m : LaneMask) (x : Lanes) : (z.setOff o m x).block = z.block := rfl
@[simp] theorem Warp.setOff_idx (z : Warp) (o : Nat) (m : LaneMask) (x : Lanes) : (z.setOff o m x).idx = z.idx := rfl
@[simp] theorem Warp.setOff_wid (z : Warp) (o : Nat) (m : LaneMask) (x : Lanes) : (z.setOff o m x).wid = z.wid := rfl
@[simp] theorem Warp.setOff_widfmt (z : Warp) (o : Nat) (m : LaneMask) (x : Lanes) : (z.setOff o m x).widfmt = z.widfmt := rfl
@[simp] theorem Warp.setOff_blockWarps (z : Warp) (o : Nat) (m : LaneMask) (x : Lanes) : (z.setOff o m x).blockWarps = z.blockWarps := rfl
@[simp] theorem Warp.setOff_since (z : Warp) (o : Nat) (m : LaneMask) (x : Lanes) : (z.setOff o m x).since = z.since := rfl
@[simp] theorem Warp.setOff_waited (z : Warp) (o : Nat) (m : LaneMask) (x : Lanes) : (z.setOff o m x).waited = z.waited := rfl
@[simp] theorem Warp.setOff_pc (z : Warp) (o : Nat) (m : LaneMask) (x : Lanes) : (z.setOff o m x).pc = z.pc := rfl
@[simp] theorem Warp.setOff_active (z : Warp) (o : Nat) (m : LaneMask) (x : Lanes) : (z.setOff o m x).active = z.active := rfl
@[simp] theorem Warp.setOff_launchMask (z : Warp) (o : Nat) (m : LaneMask) (x : Lanes) : (z.setOff o m x).launchMask = z.launchMask := rfl
@[simp] theorem Warp.setOff_base (z : Warp) (o : Nat) (m : LaneMask) (x : Lanes) : (z.setOff o m x).base = z.base := rfl
@[simp] theorem Warp.setOff_m (z : Warp) (o : Nat) (m : LaneMask) (x : Lanes) : (z.setOff o m x).m = z.m := rfl
@[simp] theorem Warp.setOff_entered (z : Warp) (o : Nat) (m : LaneMask) (x : Lanes) : (z.setOff o m x).entered = z.entered := rfl
@[simp] theorem Warp.setOff_links (z : Warp) (o : Nat) (m : LaneMask) (x : Lanes) : (z.setOff o m x).links = z.links := rfl
@[simp] theorem Warp.setOff_spilled (z : Warp) (o : Nat) (m : LaneMask) (x : Lanes) : (z.setOff o m x).spilled = z.spilled := rfl
@[simp] theorem Warp.setOff_vEmpty (z : Warp) (o : Nat) (m : LaneMask) (x : Lanes) : (z.setOff o m x).vEmpty = z.vEmpty := rfl
@[simp] theorem Warp.setOff_kregs (z : Warp) (o : Nat) (m : LaneMask) (x : Lanes) : (z.setOff o m x).kregs = z.kregs := rfl
@[simp] theorem Warp.setOff_kEmpty (z : Warp) (o : Nat) (m : LaneMask) (x : Lanes) : (z.setOff o m x).kEmpty = z.kEmpty := rfl
@[simp] theorem Warp.setOff_kPoison (z : Warp) (o : Nat) (m : LaneMask) (x : Lanes) : (z.setOff o m x).kPoison = z.kPoison := rfl
@[simp] theorem Warp.setOff_preds (z : Warp) (o : Nat) (m : LaneMask) (x : Lanes) : (z.setOff o m x).preds = z.preds := rfl
@[simp] theorem Warp.setOff_div (z : Warp) (o : Nat) (m : LaneMask) (x : Lanes) : (z.setOff o m x).div = z.div := rfl
@[simp] theorem Warp.setOff_divSpilled (z : Warp) (o : Nat) (m : LaneMask) (x : Lanes) : (z.setOff o m x).divSpilled = z.divSpilled := rfl
@[simp] theorem Warp.setOff_loops (z : Warp) (o : Nat) (m : LaneMask) (x : Lanes) : (z.setOff o m x).loops = z.loops := rfl
@[simp] theorem Warp.setOff_rep (z : Warp) (o : Nat) (m : LaneMask) (x : Lanes) : (z.setOff o m x).rep = z.rep := rfl
@[simp] theorem Warp.setOff_repFrom (z : Warp) (o : Nat) (m : LaneMask) (x : Lanes) : (z.setOff o m x).repFrom = z.repFrom := rfl
@[simp] theorem Warp.setOff_fpsr (z : Warp) (o : Nat) (m : LaneMask) (x : Lanes) : (z.setOff o m x).fpsr = z.fpsr := rfl
@[simp] theorem Warp.setOff_lpcfg0 (z : Warp) (o : Nat) (m : LaneMask) (x : Lanes) : (z.setOff o m x).lpcfg0 = z.lpcfg0 := rfl
@[simp] theorem Warp.setOff_lpcfg1 (z : Warp) (o : Nat) (m : LaneMask) (x : Lanes) : (z.setOff o m x).lpcfg1 = z.lpcfg1 := rfl
@[simp] theorem Warp.setOff_budget (z : Warp) (o : Nat) (m : LaneMask) (x : Lanes) : (z.setOff o m x).budget = z.budget := rfl
@[simp] theorem Warp.setOff_spillBase (z : Warp) (o : Nat) (m : LaneMask) (x : Lanes) : (z.setOff o m x).spillBase = z.spillBase := rfl
@[simp] theorem Warp.setOff_spillSize (z : Warp) (o : Nat) (m : LaneMask) (x : Lanes) : (z.setOff o m x).spillSize = z.spillSize := rfl
@[simp] theorem Warp.setOff_spillArea (z : Warp) (o : Nat) (m : LaneMask) (x : Lanes) : (z.setOff o m x).spillArea = z.spillArea := rfl
@[simp] theorem Warp.setOff_newest (z : Warp) (o : Nat) (m : LaneMask) (x : Lanes) : (z.setOff o m x).newest = z.newest := rfl
@[simp] theorem Warp.setOff_openLeft (z : Warp) (o : Nat) (m : LaneMask) (x : Lanes) : (z.setOff o m x).openLeft = z.openLeft := rfl
@[simp] theorem Warp.setOff_batches (z : Warp) (o : Nat) (m : LaneMask) (x : Lanes) : (z.setOff o m x).batches = z.batches := rfl
@[simp] theorem Warp.setOff_failed (z : Warp) (o : Nat) (m : LaneMask) (x : Lanes) : (z.setOff o m x).failed = z.failed := rfl
@[simp] theorem Warp.setOff_wrote (z : Warp) (o : Nat) (m : LaneMask) (x : Lanes) : (z.setOff o m x).wrote = z.wrote := rfl
@[simp] theorem Warp.setOff_benes (z : Warp) (o : Nat) (m : LaneMask) (x : Lanes) : (z.setOff o m x).benes = z.benes := rfl
@[simp] theorem Warp.setOff_epoch (z : Warp) (o : Nat) (m : LaneMask) (x : Lanes) : (z.setOff o m x).epoch = z.epoch := rfl
@[simp] theorem Warp.setOff_faddoCount (z : Warp) (o : Nat) (m : LaneMask) (x : Lanes) : (z.setOff o m x).faddoCount = z.faddoCount := rfl
@[simp] theorem Warp.setOff_joins (z : Warp) (o : Nat) (m : LaneMask) (x : Lanes) : (z.setOff o m x).joins = z.joins := rfl
@[simp] theorem Warp.setOff_exitDecs (z : Warp) (o : Nat) (m : LaneMask) (x : Lanes) : (z.setOff o m x).exitDecs = z.exitDecs := rfl
@[simp] theorem Warp.setOff_inflight (z : Warp) (o : Nat) (m : LaneMask) (x : Lanes) : (z.setOff o m x).inflight = z.inflight := rfl
@[simp] theorem Warp.setOff_vtokWaits (z : Warp) (o : Nat) (m : LaneMask) (x : Lanes) : (z.setOff o m x).vtokWaits = z.vtokWaits := rfl
@[simp] theorem Warp.setOff_park (z : Warp) (o : Nat) (m : LaneMask) (x : Lanes) : (z.setOff o m x).park = z.park := rfl
@[simp] theorem Warp.setOff_parkedAt (z : Warp) (o : Nat) (m : LaneMask) (x : Lanes) : (z.setOff o m x).parkedAt = z.parkedAt := rfl
@[simp] theorem Warp.setOff_lent (z : Warp) (o : Nat) (m : LaneMask) (x : Lanes) : (z.setOff o m x).lent = z.lent := rfl
@[simp] theorem Warp.setOff_wakePc (z : Warp) (o : Nat) (m : LaneMask) (x : Lanes) : (z.setOff o m x).wakePc = z.wakePc := rfl
@[simp] theorem Warp.setOff_replay (z : Warp) (o : Nat) (m : LaneMask) (x : Lanes) : (z.setOff o m x).replay = z.replay := rfl
@[simp] theorem Warp.setOff_suppress (z : Warp) (o : Nat) (m : LaneMask) (x : Lanes) : (z.setOff o m x).suppress = z.suppress := rfl
@[simp] theorem Warp.setOff_tvec (z : Warp) (o : Nat) (m : LaneMask) (x : Lanes) : (z.setOff o m x).tvec = z.tvec := rfl
@[simp] theorem Warp.setOff_tcause (z : Warp) (o : Nat) (m : LaneMask) (x : Lanes) : (z.setOff o m x).tcause = z.tcause := rfl
@[simp] theorem Warp.setOff_tepc (z : Warp) (o : Nat) (m : LaneMask) (x : Lanes) : (z.setOff o m x).tepc = z.tepc := rfl
@[simp] theorem Warp.setOff_tstat (z : Warp) (o : Nat) (m : LaneMask) (x : Lanes) : (z.setOff o m x).tstat = z.tstat := rfl
@[simp] theorem Warp.setOff_tmask (z : Warp) (o : Nat) (m : LaneMask) (x : Lanes) : (z.setOff o m x).tmask = z.tmask := rfl
@[simp] theorem Warp.setOff_detail0 (z : Warp) (o : Nat) (m : LaneMask) (x : Lanes) : (z.setOff o m x).detail0 = z.detail0 := rfl
@[simp] theorem Warp.setOff_detail1 (z : Warp) (o : Nat) (m : LaneMask) (x : Lanes) : (z.setOff o m x).detail1 = z.detail1 := rfl
@[simp] theorem Warp.setOff_detail2 (z : Warp) (o : Nat) (m : LaneMask) (x : Lanes) : (z.setOff o m x).detail2 = z.detail2 := rfl
@[simp] theorem Warp.setOff_tscr (z : Warp) (o : Nat) (m : LaneMask) (x : Lanes) : (z.setOff o m x).tscr = z.tscr := rfl
@[simp] theorem Warp.setOff_bpaddr (z : Warp) (o : Nat) (m : LaneMask) (x : Lanes) : (z.setOff o m x).bpaddr = z.bpaddr := rfl
@[simp] theorem Warp.setOff_wpaddr (z : Warp) (o : Nat) (m : LaneMask) (x : Lanes) : (z.setOff o m x).wpaddr = z.wpaddr := rfl
@[simp] theorem Warp.setOff_wpctl (z : Warp) (o : Nat) (m : LaneMask) (x : Lanes) : (z.setOff o m x).wpctl = z.wpctl := rfl

/-! ### Warp.setV -/
@[simp] theorem Warp.setV_status (z : Warp) (r : Nat) (m : LaneMask) (x : Lanes) : (z.setV r m x).status = z.status := rfl
@[simp] theorem Warp.setV_kind (z : Warp) (r : Nat) (m : LaneMask) (x : Lanes) : (z.setV r m x).kind = z.kind := rfl
@[simp] theorem Warp.setV_launch (z : Warp) (r : Nat) (m : LaneMask) (x : Lanes) : (z.setV r m x).launch = z.launch := rfl
@[simp] theorem Warp.setV_block (z : Warp) (r : Nat) (m : LaneMask) (x : Lanes) : (z.setV r m x).block = z.block := rfl
@[simp] theorem Warp.setV_idx (z : Warp) (r : Nat) (m : LaneMask) (x : Lanes) : (z.setV r m x).idx = z.idx := rfl
@[simp] theorem Warp.setV_wid (z : Warp) (r : Nat) (m : LaneMask) (x : Lanes) : (z.setV r m x).wid = z.wid := rfl
@[simp] theorem Warp.setV_widfmt (z : Warp) (r : Nat) (m : LaneMask) (x : Lanes) : (z.setV r m x).widfmt = z.widfmt := rfl
@[simp] theorem Warp.setV_blockWarps (z : Warp) (r : Nat) (m : LaneMask) (x : Lanes) : (z.setV r m x).blockWarps = z.blockWarps := rfl
@[simp] theorem Warp.setV_since (z : Warp) (r : Nat) (m : LaneMask) (x : Lanes) : (z.setV r m x).since = z.since := rfl
@[simp] theorem Warp.setV_waited (z : Warp) (r : Nat) (m : LaneMask) (x : Lanes) : (z.setV r m x).waited = z.waited := rfl
@[simp] theorem Warp.setV_pc (z : Warp) (r : Nat) (m : LaneMask) (x : Lanes) : (z.setV r m x).pc = z.pc := rfl
@[simp] theorem Warp.setV_active (z : Warp) (r : Nat) (m : LaneMask) (x : Lanes) : (z.setV r m x).active = z.active := rfl
@[simp] theorem Warp.setV_launchMask (z : Warp) (r : Nat) (m : LaneMask) (x : Lanes) : (z.setV r m x).launchMask = z.launchMask := rfl
@[simp] theorem Warp.setV_base (z : Warp) (r : Nat) (m : LaneMask) (x : Lanes) : (z.setV r m x).base = z.base := rfl
@[simp] theorem Warp.setV_m (z : Warp) (r : Nat) (m : LaneMask) (x : Lanes) : (z.setV r m x).m = z.m := rfl
@[simp] theorem Warp.setV_entered (z : Warp) (r : Nat) (m : LaneMask) (x : Lanes) : (z.setV r m x).entered = z.entered := rfl
@[simp] theorem Warp.setV_links (z : Warp) (r : Nat) (m : LaneMask) (x : Lanes) : (z.setV r m x).links = z.links := rfl
@[simp] theorem Warp.setV_spilled (z : Warp) (r : Nat) (m : LaneMask) (x : Lanes) : (z.setV r m x).spilled = z.spilled := rfl
@[simp] theorem Warp.setV_vEmpty (z : Warp) (r : Nat) (m : LaneMask) (x : Lanes) : (z.setV r m x).vEmpty = z.vEmpty := rfl
@[simp] theorem Warp.setV_kregs (z : Warp) (r : Nat) (m : LaneMask) (x : Lanes) : (z.setV r m x).kregs = z.kregs := rfl
@[simp] theorem Warp.setV_kEmpty (z : Warp) (r : Nat) (m : LaneMask) (x : Lanes) : (z.setV r m x).kEmpty = z.kEmpty := rfl
@[simp] theorem Warp.setV_kPoison (z : Warp) (r : Nat) (m : LaneMask) (x : Lanes) : (z.setV r m x).kPoison = z.kPoison := rfl
@[simp] theorem Warp.setV_preds (z : Warp) (r : Nat) (m : LaneMask) (x : Lanes) : (z.setV r m x).preds = z.preds := rfl
@[simp] theorem Warp.setV_div (z : Warp) (r : Nat) (m : LaneMask) (x : Lanes) : (z.setV r m x).div = z.div := rfl
@[simp] theorem Warp.setV_divSpilled (z : Warp) (r : Nat) (m : LaneMask) (x : Lanes) : (z.setV r m x).divSpilled = z.divSpilled := rfl
@[simp] theorem Warp.setV_loops (z : Warp) (r : Nat) (m : LaneMask) (x : Lanes) : (z.setV r m x).loops = z.loops := rfl
@[simp] theorem Warp.setV_rep (z : Warp) (r : Nat) (m : LaneMask) (x : Lanes) : (z.setV r m x).rep = z.rep := rfl
@[simp] theorem Warp.setV_repFrom (z : Warp) (r : Nat) (m : LaneMask) (x : Lanes) : (z.setV r m x).repFrom = z.repFrom := rfl
@[simp] theorem Warp.setV_fpsr (z : Warp) (r : Nat) (m : LaneMask) (x : Lanes) : (z.setV r m x).fpsr = z.fpsr := rfl
@[simp] theorem Warp.setV_lpcfg0 (z : Warp) (r : Nat) (m : LaneMask) (x : Lanes) : (z.setV r m x).lpcfg0 = z.lpcfg0 := rfl
@[simp] theorem Warp.setV_lpcfg1 (z : Warp) (r : Nat) (m : LaneMask) (x : Lanes) : (z.setV r m x).lpcfg1 = z.lpcfg1 := rfl
@[simp] theorem Warp.setV_budget (z : Warp) (r : Nat) (m : LaneMask) (x : Lanes) : (z.setV r m x).budget = z.budget := rfl
@[simp] theorem Warp.setV_spillBase (z : Warp) (r : Nat) (m : LaneMask) (x : Lanes) : (z.setV r m x).spillBase = z.spillBase := rfl
@[simp] theorem Warp.setV_spillSize (z : Warp) (r : Nat) (m : LaneMask) (x : Lanes) : (z.setV r m x).spillSize = z.spillSize := rfl
@[simp] theorem Warp.setV_spillArea (z : Warp) (r : Nat) (m : LaneMask) (x : Lanes) : (z.setV r m x).spillArea = z.spillArea := rfl
@[simp] theorem Warp.setV_newest (z : Warp) (r : Nat) (m : LaneMask) (x : Lanes) : (z.setV r m x).newest = z.newest := rfl
@[simp] theorem Warp.setV_openLeft (z : Warp) (r : Nat) (m : LaneMask) (x : Lanes) : (z.setV r m x).openLeft = z.openLeft := rfl
@[simp] theorem Warp.setV_batches (z : Warp) (r : Nat) (m : LaneMask) (x : Lanes) : (z.setV r m x).batches = z.batches := rfl
@[simp] theorem Warp.setV_failed (z : Warp) (r : Nat) (m : LaneMask) (x : Lanes) : (z.setV r m x).failed = z.failed := rfl
@[simp] theorem Warp.setV_wrote (z : Warp) (r : Nat) (m : LaneMask) (x : Lanes) : (z.setV r m x).wrote = z.wrote := rfl
@[simp] theorem Warp.setV_benes (z : Warp) (r : Nat) (m : LaneMask) (x : Lanes) : (z.setV r m x).benes = z.benes := rfl
@[simp] theorem Warp.setV_epoch (z : Warp) (r : Nat) (m : LaneMask) (x : Lanes) : (z.setV r m x).epoch = z.epoch := rfl
@[simp] theorem Warp.setV_faddoCount (z : Warp) (r : Nat) (m : LaneMask) (x : Lanes) : (z.setV r m x).faddoCount = z.faddoCount := rfl
@[simp] theorem Warp.setV_joins (z : Warp) (r : Nat) (m : LaneMask) (x : Lanes) : (z.setV r m x).joins = z.joins := rfl
@[simp] theorem Warp.setV_exitDecs (z : Warp) (r : Nat) (m : LaneMask) (x : Lanes) : (z.setV r m x).exitDecs = z.exitDecs := rfl
@[simp] theorem Warp.setV_inflight (z : Warp) (r : Nat) (m : LaneMask) (x : Lanes) : (z.setV r m x).inflight = z.inflight := rfl
@[simp] theorem Warp.setV_vtokWaits (z : Warp) (r : Nat) (m : LaneMask) (x : Lanes) : (z.setV r m x).vtokWaits = z.vtokWaits := rfl
@[simp] theorem Warp.setV_park (z : Warp) (r : Nat) (m : LaneMask) (x : Lanes) : (z.setV r m x).park = z.park := rfl
@[simp] theorem Warp.setV_parkedAt (z : Warp) (r : Nat) (m : LaneMask) (x : Lanes) : (z.setV r m x).parkedAt = z.parkedAt := rfl
@[simp] theorem Warp.setV_lent (z : Warp) (r : Nat) (m : LaneMask) (x : Lanes) : (z.setV r m x).lent = z.lent := rfl
@[simp] theorem Warp.setV_wakePc (z : Warp) (r : Nat) (m : LaneMask) (x : Lanes) : (z.setV r m x).wakePc = z.wakePc := rfl
@[simp] theorem Warp.setV_replay (z : Warp) (r : Nat) (m : LaneMask) (x : Lanes) : (z.setV r m x).replay = z.replay := rfl
@[simp] theorem Warp.setV_suppress (z : Warp) (r : Nat) (m : LaneMask) (x : Lanes) : (z.setV r m x).suppress = z.suppress := rfl
@[simp] theorem Warp.setV_tvec (z : Warp) (r : Nat) (m : LaneMask) (x : Lanes) : (z.setV r m x).tvec = z.tvec := rfl
@[simp] theorem Warp.setV_tcause (z : Warp) (r : Nat) (m : LaneMask) (x : Lanes) : (z.setV r m x).tcause = z.tcause := rfl
@[simp] theorem Warp.setV_tepc (z : Warp) (r : Nat) (m : LaneMask) (x : Lanes) : (z.setV r m x).tepc = z.tepc := rfl
@[simp] theorem Warp.setV_tstat (z : Warp) (r : Nat) (m : LaneMask) (x : Lanes) : (z.setV r m x).tstat = z.tstat := rfl
@[simp] theorem Warp.setV_tmask (z : Warp) (r : Nat) (m : LaneMask) (x : Lanes) : (z.setV r m x).tmask = z.tmask := rfl
@[simp] theorem Warp.setV_detail0 (z : Warp) (r : Nat) (m : LaneMask) (x : Lanes) : (z.setV r m x).detail0 = z.detail0 := rfl
@[simp] theorem Warp.setV_detail1 (z : Warp) (r : Nat) (m : LaneMask) (x : Lanes) : (z.setV r m x).detail1 = z.detail1 := rfl
@[simp] theorem Warp.setV_detail2 (z : Warp) (r : Nat) (m : LaneMask) (x : Lanes) : (z.setV r m x).detail2 = z.detail2 := rfl
@[simp] theorem Warp.setV_tscr (z : Warp) (r : Nat) (m : LaneMask) (x : Lanes) : (z.setV r m x).tscr = z.tscr := rfl
@[simp] theorem Warp.setV_bpaddr (z : Warp) (r : Nat) (m : LaneMask) (x : Lanes) : (z.setV r m x).bpaddr = z.bpaddr := rfl
@[simp] theorem Warp.setV_wpaddr (z : Warp) (r : Nat) (m : LaneMask) (x : Lanes) : (z.setV r m x).wpaddr = z.wpaddr := rfl
@[simp] theorem Warp.setV_wpctl (z : Warp) (r : Nat) (m : LaneMask) (x : Lanes) : (z.setV r m x).wpctl = z.wpctl := rfl

/-! ### Warp.setK -/
@[simp] theorem Warp.setK_status (z : Warp) (r : Nat) (x : Word) : (z.setK r x).status = z.status := by unfold Warp.setK; split <;> rfl
@[simp] theorem Warp.setK_kind (z : Warp) (r : Nat) (x : Word) : (z.setK r x).kind = z.kind := by unfold Warp.setK; split <;> rfl
@[simp] theorem Warp.setK_launch (z : Warp) (r : Nat) (x : Word) : (z.setK r x).launch = z.launch := by unfold Warp.setK; split <;> rfl
@[simp] theorem Warp.setK_block (z : Warp) (r : Nat) (x : Word) : (z.setK r x).block = z.block := by unfold Warp.setK; split <;> rfl
@[simp] theorem Warp.setK_idx (z : Warp) (r : Nat) (x : Word) : (z.setK r x).idx = z.idx := by unfold Warp.setK; split <;> rfl
@[simp] theorem Warp.setK_wid (z : Warp) (r : Nat) (x : Word) : (z.setK r x).wid = z.wid := by unfold Warp.setK; split <;> rfl
@[simp] theorem Warp.setK_widfmt (z : Warp) (r : Nat) (x : Word) : (z.setK r x).widfmt = z.widfmt := by unfold Warp.setK; split <;> rfl
@[simp] theorem Warp.setK_blockWarps (z : Warp) (r : Nat) (x : Word) : (z.setK r x).blockWarps = z.blockWarps := by unfold Warp.setK; split <;> rfl
@[simp] theorem Warp.setK_since (z : Warp) (r : Nat) (x : Word) : (z.setK r x).since = z.since := by unfold Warp.setK; split <;> rfl
@[simp] theorem Warp.setK_waited (z : Warp) (r : Nat) (x : Word) : (z.setK r x).waited = z.waited := by unfold Warp.setK; split <;> rfl
@[simp] theorem Warp.setK_pc (z : Warp) (r : Nat) (x : Word) : (z.setK r x).pc = z.pc := by unfold Warp.setK; split <;> rfl
@[simp] theorem Warp.setK_active (z : Warp) (r : Nat) (x : Word) : (z.setK r x).active = z.active := by unfold Warp.setK; split <;> rfl
@[simp] theorem Warp.setK_launchMask (z : Warp) (r : Nat) (x : Word) : (z.setK r x).launchMask = z.launchMask := by unfold Warp.setK; split <;> rfl
@[simp] theorem Warp.setK_base (z : Warp) (r : Nat) (x : Word) : (z.setK r x).base = z.base := by unfold Warp.setK; split <;> rfl
@[simp] theorem Warp.setK_m (z : Warp) (r : Nat) (x : Word) : (z.setK r x).m = z.m := by unfold Warp.setK; split <;> rfl
@[simp] theorem Warp.setK_entered (z : Warp) (r : Nat) (x : Word) : (z.setK r x).entered = z.entered := by unfold Warp.setK; split <;> rfl
@[simp] theorem Warp.setK_links (z : Warp) (r : Nat) (x : Word) : (z.setK r x).links = z.links := by unfold Warp.setK; split <;> rfl
@[simp] theorem Warp.setK_spilled (z : Warp) (r : Nat) (x : Word) : (z.setK r x).spilled = z.spilled := by unfold Warp.setK; split <;> rfl
@[simp] theorem Warp.setK_vregs (z : Warp) (r : Nat) (x : Word) : (z.setK r x).vregs = z.vregs := by unfold Warp.setK; split <;> rfl
@[simp] theorem Warp.setK_vEmpty (z : Warp) (r : Nat) (x : Word) : (z.setK r x).vEmpty = z.vEmpty := by unfold Warp.setK; split <;> rfl
@[simp] theorem Warp.setK_vPoison (z : Warp) (r : Nat) (x : Word) : (z.setK r x).vPoison = z.vPoison := by unfold Warp.setK; split <;> rfl
@[simp] theorem Warp.setK_kEmpty (z : Warp) (r : Nat) (x : Word) : (z.setK r x).kEmpty = z.kEmpty := by unfold Warp.setK; split <;> rfl
@[simp] theorem Warp.setK_preds (z : Warp) (r : Nat) (x : Word) : (z.setK r x).preds = z.preds := by unfold Warp.setK; split <;> rfl
@[simp] theorem Warp.setK_div (z : Warp) (r : Nat) (x : Word) : (z.setK r x).div = z.div := by unfold Warp.setK; split <;> rfl
@[simp] theorem Warp.setK_divSpilled (z : Warp) (r : Nat) (x : Word) : (z.setK r x).divSpilled = z.divSpilled := by unfold Warp.setK; split <;> rfl
@[simp] theorem Warp.setK_loops (z : Warp) (r : Nat) (x : Word) : (z.setK r x).loops = z.loops := by unfold Warp.setK; split <;> rfl
@[simp] theorem Warp.setK_rep (z : Warp) (r : Nat) (x : Word) : (z.setK r x).rep = z.rep := by unfold Warp.setK; split <;> rfl
@[simp] theorem Warp.setK_repFrom (z : Warp) (r : Nat) (x : Word) : (z.setK r x).repFrom = z.repFrom := by unfold Warp.setK; split <;> rfl
@[simp] theorem Warp.setK_fpsr (z : Warp) (r : Nat) (x : Word) : (z.setK r x).fpsr = z.fpsr := by unfold Warp.setK; split <;> rfl
@[simp] theorem Warp.setK_lpcfg0 (z : Warp) (r : Nat) (x : Word) : (z.setK r x).lpcfg0 = z.lpcfg0 := by unfold Warp.setK; split <;> rfl
@[simp] theorem Warp.setK_lpcfg1 (z : Warp) (r : Nat) (x : Word) : (z.setK r x).lpcfg1 = z.lpcfg1 := by unfold Warp.setK; split <;> rfl
@[simp] theorem Warp.setK_budget (z : Warp) (r : Nat) (x : Word) : (z.setK r x).budget = z.budget := by unfold Warp.setK; split <;> rfl
@[simp] theorem Warp.setK_spillBase (z : Warp) (r : Nat) (x : Word) : (z.setK r x).spillBase = z.spillBase := by unfold Warp.setK; split <;> rfl
@[simp] theorem Warp.setK_spillSize (z : Warp) (r : Nat) (x : Word) : (z.setK r x).spillSize = z.spillSize := by unfold Warp.setK; split <;> rfl
@[simp] theorem Warp.setK_spillArea (z : Warp) (r : Nat) (x : Word) : (z.setK r x).spillArea = z.spillArea := by unfold Warp.setK; split <;> rfl
@[simp] theorem Warp.setK_newest (z : Warp) (r : Nat) (x : Word) : (z.setK r x).newest = z.newest := by unfold Warp.setK; split <;> rfl
@[simp] theorem Warp.setK_openLeft (z : Warp) (r : Nat) (x : Word) : (z.setK r x).openLeft = z.openLeft := by unfold Warp.setK; split <;> rfl
@[simp] theorem Warp.setK_batches (z : Warp) (r : Nat) (x : Word) : (z.setK r x).batches = z.batches := by unfold Warp.setK; split <;> rfl
@[simp] theorem Warp.setK_failed (z : Warp) (r : Nat) (x : Word) : (z.setK r x).failed = z.failed := by unfold Warp.setK; split <;> rfl
@[simp] theorem Warp.setK_wrote (z : Warp) (r : Nat) (x : Word) : (z.setK r x).wrote = z.wrote := by unfold Warp.setK; split <;> rfl
@[simp] theorem Warp.setK_benes (z : Warp) (r : Nat) (x : Word) : (z.setK r x).benes = z.benes := by unfold Warp.setK; split <;> rfl
@[simp] theorem Warp.setK_epoch (z : Warp) (r : Nat) (x : Word) : (z.setK r x).epoch = z.epoch := by unfold Warp.setK; split <;> rfl
@[simp] theorem Warp.setK_faddoCount (z : Warp) (r : Nat) (x : Word) : (z.setK r x).faddoCount = z.faddoCount := by unfold Warp.setK; split <;> rfl
@[simp] theorem Warp.setK_joins (z : Warp) (r : Nat) (x : Word) : (z.setK r x).joins = z.joins := by unfold Warp.setK; split <;> rfl
@[simp] theorem Warp.setK_exitDecs (z : Warp) (r : Nat) (x : Word) : (z.setK r x).exitDecs = z.exitDecs := by unfold Warp.setK; split <;> rfl
@[simp] theorem Warp.setK_inflight (z : Warp) (r : Nat) (x : Word) : (z.setK r x).inflight = z.inflight := by unfold Warp.setK; split <;> rfl
@[simp] theorem Warp.setK_vtokWaits (z : Warp) (r : Nat) (x : Word) : (z.setK r x).vtokWaits = z.vtokWaits := by unfold Warp.setK; split <;> rfl
@[simp] theorem Warp.setK_park (z : Warp) (r : Nat) (x : Word) : (z.setK r x).park = z.park := by unfold Warp.setK; split <;> rfl
@[simp] theorem Warp.setK_parkedAt (z : Warp) (r : Nat) (x : Word) : (z.setK r x).parkedAt = z.parkedAt := by unfold Warp.setK; split <;> rfl
@[simp] theorem Warp.setK_lent (z : Warp) (r : Nat) (x : Word) : (z.setK r x).lent = z.lent := by unfold Warp.setK; split <;> rfl
@[simp] theorem Warp.setK_wakePc (z : Warp) (r : Nat) (x : Word) : (z.setK r x).wakePc = z.wakePc := by unfold Warp.setK; split <;> rfl
@[simp] theorem Warp.setK_replay (z : Warp) (r : Nat) (x : Word) : (z.setK r x).replay = z.replay := by unfold Warp.setK; split <;> rfl
@[simp] theorem Warp.setK_suppress (z : Warp) (r : Nat) (x : Word) : (z.setK r x).suppress = z.suppress := by unfold Warp.setK; split <;> rfl
@[simp] theorem Warp.setK_tvec (z : Warp) (r : Nat) (x : Word) : (z.setK r x).tvec = z.tvec := by unfold Warp.setK; split <;> rfl
@[simp] theorem Warp.setK_tcause (z : Warp) (r : Nat) (x : Word) : (z.setK r x).tcause = z.tcause := by unfold Warp.setK; split <;> rfl
@[simp] theorem Warp.setK_tepc (z : Warp) (r : Nat) (x : Word) : (z.setK r x).tepc = z.tepc := by unfold Warp.setK; split <;> rfl
@[simp] theorem Warp.setK_tstat (z : Warp) (r : Nat) (x : Word) : (z.setK r x).tstat = z.tstat := by unfold Warp.setK; split <;> rfl
@[simp] theorem Warp.setK_tmask (z : Warp) (r : Nat) (x : Word) : (z.setK r x).tmask = z.tmask := by unfold Warp.setK; split <;> rfl
@[simp] theorem Warp.setK_detail0 (z : Warp) (r : Nat) (x : Word) : (z.setK r x).detail0 = z.detail0 := by unfold Warp.setK; split <;> rfl
@[simp] theorem Warp.setK_detail1 (z : Warp) (r : Nat) (x : Word) : (z.setK r x).detail1 = z.detail1 := by unfold Warp.setK; split <;> rfl
@[simp] theorem Warp.setK_detail2 (z : Warp) (r : Nat) (x : Word) : (z.setK r x).detail2 = z.detail2 := by unfold Warp.setK; split <;> rfl
@[simp] theorem Warp.setK_tscr (z : Warp) (r : Nat) (x : Word) : (z.setK r x).tscr = z.tscr := by unfold Warp.setK; split <;> rfl
@[simp] theorem Warp.setK_bpaddr (z : Warp) (r : Nat) (x : Word) : (z.setK r x).bpaddr = z.bpaddr := by unfold Warp.setK; split <;> rfl
@[simp] theorem Warp.setK_wpaddr (z : Warp) (r : Nat) (x : Word) : (z.setK r x).wpaddr = z.wpaddr := by unfold Warp.setK; split <;> rfl
@[simp] theorem Warp.setK_wpctl (z : Warp) (r : Nat) (x : Word) : (z.setK r x).wpctl = z.wpctl := by unfold Warp.setK; split <;> rfl

/-! ### Warp.setP -/
@[simp] theorem Warp.setP_status (z : Warp) (r : Nat) (m x : LaneMask) : (z.setP r m x).status = z.status := by unfold Warp.setP; split <;> rfl
@[simp] theorem Warp.setP_kind (z : Warp) (r : Nat) (m x : LaneMask) : (z.setP r m x).kind = z.kind := by unfold Warp.setP; split <;> rfl
@[simp] theorem Warp.setP_launch (z : Warp) (r : Nat) (m x : LaneMask) : (z.setP r m x).launch = z.launch := by unfold Warp.setP; split <;> rfl
@[simp] theorem Warp.setP_block (z : Warp) (r : Nat) (m x : LaneMask) : (z.setP r m x).block = z.block := by unfold Warp.setP; split <;> rfl
@[simp] theorem Warp.setP_idx (z : Warp) (r : Nat) (m x : LaneMask) : (z.setP r m x).idx = z.idx := by unfold Warp.setP; split <;> rfl
@[simp] theorem Warp.setP_wid (z : Warp) (r : Nat) (m x : LaneMask) : (z.setP r m x).wid = z.wid := by unfold Warp.setP; split <;> rfl
@[simp] theorem Warp.setP_widfmt (z : Warp) (r : Nat) (m x : LaneMask) : (z.setP r m x).widfmt = z.widfmt := by unfold Warp.setP; split <;> rfl
@[simp] theorem Warp.setP_blockWarps (z : Warp) (r : Nat) (m x : LaneMask) : (z.setP r m x).blockWarps = z.blockWarps := by unfold Warp.setP; split <;> rfl
@[simp] theorem Warp.setP_since (z : Warp) (r : Nat) (m x : LaneMask) : (z.setP r m x).since = z.since := by unfold Warp.setP; split <;> rfl
@[simp] theorem Warp.setP_waited (z : Warp) (r : Nat) (m x : LaneMask) : (z.setP r m x).waited = z.waited := by unfold Warp.setP; split <;> rfl
@[simp] theorem Warp.setP_pc (z : Warp) (r : Nat) (m x : LaneMask) : (z.setP r m x).pc = z.pc := by unfold Warp.setP; split <;> rfl
@[simp] theorem Warp.setP_active (z : Warp) (r : Nat) (m x : LaneMask) : (z.setP r m x).active = z.active := by unfold Warp.setP; split <;> rfl
@[simp] theorem Warp.setP_launchMask (z : Warp) (r : Nat) (m x : LaneMask) : (z.setP r m x).launchMask = z.launchMask := by unfold Warp.setP; split <;> rfl
@[simp] theorem Warp.setP_base (z : Warp) (r : Nat) (m x : LaneMask) : (z.setP r m x).base = z.base := by unfold Warp.setP; split <;> rfl
@[simp] theorem Warp.setP_m (z : Warp) (r : Nat) (m x : LaneMask) : (z.setP r m x).m = z.m := by unfold Warp.setP; split <;> rfl
@[simp] theorem Warp.setP_entered (z : Warp) (r : Nat) (m x : LaneMask) : (z.setP r m x).entered = z.entered := by unfold Warp.setP; split <;> rfl
@[simp] theorem Warp.setP_links (z : Warp) (r : Nat) (m x : LaneMask) : (z.setP r m x).links = z.links := by unfold Warp.setP; split <;> rfl
@[simp] theorem Warp.setP_spilled (z : Warp) (r : Nat) (m x : LaneMask) : (z.setP r m x).spilled = z.spilled := by unfold Warp.setP; split <;> rfl
@[simp] theorem Warp.setP_vregs (z : Warp) (r : Nat) (m x : LaneMask) : (z.setP r m x).vregs = z.vregs := by unfold Warp.setP; split <;> rfl
@[simp] theorem Warp.setP_vEmpty (z : Warp) (r : Nat) (m x : LaneMask) : (z.setP r m x).vEmpty = z.vEmpty := by unfold Warp.setP; split <;> rfl
@[simp] theorem Warp.setP_vPoison (z : Warp) (r : Nat) (m x : LaneMask) : (z.setP r m x).vPoison = z.vPoison := by unfold Warp.setP; split <;> rfl
@[simp] theorem Warp.setP_kregs (z : Warp) (r : Nat) (m x : LaneMask) : (z.setP r m x).kregs = z.kregs := by unfold Warp.setP; split <;> rfl
@[simp] theorem Warp.setP_kEmpty (z : Warp) (r : Nat) (m x : LaneMask) : (z.setP r m x).kEmpty = z.kEmpty := by unfold Warp.setP; split <;> rfl
@[simp] theorem Warp.setP_kPoison (z : Warp) (r : Nat) (m x : LaneMask) : (z.setP r m x).kPoison = z.kPoison := by unfold Warp.setP; split <;> rfl
@[simp] theorem Warp.setP_div (z : Warp) (r : Nat) (m x : LaneMask) : (z.setP r m x).div = z.div := by unfold Warp.setP; split <;> rfl
@[simp] theorem Warp.setP_divSpilled (z : Warp) (r : Nat) (m x : LaneMask) : (z.setP r m x).divSpilled = z.divSpilled := by unfold Warp.setP; split <;> rfl
@[simp] theorem Warp.setP_loops (z : Warp) (r : Nat) (m x : LaneMask) : (z.setP r m x).loops = z.loops := by unfold Warp.setP; split <;> rfl
@[simp] theorem Warp.setP_rep (z : Warp) (r : Nat) (m x : LaneMask) : (z.setP r m x).rep = z.rep := by unfold Warp.setP; split <;> rfl
@[simp] theorem Warp.setP_repFrom (z : Warp) (r : Nat) (m x : LaneMask) : (z.setP r m x).repFrom = z.repFrom := by unfold Warp.setP; split <;> rfl
@[simp] theorem Warp.setP_fpsr (z : Warp) (r : Nat) (m x : LaneMask) : (z.setP r m x).fpsr = z.fpsr := by unfold Warp.setP; split <;> rfl
@[simp] theorem Warp.setP_lpcfg0 (z : Warp) (r : Nat) (m x : LaneMask) : (z.setP r m x).lpcfg0 = z.lpcfg0 := by unfold Warp.setP; split <;> rfl
@[simp] theorem Warp.setP_lpcfg1 (z : Warp) (r : Nat) (m x : LaneMask) : (z.setP r m x).lpcfg1 = z.lpcfg1 := by unfold Warp.setP; split <;> rfl
@[simp] theorem Warp.setP_budget (z : Warp) (r : Nat) (m x : LaneMask) : (z.setP r m x).budget = z.budget := by unfold Warp.setP; split <;> rfl
@[simp] theorem Warp.setP_spillBase (z : Warp) (r : Nat) (m x : LaneMask) : (z.setP r m x).spillBase = z.spillBase := by unfold Warp.setP; split <;> rfl
@[simp] theorem Warp.setP_spillSize (z : Warp) (r : Nat) (m x : LaneMask) : (z.setP r m x).spillSize = z.spillSize := by unfold Warp.setP; split <;> rfl
@[simp] theorem Warp.setP_spillArea (z : Warp) (r : Nat) (m x : LaneMask) : (z.setP r m x).spillArea = z.spillArea := by unfold Warp.setP; split <;> rfl
@[simp] theorem Warp.setP_newest (z : Warp) (r : Nat) (m x : LaneMask) : (z.setP r m x).newest = z.newest := by unfold Warp.setP; split <;> rfl
@[simp] theorem Warp.setP_openLeft (z : Warp) (r : Nat) (m x : LaneMask) : (z.setP r m x).openLeft = z.openLeft := by unfold Warp.setP; split <;> rfl
@[simp] theorem Warp.setP_batches (z : Warp) (r : Nat) (m x : LaneMask) : (z.setP r m x).batches = z.batches := by unfold Warp.setP; split <;> rfl
@[simp] theorem Warp.setP_failed (z : Warp) (r : Nat) (m x : LaneMask) : (z.setP r m x).failed = z.failed := by unfold Warp.setP; split <;> rfl
@[simp] theorem Warp.setP_wrote (z : Warp) (r : Nat) (m x : LaneMask) : (z.setP r m x).wrote = z.wrote := by unfold Warp.setP; split <;> rfl
@[simp] theorem Warp.setP_benes (z : Warp) (r : Nat) (m x : LaneMask) : (z.setP r m x).benes = z.benes := by unfold Warp.setP; split <;> rfl
@[simp] theorem Warp.setP_epoch (z : Warp) (r : Nat) (m x : LaneMask) : (z.setP r m x).epoch = z.epoch := by unfold Warp.setP; split <;> rfl
@[simp] theorem Warp.setP_faddoCount (z : Warp) (r : Nat) (m x : LaneMask) : (z.setP r m x).faddoCount = z.faddoCount := by unfold Warp.setP; split <;> rfl
@[simp] theorem Warp.setP_joins (z : Warp) (r : Nat) (m x : LaneMask) : (z.setP r m x).joins = z.joins := by unfold Warp.setP; split <;> rfl
@[simp] theorem Warp.setP_exitDecs (z : Warp) (r : Nat) (m x : LaneMask) : (z.setP r m x).exitDecs = z.exitDecs := by unfold Warp.setP; split <;> rfl
@[simp] theorem Warp.setP_inflight (z : Warp) (r : Nat) (m x : LaneMask) : (z.setP r m x).inflight = z.inflight := by unfold Warp.setP; split <;> rfl
@[simp] theorem Warp.setP_vtokWaits (z : Warp) (r : Nat) (m x : LaneMask) : (z.setP r m x).vtokWaits = z.vtokWaits := by unfold Warp.setP; split <;> rfl
@[simp] theorem Warp.setP_park (z : Warp) (r : Nat) (m x : LaneMask) : (z.setP r m x).park = z.park := by unfold Warp.setP; split <;> rfl
@[simp] theorem Warp.setP_parkedAt (z : Warp) (r : Nat) (m x : LaneMask) : (z.setP r m x).parkedAt = z.parkedAt := by unfold Warp.setP; split <;> rfl
@[simp] theorem Warp.setP_lent (z : Warp) (r : Nat) (m x : LaneMask) : (z.setP r m x).lent = z.lent := by unfold Warp.setP; split <;> rfl
@[simp] theorem Warp.setP_wakePc (z : Warp) (r : Nat) (m x : LaneMask) : (z.setP r m x).wakePc = z.wakePc := by unfold Warp.setP; split <;> rfl
@[simp] theorem Warp.setP_replay (z : Warp) (r : Nat) (m x : LaneMask) : (z.setP r m x).replay = z.replay := by unfold Warp.setP; split <;> rfl
@[simp] theorem Warp.setP_suppress (z : Warp) (r : Nat) (m x : LaneMask) : (z.setP r m x).suppress = z.suppress := by unfold Warp.setP; split <;> rfl
@[simp] theorem Warp.setP_tvec (z : Warp) (r : Nat) (m x : LaneMask) : (z.setP r m x).tvec = z.tvec := by unfold Warp.setP; split <;> rfl
@[simp] theorem Warp.setP_tcause (z : Warp) (r : Nat) (m x : LaneMask) : (z.setP r m x).tcause = z.tcause := by unfold Warp.setP; split <;> rfl
@[simp] theorem Warp.setP_tepc (z : Warp) (r : Nat) (m x : LaneMask) : (z.setP r m x).tepc = z.tepc := by unfold Warp.setP; split <;> rfl
@[simp] theorem Warp.setP_tstat (z : Warp) (r : Nat) (m x : LaneMask) : (z.setP r m x).tstat = z.tstat := by unfold Warp.setP; split <;> rfl
@[simp] theorem Warp.setP_tmask (z : Warp) (r : Nat) (m x : LaneMask) : (z.setP r m x).tmask = z.tmask := by unfold Warp.setP; split <;> rfl
@[simp] theorem Warp.setP_detail0 (z : Warp) (r : Nat) (m x : LaneMask) : (z.setP r m x).detail0 = z.detail0 := by unfold Warp.setP; split <;> rfl
@[simp] theorem Warp.setP_detail1 (z : Warp) (r : Nat) (m x : LaneMask) : (z.setP r m x).detail1 = z.detail1 := by unfold Warp.setP; split <;> rfl
@[simp] theorem Warp.setP_detail2 (z : Warp) (r : Nat) (m x : LaneMask) : (z.setP r m x).detail2 = z.detail2 := by unfold Warp.setP; split <;> rfl
@[simp] theorem Warp.setP_tscr (z : Warp) (r : Nat) (m x : LaneMask) : (z.setP r m x).tscr = z.tscr := by unfold Warp.setP; split <;> rfl
@[simp] theorem Warp.setP_bpaddr (z : Warp) (r : Nat) (m x : LaneMask) : (z.setP r m x).bpaddr = z.bpaddr := by unfold Warp.setP; split <;> rfl
@[simp] theorem Warp.setP_wpaddr (z : Warp) (r : Nat) (m x : LaneMask) : (z.setP r m x).wpaddr = z.wpaddr := by unfold Warp.setP; split <;> rfl
@[simp] theorem Warp.setP_wpctl (z : Warp) (r : Nat) (m x : LaneMask) : (z.setP r m x).wpctl = z.wpctl := by unfold Warp.setP; split <;> rfl

/-! ### Warp.putV -/
@[simp] theorem Warp.putV_status (z : Warp) (r : Nat) (m : LaneMask) (x : Lanes) (f : FFlags) : (z.putV r m x f).status = z.status := rfl
@[simp] theorem Warp.putV_kind (z : Warp) (r : Nat) (m : LaneMask) (x : Lanes) (f : FFlags) : (z.putV r m x f).kind = z.kind := rfl
@[simp] theorem Warp.putV_launch (z : Warp) (r : Nat) (m : LaneMask) (x : Lanes) (f : FFlags) : (z.putV r m x f).launch = z.launch := rfl
@[simp] theorem Warp.putV_block (z : Warp) (r : Nat) (m : LaneMask) (x : Lanes) (f : FFlags) : (z.putV r m x f).block = z.block := rfl
@[simp] theorem Warp.putV_idx (z : Warp) (r : Nat) (m : LaneMask) (x : Lanes) (f : FFlags) : (z.putV r m x f).idx = z.idx := rfl
@[simp] theorem Warp.putV_wid (z : Warp) (r : Nat) (m : LaneMask) (x : Lanes) (f : FFlags) : (z.putV r m x f).wid = z.wid := rfl
@[simp] theorem Warp.putV_widfmt (z : Warp) (r : Nat) (m : LaneMask) (x : Lanes) (f : FFlags) : (z.putV r m x f).widfmt = z.widfmt := rfl
@[simp] theorem Warp.putV_blockWarps (z : Warp) (r : Nat) (m : LaneMask) (x : Lanes) (f : FFlags) : (z.putV r m x f).blockWarps = z.blockWarps := rfl
@[simp] theorem Warp.putV_since (z : Warp) (r : Nat) (m : LaneMask) (x : Lanes) (f : FFlags) : (z.putV r m x f).since = z.since := rfl
@[simp] theorem Warp.putV_waited (z : Warp) (r : Nat) (m : LaneMask) (x : Lanes) (f : FFlags) : (z.putV r m x f).waited = z.waited := rfl
@[simp] theorem Warp.putV_pc (z : Warp) (r : Nat) (m : LaneMask) (x : Lanes) (f : FFlags) : (z.putV r m x f).pc = z.pc := rfl
@[simp] theorem Warp.putV_active (z : Warp) (r : Nat) (m : LaneMask) (x : Lanes) (f : FFlags) : (z.putV r m x f).active = z.active := rfl
@[simp] theorem Warp.putV_launchMask (z : Warp) (r : Nat) (m : LaneMask) (x : Lanes) (f : FFlags) : (z.putV r m x f).launchMask = z.launchMask := rfl
@[simp] theorem Warp.putV_base (z : Warp) (r : Nat) (m : LaneMask) (x : Lanes) (f : FFlags) : (z.putV r m x f).base = z.base := rfl
@[simp] theorem Warp.putV_m (z : Warp) (r : Nat) (m : LaneMask) (x : Lanes) (f : FFlags) : (z.putV r m x f).m = z.m := rfl
@[simp] theorem Warp.putV_entered (z : Warp) (r : Nat) (m : LaneMask) (x : Lanes) (f : FFlags) : (z.putV r m x f).entered = z.entered := rfl
@[simp] theorem Warp.putV_links (z : Warp) (r : Nat) (m : LaneMask) (x : Lanes) (f : FFlags) : (z.putV r m x f).links = z.links := rfl
@[simp] theorem Warp.putV_spilled (z : Warp) (r : Nat) (m : LaneMask) (x : Lanes) (f : FFlags) : (z.putV r m x f).spilled = z.spilled := rfl
@[simp] theorem Warp.putV_vEmpty (z : Warp) (r : Nat) (m : LaneMask) (x : Lanes) (f : FFlags) : (z.putV r m x f).vEmpty = z.vEmpty := rfl
@[simp] theorem Warp.putV_kregs (z : Warp) (r : Nat) (m : LaneMask) (x : Lanes) (f : FFlags) : (z.putV r m x f).kregs = z.kregs := rfl
@[simp] theorem Warp.putV_kEmpty (z : Warp) (r : Nat) (m : LaneMask) (x : Lanes) (f : FFlags) : (z.putV r m x f).kEmpty = z.kEmpty := rfl
@[simp] theorem Warp.putV_kPoison (z : Warp) (r : Nat) (m : LaneMask) (x : Lanes) (f : FFlags) : (z.putV r m x f).kPoison = z.kPoison := rfl
@[simp] theorem Warp.putV_preds (z : Warp) (r : Nat) (m : LaneMask) (x : Lanes) (f : FFlags) : (z.putV r m x f).preds = z.preds := rfl
@[simp] theorem Warp.putV_div (z : Warp) (r : Nat) (m : LaneMask) (x : Lanes) (f : FFlags) : (z.putV r m x f).div = z.div := rfl
@[simp] theorem Warp.putV_divSpilled (z : Warp) (r : Nat) (m : LaneMask) (x : Lanes) (f : FFlags) : (z.putV r m x f).divSpilled = z.divSpilled := rfl
@[simp] theorem Warp.putV_loops (z : Warp) (r : Nat) (m : LaneMask) (x : Lanes) (f : FFlags) : (z.putV r m x f).loops = z.loops := rfl
@[simp] theorem Warp.putV_rep (z : Warp) (r : Nat) (m : LaneMask) (x : Lanes) (f : FFlags) : (z.putV r m x f).rep = z.rep := rfl
@[simp] theorem Warp.putV_repFrom (z : Warp) (r : Nat) (m : LaneMask) (x : Lanes) (f : FFlags) : (z.putV r m x f).repFrom = z.repFrom := rfl
@[simp] theorem Warp.putV_lpcfg0 (z : Warp) (r : Nat) (m : LaneMask) (x : Lanes) (f : FFlags) : (z.putV r m x f).lpcfg0 = z.lpcfg0 := rfl
@[simp] theorem Warp.putV_lpcfg1 (z : Warp) (r : Nat) (m : LaneMask) (x : Lanes) (f : FFlags) : (z.putV r m x f).lpcfg1 = z.lpcfg1 := rfl
@[simp] theorem Warp.putV_budget (z : Warp) (r : Nat) (m : LaneMask) (x : Lanes) (f : FFlags) : (z.putV r m x f).budget = z.budget := rfl
@[simp] theorem Warp.putV_spillBase (z : Warp) (r : Nat) (m : LaneMask) (x : Lanes) (f : FFlags) : (z.putV r m x f).spillBase = z.spillBase := rfl
@[simp] theorem Warp.putV_spillSize (z : Warp) (r : Nat) (m : LaneMask) (x : Lanes) (f : FFlags) : (z.putV r m x f).spillSize = z.spillSize := rfl
@[simp] theorem Warp.putV_spillArea (z : Warp) (r : Nat) (m : LaneMask) (x : Lanes) (f : FFlags) : (z.putV r m x f).spillArea = z.spillArea := rfl
@[simp] theorem Warp.putV_newest (z : Warp) (r : Nat) (m : LaneMask) (x : Lanes) (f : FFlags) : (z.putV r m x f).newest = z.newest := rfl
@[simp] theorem Warp.putV_openLeft (z : Warp) (r : Nat) (m : LaneMask) (x : Lanes) (f : FFlags) : (z.putV r m x f).openLeft = z.openLeft := rfl
@[simp] theorem Warp.putV_batches (z : Warp) (r : Nat) (m : LaneMask) (x : Lanes) (f : FFlags) : (z.putV r m x f).batches = z.batches := rfl
@[simp] theorem Warp.putV_failed (z : Warp) (r : Nat) (m : LaneMask) (x : Lanes) (f : FFlags) : (z.putV r m x f).failed = z.failed := rfl
@[simp] theorem Warp.putV_wrote (z : Warp) (r : Nat) (m : LaneMask) (x : Lanes) (f : FFlags) : (z.putV r m x f).wrote = z.wrote := rfl
@[simp] theorem Warp.putV_benes (z : Warp) (r : Nat) (m : LaneMask) (x : Lanes) (f : FFlags) : (z.putV r m x f).benes = z.benes := rfl
@[simp] theorem Warp.putV_epoch (z : Warp) (r : Nat) (m : LaneMask) (x : Lanes) (f : FFlags) : (z.putV r m x f).epoch = z.epoch := rfl
@[simp] theorem Warp.putV_faddoCount (z : Warp) (r : Nat) (m : LaneMask) (x : Lanes) (f : FFlags) : (z.putV r m x f).faddoCount = z.faddoCount := rfl
@[simp] theorem Warp.putV_joins (z : Warp) (r : Nat) (m : LaneMask) (x : Lanes) (f : FFlags) : (z.putV r m x f).joins = z.joins := rfl
@[simp] theorem Warp.putV_exitDecs (z : Warp) (r : Nat) (m : LaneMask) (x : Lanes) (f : FFlags) : (z.putV r m x f).exitDecs = z.exitDecs := rfl
@[simp] theorem Warp.putV_inflight (z : Warp) (r : Nat) (m : LaneMask) (x : Lanes) (f : FFlags) : (z.putV r m x f).inflight = z.inflight := rfl
@[simp] theorem Warp.putV_vtokWaits (z : Warp) (r : Nat) (m : LaneMask) (x : Lanes) (f : FFlags) : (z.putV r m x f).vtokWaits = z.vtokWaits := rfl
@[simp] theorem Warp.putV_park (z : Warp) (r : Nat) (m : LaneMask) (x : Lanes) (f : FFlags) : (z.putV r m x f).park = z.park := rfl
@[simp] theorem Warp.putV_parkedAt (z : Warp) (r : Nat) (m : LaneMask) (x : Lanes) (f : FFlags) : (z.putV r m x f).parkedAt = z.parkedAt := rfl
@[simp] theorem Warp.putV_lent (z : Warp) (r : Nat) (m : LaneMask) (x : Lanes) (f : FFlags) : (z.putV r m x f).lent = z.lent := rfl
@[simp] theorem Warp.putV_wakePc (z : Warp) (r : Nat) (m : LaneMask) (x : Lanes) (f : FFlags) : (z.putV r m x f).wakePc = z.wakePc := rfl
@[simp] theorem Warp.putV_replay (z : Warp) (r : Nat) (m : LaneMask) (x : Lanes) (f : FFlags) : (z.putV r m x f).replay = z.replay := rfl
@[simp] theorem Warp.putV_suppress (z : Warp) (r : Nat) (m : LaneMask) (x : Lanes) (f : FFlags) : (z.putV r m x f).suppress = z.suppress := rfl
@[simp] theorem Warp.putV_tvec (z : Warp) (r : Nat) (m : LaneMask) (x : Lanes) (f : FFlags) : (z.putV r m x f).tvec = z.tvec := rfl
@[simp] theorem Warp.putV_tcause (z : Warp) (r : Nat) (m : LaneMask) (x : Lanes) (f : FFlags) : (z.putV r m x f).tcause = z.tcause := rfl
@[simp] theorem Warp.putV_tepc (z : Warp) (r : Nat) (m : LaneMask) (x : Lanes) (f : FFlags) : (z.putV r m x f).tepc = z.tepc := rfl
@[simp] theorem Warp.putV_tstat (z : Warp) (r : Nat) (m : LaneMask) (x : Lanes) (f : FFlags) : (z.putV r m x f).tstat = z.tstat := rfl
@[simp] theorem Warp.putV_tmask (z : Warp) (r : Nat) (m : LaneMask) (x : Lanes) (f : FFlags) : (z.putV r m x f).tmask = z.tmask := rfl
@[simp] theorem Warp.putV_detail0 (z : Warp) (r : Nat) (m : LaneMask) (x : Lanes) (f : FFlags) : (z.putV r m x f).detail0 = z.detail0 := rfl
@[simp] theorem Warp.putV_detail1 (z : Warp) (r : Nat) (m : LaneMask) (x : Lanes) (f : FFlags) : (z.putV r m x f).detail1 = z.detail1 := rfl
@[simp] theorem Warp.putV_detail2 (z : Warp) (r : Nat) (m : LaneMask) (x : Lanes) (f : FFlags) : (z.putV r m x f).detail2 = z.detail2 := rfl
@[simp] theorem Warp.putV_tscr (z : Warp) (r : Nat) (m : LaneMask) (x : Lanes) (f : FFlags) : (z.putV r m x f).tscr = z.tscr := rfl
@[simp] theorem Warp.putV_bpaddr (z : Warp) (r : Nat) (m : LaneMask) (x : Lanes) (f : FFlags) : (z.putV r m x f).bpaddr = z.bpaddr := rfl
@[simp] theorem Warp.putV_wpaddr (z : Warp) (r : Nat) (m : LaneMask) (x : Lanes) (f : FFlags) : (z.putV r m x f).wpaddr = z.wpaddr := rfl
@[simp] theorem Warp.putV_wpctl (z : Warp) (r : Nat) (m : LaneMask) (x : Lanes) (f : FFlags) : (z.putV r m x f).wpctl = z.wpctl := rfl

/-! ### Warp.advance -/
@[simp] theorem Warp.advance_status (z : Warp) (a : Word) : (z.advance a).status = z.status := rfl
@[simp] theorem Warp.advance_kind (z : Warp) (a : Word) : (z.advance a).kind = z.kind := rfl
@[simp] theorem Warp.advance_launch (z : Warp) (a : Word) : (z.advance a).launch = z.launch := rfl
@[simp] theorem Warp.advance_block (z : Warp) (a : Word) : (z.advance a).block = z.block := rfl
@[simp] theorem Warp.advance_idx (z : Warp) (a : Word) : (z.advance a).idx = z.idx := rfl
@[simp] theorem Warp.advance_wid (z : Warp) (a : Word) : (z.advance a).wid = z.wid := rfl
@[simp] theorem Warp.advance_widfmt (z : Warp) (a : Word) : (z.advance a).widfmt = z.widfmt := rfl
@[simp] theorem Warp.advance_blockWarps (z : Warp) (a : Word) : (z.advance a).blockWarps = z.blockWarps := rfl
@[simp] theorem Warp.advance_since (z : Warp) (a : Word) : (z.advance a).since = z.since := rfl
@[simp] theorem Warp.advance_waited (z : Warp) (a : Word) : (z.advance a).waited = z.waited := rfl
@[simp] theorem Warp.advance_active (z : Warp) (a : Word) : (z.advance a).active = z.active := rfl
@[simp] theorem Warp.advance_launchMask (z : Warp) (a : Word) : (z.advance a).launchMask = z.launchMask := rfl
@[simp] theorem Warp.advance_base (z : Warp) (a : Word) : (z.advance a).base = z.base := rfl
@[simp] theorem Warp.advance_m (z : Warp) (a : Word) : (z.advance a).m = z.m := rfl
@[simp] theorem Warp.advance_entered (z : Warp) (a : Word) : (z.advance a).entered = z.entered := rfl
@[simp] theorem Warp.advance_links (z : Warp) (a : Word) : (z.advance a).links = z.links := rfl
@[simp] theorem Warp.advance_spilled (z : Warp) (a : Word) : (z.advance a).spilled = z.spilled := rfl
@[simp] theorem Warp.advance_vregs (z : Warp) (a : Word) : (z.advance a).vregs = z.vregs := rfl
@[simp] theorem Warp.advance_vEmpty (z : Warp) (a : Word) : (z.advance a).vEmpty = z.vEmpty := rfl
@[simp] theorem Warp.advance_vPoison (z : Warp) (a : Word) : (z.advance a).vPoison = z.vPoison := rfl
@[simp] theorem Warp.advance_kregs (z : Warp) (a : Word) : (z.advance a).kregs = z.kregs := rfl
@[simp] theorem Warp.advance_kEmpty (z : Warp) (a : Word) : (z.advance a).kEmpty = z.kEmpty := rfl
@[simp] theorem Warp.advance_kPoison (z : Warp) (a : Word) : (z.advance a).kPoison = z.kPoison := rfl
@[simp] theorem Warp.advance_preds (z : Warp) (a : Word) : (z.advance a).preds = z.preds := rfl
@[simp] theorem Warp.advance_div (z : Warp) (a : Word) : (z.advance a).div = z.div := rfl
@[simp] theorem Warp.advance_divSpilled (z : Warp) (a : Word) : (z.advance a).divSpilled = z.divSpilled := rfl
@[simp] theorem Warp.advance_fpsr (z : Warp) (a : Word) : (z.advance a).fpsr = z.fpsr := rfl
@[simp] theorem Warp.advance_lpcfg0 (z : Warp) (a : Word) : (z.advance a).lpcfg0 = z.lpcfg0 := rfl
@[simp] theorem Warp.advance_lpcfg1 (z : Warp) (a : Word) : (z.advance a).lpcfg1 = z.lpcfg1 := rfl
@[simp] theorem Warp.advance_budget (z : Warp) (a : Word) : (z.advance a).budget = z.budget := rfl
@[simp] theorem Warp.advance_spillBase (z : Warp) (a : Word) : (z.advance a).spillBase = z.spillBase := rfl
@[simp] theorem Warp.advance_spillSize (z : Warp) (a : Word) : (z.advance a).spillSize = z.spillSize := rfl
@[simp] theorem Warp.advance_spillArea (z : Warp) (a : Word) : (z.advance a).spillArea = z.spillArea := rfl
@[simp] theorem Warp.advance_newest (z : Warp) (a : Word) : (z.advance a).newest = z.newest := rfl
@[simp] theorem Warp.advance_openLeft (z : Warp) (a : Word) : (z.advance a).openLeft = z.openLeft := rfl
@[simp] theorem Warp.advance_batches (z : Warp) (a : Word) : (z.advance a).batches = z.batches := rfl
@[simp] theorem Warp.advance_failed (z : Warp) (a : Word) : (z.advance a).failed = z.failed := rfl
@[simp] theorem Warp.advance_wrote (z : Warp) (a : Word) : (z.advance a).wrote = z.wrote := rfl
@[simp] theorem Warp.advance_benes (z : Warp) (a : Word) : (z.advance a).benes = z.benes := rfl
@[simp] theorem Warp.advance_epoch (z : Warp) (a : Word) : (z.advance a).epoch = z.epoch := rfl
@[simp] theorem Warp.advance_faddoCount (z : Warp) (a : Word) : (z.advance a).faddoCount = z.faddoCount := rfl
@[simp] theorem Warp.advance_joins (z : Warp) (a : Word) : (z.advance a).joins = z.joins := rfl
@[simp] theorem Warp.advance_exitDecs (z : Warp) (a : Word) : (z.advance a).exitDecs = z.exitDecs := rfl
@[simp] theorem Warp.advance_inflight (z : Warp) (a : Word) : (z.advance a).inflight = z.inflight := rfl
@[simp] theorem Warp.advance_vtokWaits (z : Warp) (a : Word) : (z.advance a).vtokWaits = z.vtokWaits := rfl
@[simp] theorem Warp.advance_park (z : Warp) (a : Word) : (z.advance a).park = z.park := rfl
@[simp] theorem Warp.advance_parkedAt (z : Warp) (a : Word) : (z.advance a).parkedAt = z.parkedAt := rfl
@[simp] theorem Warp.advance_lent (z : Warp) (a : Word) : (z.advance a).lent = z.lent := rfl
@[simp] theorem Warp.advance_wakePc (z : Warp) (a : Word) : (z.advance a).wakePc = z.wakePc := rfl
@[simp] theorem Warp.advance_tvec (z : Warp) (a : Word) : (z.advance a).tvec = z.tvec := rfl
@[simp] theorem Warp.advance_tcause (z : Warp) (a : Word) : (z.advance a).tcause = z.tcause := rfl
@[simp] theorem Warp.advance_tepc (z : Warp) (a : Word) : (z.advance a).tepc = z.tepc := rfl
@[simp] theorem Warp.advance_tstat (z : Warp) (a : Word) : (z.advance a).tstat = z.tstat := rfl
@[simp] theorem Warp.advance_tmask (z : Warp) (a : Word) : (z.advance a).tmask = z.tmask := rfl
@[simp] theorem Warp.advance_detail0 (z : Warp) (a : Word) : (z.advance a).detail0 = z.detail0 := rfl
@[simp] theorem Warp.advance_detail1 (z : Warp) (a : Word) : (z.advance a).detail1 = z.detail1 := rfl
@[simp] theorem Warp.advance_detail2 (z : Warp) (a : Word) : (z.advance a).detail2 = z.detail2 := rfl
@[simp] theorem Warp.advance_tscr (z : Warp) (a : Word) : (z.advance a).tscr = z.tscr := rfl
@[simp] theorem Warp.advance_bpaddr (z : Warp) (a : Word) : (z.advance a).bpaddr = z.bpaddr := rfl
@[simp] theorem Warp.advance_wpaddr (z : Warp) (a : Word) : (z.advance a).wpaddr = z.wpaddr := rfl
@[simp] theorem Warp.advance_wpctl (z : Warp) (a : Word) : (z.advance a).wpctl = z.wpctl := rfl

/-! ### Warp.complete -/
@[simp] theorem Warp.complete_status (z : Warp) (a : Word) : (z.complete a).status = z.status := by unfold Warp.complete; split <;> (try split) <;> rfl
@[simp] theorem Warp.complete_kind (z : Warp) (a : Word) : (z.complete a).kind = z.kind := by unfold Warp.complete; split <;> (try split) <;> rfl
@[simp] theorem Warp.complete_launch (z : Warp) (a : Word) : (z.complete a).launch = z.launch := by unfold Warp.complete; split <;> (try split) <;> rfl
@[simp] theorem Warp.complete_block (z : Warp) (a : Word) : (z.complete a).block = z.block := by unfold Warp.complete; split <;> (try split) <;> rfl
@[simp] theorem Warp.complete_idx (z : Warp) (a : Word) : (z.complete a).idx = z.idx := by unfold Warp.complete; split <;> (try split) <;> rfl
@[simp] theorem Warp.complete_wid (z : Warp) (a : Word) : (z.complete a).wid = z.wid := by unfold Warp.complete; split <;> (try split) <;> rfl
@[simp] theorem Warp.complete_widfmt (z : Warp) (a : Word) : (z.complete a).widfmt = z.widfmt := by unfold Warp.complete; split <;> (try split) <;> rfl
@[simp] theorem Warp.complete_blockWarps (z : Warp) (a : Word) : (z.complete a).blockWarps = z.blockWarps := by unfold Warp.complete; split <;> (try split) <;> rfl
@[simp] theorem Warp.complete_since (z : Warp) (a : Word) : (z.complete a).since = z.since := by unfold Warp.complete; split <;> (try split) <;> rfl
@[simp] theorem Warp.complete_waited (z : Warp) (a : Word) : (z.complete a).waited = z.waited := by unfold Warp.complete; split <;> (try split) <;> rfl
@[simp] theorem Warp.complete_active (z : Warp) (a : Word) : (z.complete a).active = z.active := by unfold Warp.complete; split <;> (try split) <;> rfl
@[simp] theorem Warp.complete_launchMask (z : Warp) (a : Word) : (z.complete a).launchMask = z.launchMask := by unfold Warp.complete; split <;> (try split) <;> rfl
@[simp] theorem Warp.complete_base (z : Warp) (a : Word) : (z.complete a).base = z.base := by unfold Warp.complete; split <;> (try split) <;> rfl
@[simp] theorem Warp.complete_m (z : Warp) (a : Word) : (z.complete a).m = z.m := by unfold Warp.complete; split <;> (try split) <;> rfl
@[simp] theorem Warp.complete_entered (z : Warp) (a : Word) : (z.complete a).entered = z.entered := by unfold Warp.complete; split <;> (try split) <;> rfl
@[simp] theorem Warp.complete_links (z : Warp) (a : Word) : (z.complete a).links = z.links := by unfold Warp.complete; split <;> (try split) <;> rfl
@[simp] theorem Warp.complete_spilled (z : Warp) (a : Word) : (z.complete a).spilled = z.spilled := by unfold Warp.complete; split <;> (try split) <;> rfl
@[simp] theorem Warp.complete_vregs (z : Warp) (a : Word) : (z.complete a).vregs = z.vregs := by unfold Warp.complete; split <;> (try split) <;> rfl
@[simp] theorem Warp.complete_vEmpty (z : Warp) (a : Word) : (z.complete a).vEmpty = z.vEmpty := by unfold Warp.complete; split <;> (try split) <;> rfl
@[simp] theorem Warp.complete_vPoison (z : Warp) (a : Word) : (z.complete a).vPoison = z.vPoison := by unfold Warp.complete; split <;> (try split) <;> rfl
@[simp] theorem Warp.complete_kregs (z : Warp) (a : Word) : (z.complete a).kregs = z.kregs := by unfold Warp.complete; split <;> (try split) <;> rfl
@[simp] theorem Warp.complete_kEmpty (z : Warp) (a : Word) : (z.complete a).kEmpty = z.kEmpty := by unfold Warp.complete; split <;> (try split) <;> rfl
@[simp] theorem Warp.complete_kPoison (z : Warp) (a : Word) : (z.complete a).kPoison = z.kPoison := by unfold Warp.complete; split <;> (try split) <;> rfl
@[simp] theorem Warp.complete_preds (z : Warp) (a : Word) : (z.complete a).preds = z.preds := by unfold Warp.complete; split <;> (try split) <;> rfl
@[simp] theorem Warp.complete_div (z : Warp) (a : Word) : (z.complete a).div = z.div := by unfold Warp.complete; split <;> (try split) <;> rfl
@[simp] theorem Warp.complete_divSpilled (z : Warp) (a : Word) : (z.complete a).divSpilled = z.divSpilled := by unfold Warp.complete; split <;> (try split) <;> rfl
@[simp] theorem Warp.complete_fpsr (z : Warp) (a : Word) : (z.complete a).fpsr = z.fpsr := by unfold Warp.complete; split <;> (try split) <;> rfl
@[simp] theorem Warp.complete_lpcfg0 (z : Warp) (a : Word) : (z.complete a).lpcfg0 = z.lpcfg0 := by unfold Warp.complete; split <;> (try split) <;> rfl
@[simp] theorem Warp.complete_lpcfg1 (z : Warp) (a : Word) : (z.complete a).lpcfg1 = z.lpcfg1 := by unfold Warp.complete; split <;> (try split) <;> rfl
@[simp] theorem Warp.complete_budget (z : Warp) (a : Word) : (z.complete a).budget = z.budget := by unfold Warp.complete; split <;> (try split) <;> rfl
@[simp] theorem Warp.complete_spillBase (z : Warp) (a : Word) : (z.complete a).spillBase = z.spillBase := by unfold Warp.complete; split <;> (try split) <;> rfl
@[simp] theorem Warp.complete_spillSize (z : Warp) (a : Word) : (z.complete a).spillSize = z.spillSize := by unfold Warp.complete; split <;> (try split) <;> rfl
@[simp] theorem Warp.complete_spillArea (z : Warp) (a : Word) : (z.complete a).spillArea = z.spillArea := by unfold Warp.complete; split <;> (try split) <;> rfl
@[simp] theorem Warp.complete_newest (z : Warp) (a : Word) : (z.complete a).newest = z.newest := by unfold Warp.complete; split <;> (try split) <;> rfl
@[simp] theorem Warp.complete_openLeft (z : Warp) (a : Word) : (z.complete a).openLeft = z.openLeft := by unfold Warp.complete; split <;> (try split) <;> rfl
@[simp] theorem Warp.complete_batches (z : Warp) (a : Word) : (z.complete a).batches = z.batches := by unfold Warp.complete; split <;> (try split) <;> rfl
@[simp] theorem Warp.complete_failed (z : Warp) (a : Word) : (z.complete a).failed = z.failed := by unfold Warp.complete; split <;> (try split) <;> rfl
@[simp] theorem Warp.complete_wrote (z : Warp) (a : Word) : (z.complete a).wrote = z.wrote := by unfold Warp.complete; split <;> (try split) <;> rfl
@[simp] theorem Warp.complete_benes (z : Warp) (a : Word) : (z.complete a).benes = z.benes := by unfold Warp.complete; split <;> (try split) <;> rfl
@[simp] theorem Warp.complete_epoch (z : Warp) (a : Word) : (z.complete a).epoch = z.epoch := by unfold Warp.complete; split <;> (try split) <;> rfl
@[simp] theorem Warp.complete_faddoCount (z : Warp) (a : Word) : (z.complete a).faddoCount = z.faddoCount := by unfold Warp.complete; split <;> (try split) <;> rfl
@[simp] theorem Warp.complete_joins (z : Warp) (a : Word) : (z.complete a).joins = z.joins := by unfold Warp.complete; split <;> (try split) <;> rfl
@[simp] theorem Warp.complete_exitDecs (z : Warp) (a : Word) : (z.complete a).exitDecs = z.exitDecs := by unfold Warp.complete; split <;> (try split) <;> rfl
@[simp] theorem Warp.complete_inflight (z : Warp) (a : Word) : (z.complete a).inflight = z.inflight := by unfold Warp.complete; split <;> (try split) <;> rfl
@[simp] theorem Warp.complete_vtokWaits (z : Warp) (a : Word) : (z.complete a).vtokWaits = z.vtokWaits := by unfold Warp.complete; split <;> (try split) <;> rfl
@[simp] theorem Warp.complete_park (z : Warp) (a : Word) : (z.complete a).park = z.park := by unfold Warp.complete; split <;> (try split) <;> rfl
@[simp] theorem Warp.complete_parkedAt (z : Warp) (a : Word) : (z.complete a).parkedAt = z.parkedAt := by unfold Warp.complete; split <;> (try split) <;> rfl
@[simp] theorem Warp.complete_lent (z : Warp) (a : Word) : (z.complete a).lent = z.lent := by unfold Warp.complete; split <;> (try split) <;> rfl
@[simp] theorem Warp.complete_wakePc (z : Warp) (a : Word) : (z.complete a).wakePc = z.wakePc := by unfold Warp.complete; split <;> (try split) <;> rfl
@[simp] theorem Warp.complete_tvec (z : Warp) (a : Word) : (z.complete a).tvec = z.tvec := by unfold Warp.complete; split <;> (try split) <;> rfl
@[simp] theorem Warp.complete_tcause (z : Warp) (a : Word) : (z.complete a).tcause = z.tcause := by unfold Warp.complete; split <;> (try split) <;> rfl
@[simp] theorem Warp.complete_tepc (z : Warp) (a : Word) : (z.complete a).tepc = z.tepc := by unfold Warp.complete; split <;> (try split) <;> rfl
@[simp] theorem Warp.complete_tstat (z : Warp) (a : Word) : (z.complete a).tstat = z.tstat := by unfold Warp.complete; split <;> (try split) <;> rfl
@[simp] theorem Warp.complete_tmask (z : Warp) (a : Word) : (z.complete a).tmask = z.tmask := by unfold Warp.complete; split <;> (try split) <;> rfl
@[simp] theorem Warp.complete_detail0 (z : Warp) (a : Word) : (z.complete a).detail0 = z.detail0 := by unfold Warp.complete; split <;> (try split) <;> rfl
@[simp] theorem Warp.complete_detail1 (z : Warp) (a : Word) : (z.complete a).detail1 = z.detail1 := by unfold Warp.complete; split <;> (try split) <;> rfl
@[simp] theorem Warp.complete_detail2 (z : Warp) (a : Word) : (z.complete a).detail2 = z.detail2 := by unfold Warp.complete; split <;> (try split) <;> rfl
@[simp] theorem Warp.complete_tscr (z : Warp) (a : Word) : (z.complete a).tscr = z.tscr := by unfold Warp.complete; split <;> (try split) <;> rfl
@[simp] theorem Warp.complete_bpaddr (z : Warp) (a : Word) : (z.complete a).bpaddr = z.bpaddr := by unfold Warp.complete; split <;> (try split) <;> rfl
@[simp] theorem Warp.complete_wpaddr (z : Warp) (a : Word) : (z.complete a).wpaddr = z.wpaddr := by unfold Warp.complete; split <;> (try split) <;> rfl
@[simp] theorem Warp.complete_wpctl (z : Warp) (a : Word) : (z.complete a).wpctl = z.wpctl := by unfold Warp.complete; split <;> (try split) <;> rfl

/-! ### Warp.enterTrap -/
@[simp] theorem Warp.enterTrap_status (z : Warp) (t : Trap) : (z.enterTrap t).status = z.status := rfl
@[simp] theorem Warp.enterTrap_kind (z : Warp) (t : Trap) : (z.enterTrap t).kind = z.kind := rfl
@[simp] theorem Warp.enterTrap_launch (z : Warp) (t : Trap) : (z.enterTrap t).launch = z.launch := rfl
@[simp] theorem Warp.enterTrap_block (z : Warp) (t : Trap) : (z.enterTrap t).block = z.block := rfl
@[simp] theorem Warp.enterTrap_idx (z : Warp) (t : Trap) : (z.enterTrap t).idx = z.idx := rfl
@[simp] theorem Warp.enterTrap_wid (z : Warp) (t : Trap) : (z.enterTrap t).wid = z.wid := rfl
@[simp] theorem Warp.enterTrap_widfmt (z : Warp) (t : Trap) : (z.enterTrap t).widfmt = z.widfmt := rfl
@[simp] theorem Warp.enterTrap_blockWarps (z : Warp) (t : Trap) : (z.enterTrap t).blockWarps = z.blockWarps := rfl
@[simp] theorem Warp.enterTrap_since (z : Warp) (t : Trap) : (z.enterTrap t).since = z.since := rfl
@[simp] theorem Warp.enterTrap_waited (z : Warp) (t : Trap) : (z.enterTrap t).waited = z.waited := rfl
@[simp] theorem Warp.enterTrap_active (z : Warp) (t : Trap) : (z.enterTrap t).active = z.active := rfl
@[simp] theorem Warp.enterTrap_launchMask (z : Warp) (t : Trap) : (z.enterTrap t).launchMask = z.launchMask := rfl
@[simp] theorem Warp.enterTrap_spilled (z : Warp) (t : Trap) : (z.enterTrap t).spilled = z.spilled := rfl
@[simp] theorem Warp.enterTrap_vregs (z : Warp) (t : Trap) : (z.enterTrap t).vregs = z.vregs := rfl
@[simp] theorem Warp.enterTrap_vEmpty (z : Warp) (t : Trap) : (z.enterTrap t).vEmpty = z.vEmpty := rfl
@[simp] theorem Warp.enterTrap_vPoison (z : Warp) (t : Trap) : (z.enterTrap t).vPoison = z.vPoison := rfl
@[simp] theorem Warp.enterTrap_kregs (z : Warp) (t : Trap) : (z.enterTrap t).kregs = z.kregs := rfl
@[simp] theorem Warp.enterTrap_kEmpty (z : Warp) (t : Trap) : (z.enterTrap t).kEmpty = z.kEmpty := rfl
@[simp] theorem Warp.enterTrap_kPoison (z : Warp) (t : Trap) : (z.enterTrap t).kPoison = z.kPoison := rfl
@[simp] theorem Warp.enterTrap_preds (z : Warp) (t : Trap) : (z.enterTrap t).preds = z.preds := rfl
@[simp] theorem Warp.enterTrap_div (z : Warp) (t : Trap) : (z.enterTrap t).div = z.div := rfl
@[simp] theorem Warp.enterTrap_divSpilled (z : Warp) (t : Trap) : (z.enterTrap t).divSpilled = z.divSpilled := rfl
@[simp] theorem Warp.enterTrap_loops (z : Warp) (t : Trap) : (z.enterTrap t).loops = z.loops := rfl
@[simp] theorem Warp.enterTrap_repFrom (z : Warp) (t : Trap) : (z.enterTrap t).repFrom = z.repFrom := rfl
@[simp] theorem Warp.enterTrap_fpsr (z : Warp) (t : Trap) : (z.enterTrap t).fpsr = z.fpsr := rfl
@[simp] theorem Warp.enterTrap_lpcfg0 (z : Warp) (t : Trap) : (z.enterTrap t).lpcfg0 = z.lpcfg0 := rfl
@[simp] theorem Warp.enterTrap_lpcfg1 (z : Warp) (t : Trap) : (z.enterTrap t).lpcfg1 = z.lpcfg1 := rfl
@[simp] theorem Warp.enterTrap_budget (z : Warp) (t : Trap) : (z.enterTrap t).budget = z.budget := rfl
@[simp] theorem Warp.enterTrap_spillBase (z : Warp) (t : Trap) : (z.enterTrap t).spillBase = z.spillBase := rfl
@[simp] theorem Warp.enterTrap_spillSize (z : Warp) (t : Trap) : (z.enterTrap t).spillSize = z.spillSize := rfl
@[simp] theorem Warp.enterTrap_spillArea (z : Warp) (t : Trap) : (z.enterTrap t).spillArea = z.spillArea := rfl
@[simp] theorem Warp.enterTrap_newest (z : Warp) (t : Trap) : (z.enterTrap t).newest = z.newest := rfl
@[simp] theorem Warp.enterTrap_openLeft (z : Warp) (t : Trap) : (z.enterTrap t).openLeft = z.openLeft := rfl
@[simp] theorem Warp.enterTrap_batches (z : Warp) (t : Trap) : (z.enterTrap t).batches = z.batches := rfl
@[simp] theorem Warp.enterTrap_failed (z : Warp) (t : Trap) : (z.enterTrap t).failed = z.failed := rfl
@[simp] theorem Warp.enterTrap_wrote (z : Warp) (t : Trap) : (z.enterTrap t).wrote = z.wrote := rfl
@[simp] theorem Warp.enterTrap_benes (z : Warp) (t : Trap) : (z.enterTrap t).benes = z.benes := rfl
@[simp] theorem Warp.enterTrap_epoch (z : Warp) (t : Trap) : (z.enterTrap t).epoch = z.epoch := rfl
@[simp] theorem Warp.enterTrap_faddoCount (z : Warp) (t : Trap) : (z.enterTrap t).faddoCount = z.faddoCount := rfl
@[simp] theorem Warp.enterTrap_joins (z : Warp) (t : Trap) : (z.enterTrap t).joins = z.joins := rfl
@[simp] theorem Warp.enterTrap_exitDecs (z : Warp) (t : Trap) : (z.enterTrap t).exitDecs = z.exitDecs := rfl
@[simp] theorem Warp.enterTrap_inflight (z : Warp) (t : Trap) : (z.enterTrap t).inflight = z.inflight := rfl
@[simp] theorem Warp.enterTrap_vtokWaits (z : Warp) (t : Trap) : (z.enterTrap t).vtokWaits = z.vtokWaits := rfl
@[simp] theorem Warp.enterTrap_park (z : Warp) (t : Trap) : (z.enterTrap t).park = z.park := rfl
@[simp] theorem Warp.enterTrap_parkedAt (z : Warp) (t : Trap) : (z.enterTrap t).parkedAt = z.parkedAt := rfl
@[simp] theorem Warp.enterTrap_lent (z : Warp) (t : Trap) : (z.enterTrap t).lent = z.lent := rfl
@[simp] theorem Warp.enterTrap_wakePc (z : Warp) (t : Trap) : (z.enterTrap t).wakePc = z.wakePc := rfl
@[simp] theorem Warp.enterTrap_replay (z : Warp) (t : Trap) : (z.enterTrap t).replay = z.replay := rfl
@[simp] theorem Warp.enterTrap_tvec (z : Warp) (t : Trap) : (z.enterTrap t).tvec = z.tvec := rfl
@[simp] theorem Warp.enterTrap_tscr (z : Warp) (t : Trap) : (z.enterTrap t).tscr = z.tscr := rfl
@[simp] theorem Warp.enterTrap_bpaddr (z : Warp) (t : Trap) : (z.enterTrap t).bpaddr = z.bpaddr := rfl
@[simp] theorem Warp.enterTrap_wpaddr (z : Warp) (t : Trap) : (z.enterTrap t).wpaddr = z.wpaddr := rfl
@[simp] theorem Warp.enterTrap_wpctl (z : Warp) (t : Trap) : (z.enterTrap t).wpctl = z.wpctl := rfl

/-! ### Warp.parkOn -/
@[simp] theorem Warp.parkOn_status (z : Warp) (p : Park) (a : Word) : (z.parkOn p a).status = z.status := rfl
@[simp] theorem Warp.parkOn_kind (z : Warp) (p : Park) (a : Word) : (z.parkOn p a).kind = z.kind := rfl
@[simp] theorem Warp.parkOn_launch (z : Warp) (p : Park) (a : Word) : (z.parkOn p a).launch = z.launch := rfl
@[simp] theorem Warp.parkOn_block (z : Warp) (p : Park) (a : Word) : (z.parkOn p a).block = z.block := rfl
@[simp] theorem Warp.parkOn_idx (z : Warp) (p : Park) (a : Word) : (z.parkOn p a).idx = z.idx := rfl
@[simp] theorem Warp.parkOn_wid (z : Warp) (p : Park) (a : Word) : (z.parkOn p a).wid = z.wid := rfl
@[simp] theorem Warp.parkOn_widfmt (z : Warp) (p : Park) (a : Word) : (z.parkOn p a).widfmt = z.widfmt := rfl
@[simp] theorem Warp.parkOn_blockWarps (z : Warp) (p : Park) (a : Word) : (z.parkOn p a).blockWarps = z.blockWarps := rfl
@[simp] theorem Warp.parkOn_since (z : Warp) (p : Park) (a : Word) : (z.parkOn p a).since = z.since := rfl
@[simp] theorem Warp.parkOn_waited (z : Warp) (p : Park) (a : Word) : (z.parkOn p a).waited = z.waited := rfl
@[simp] theorem Warp.parkOn_pc (z : Warp) (p : Park) (a : Word) : (z.parkOn p a).pc = z.pc := rfl
@[simp] theorem Warp.parkOn_active (z : Warp) (p : Park) (a : Word) : (z.parkOn p a).active = z.active := rfl
@[simp] theorem Warp.parkOn_launchMask (z : Warp) (p : Park) (a : Word) : (z.parkOn p a).launchMask = z.launchMask := rfl
@[simp] theorem Warp.parkOn_base (z : Warp) (p : Park) (a : Word) : (z.parkOn p a).base = z.base := rfl
@[simp] theorem Warp.parkOn_m (z : Warp) (p : Park) (a : Word) : (z.parkOn p a).m = z.m := rfl
@[simp] theorem Warp.parkOn_entered (z : Warp) (p : Park) (a : Word) : (z.parkOn p a).entered = z.entered := rfl
@[simp] theorem Warp.parkOn_links (z : Warp) (p : Park) (a : Word) : (z.parkOn p a).links = z.links := rfl
@[simp] theorem Warp.parkOn_spilled (z : Warp) (p : Park) (a : Word) : (z.parkOn p a).spilled = z.spilled := rfl
@[simp] theorem Warp.parkOn_vregs (z : Warp) (p : Park) (a : Word) : (z.parkOn p a).vregs = z.vregs := rfl
@[simp] theorem Warp.parkOn_vEmpty (z : Warp) (p : Park) (a : Word) : (z.parkOn p a).vEmpty = z.vEmpty := rfl
@[simp] theorem Warp.parkOn_vPoison (z : Warp) (p : Park) (a : Word) : (z.parkOn p a).vPoison = z.vPoison := rfl
@[simp] theorem Warp.parkOn_kregs (z : Warp) (p : Park) (a : Word) : (z.parkOn p a).kregs = z.kregs := rfl
@[simp] theorem Warp.parkOn_kEmpty (z : Warp) (p : Park) (a : Word) : (z.parkOn p a).kEmpty = z.kEmpty := rfl
@[simp] theorem Warp.parkOn_kPoison (z : Warp) (p : Park) (a : Word) : (z.parkOn p a).kPoison = z.kPoison := rfl
@[simp] theorem Warp.parkOn_preds (z : Warp) (p : Park) (a : Word) : (z.parkOn p a).preds = z.preds := rfl
@[simp] theorem Warp.parkOn_div (z : Warp) (p : Park) (a : Word) : (z.parkOn p a).div = z.div := rfl
@[simp] theorem Warp.parkOn_divSpilled (z : Warp) (p : Park) (a : Word) : (z.parkOn p a).divSpilled = z.divSpilled := rfl
@[simp] theorem Warp.parkOn_loops (z : Warp) (p : Park) (a : Word) : (z.parkOn p a).loops = z.loops := rfl
@[simp] theorem Warp.parkOn_rep (z : Warp) (p : Park) (a : Word) : (z.parkOn p a).rep = z.rep := rfl
@[simp] theorem Warp.parkOn_repFrom (z : Warp) (p : Park) (a : Word) : (z.parkOn p a).repFrom = z.repFrom := rfl
@[simp] theorem Warp.parkOn_fpsr (z : Warp) (p : Park) (a : Word) : (z.parkOn p a).fpsr = z.fpsr := rfl
@[simp] theorem Warp.parkOn_lpcfg0 (z : Warp) (p : Park) (a : Word) : (z.parkOn p a).lpcfg0 = z.lpcfg0 := rfl
@[simp] theorem Warp.parkOn_lpcfg1 (z : Warp) (p : Park) (a : Word) : (z.parkOn p a).lpcfg1 = z.lpcfg1 := rfl
@[simp] theorem Warp.parkOn_budget (z : Warp) (p : Park) (a : Word) : (z.parkOn p a).budget = z.budget := rfl
@[simp] theorem Warp.parkOn_spillBase (z : Warp) (p : Park) (a : Word) : (z.parkOn p a).spillBase = z.spillBase := rfl
@[simp] theorem Warp.parkOn_spillSize (z : Warp) (p : Park) (a : Word) : (z.parkOn p a).spillSize = z.spillSize := rfl
@[simp] theorem Warp.parkOn_spillArea (z : Warp) (p : Park) (a : Word) : (z.parkOn p a).spillArea = z.spillArea := rfl
@[simp] theorem Warp.parkOn_newest (z : Warp) (p : Park) (a : Word) : (z.parkOn p a).newest = z.newest := rfl
@[simp] theorem Warp.parkOn_openLeft (z : Warp) (p : Park) (a : Word) : (z.parkOn p a).openLeft = z.openLeft := rfl
@[simp] theorem Warp.parkOn_batches (z : Warp) (p : Park) (a : Word) : (z.parkOn p a).batches = z.batches := rfl
@[simp] theorem Warp.parkOn_failed (z : Warp) (p : Park) (a : Word) : (z.parkOn p a).failed = z.failed := rfl
@[simp] theorem Warp.parkOn_wrote (z : Warp) (p : Park) (a : Word) : (z.parkOn p a).wrote = z.wrote := rfl
@[simp] theorem Warp.parkOn_benes (z : Warp) (p : Park) (a : Word) : (z.parkOn p a).benes = z.benes := rfl
@[simp] theorem Warp.parkOn_epoch (z : Warp) (p : Park) (a : Word) : (z.parkOn p a).epoch = z.epoch := rfl
@[simp] theorem Warp.parkOn_faddoCount (z : Warp) (p : Park) (a : Word) : (z.parkOn p a).faddoCount = z.faddoCount := rfl
@[simp] theorem Warp.parkOn_joins (z : Warp) (p : Park) (a : Word) : (z.parkOn p a).joins = z.joins := rfl
@[simp] theorem Warp.parkOn_exitDecs (z : Warp) (p : Park) (a : Word) : (z.parkOn p a).exitDecs = z.exitDecs := rfl
@[simp] theorem Warp.parkOn_inflight (z : Warp) (p : Park) (a : Word) : (z.parkOn p a).inflight = z.inflight := rfl
@[simp] theorem Warp.parkOn_vtokWaits (z : Warp) (p : Park) (a : Word) : (z.parkOn p a).vtokWaits = z.vtokWaits := rfl
@[simp] theorem Warp.parkOn_parkedAt (z : Warp) (p : Park) (a : Word) : (z.parkOn p a).parkedAt = z.parkedAt := rfl
@[simp] theorem Warp.parkOn_lent (z : Warp) (p : Park) (a : Word) : (z.parkOn p a).lent = z.lent := rfl
@[simp] theorem Warp.parkOn_replay (z : Warp) (p : Park) (a : Word) : (z.parkOn p a).replay = z.replay := rfl
@[simp] theorem Warp.parkOn_suppress (z : Warp) (p : Park) (a : Word) : (z.parkOn p a).suppress = z.suppress := rfl
@[simp] theorem Warp.parkOn_tvec (z : Warp) (p : Park) (a : Word) : (z.parkOn p a).tvec = z.tvec := rfl
@[simp] theorem Warp.parkOn_tcause (z : Warp) (p : Park) (a : Word) : (z.parkOn p a).tcause = z.tcause := rfl
@[simp] theorem Warp.parkOn_tepc (z : Warp) (p : Park) (a : Word) : (z.parkOn p a).tepc = z.tepc := rfl
@[simp] theorem Warp.parkOn_tstat (z : Warp) (p : Park) (a : Word) : (z.parkOn p a).tstat = z.tstat := rfl
@[simp] theorem Warp.parkOn_tmask (z : Warp) (p : Park) (a : Word) : (z.parkOn p a).tmask = z.tmask := rfl
@[simp] theorem Warp.parkOn_detail0 (z : Warp) (p : Park) (a : Word) : (z.parkOn p a).detail0 = z.detail0 := rfl
@[simp] theorem Warp.parkOn_detail1 (z : Warp) (p : Park) (a : Word) : (z.parkOn p a).detail1 = z.detail1 := rfl
@[simp] theorem Warp.parkOn_detail2 (z : Warp) (p : Park) (a : Word) : (z.parkOn p a).detail2 = z.detail2 := rfl
@[simp] theorem Warp.parkOn_tscr (z : Warp) (p : Park) (a : Word) : (z.parkOn p a).tscr = z.tscr := rfl
@[simp] theorem Warp.parkOn_bpaddr (z : Warp) (p : Park) (a : Word) : (z.parkOn p a).bpaddr = z.bpaddr := rfl
@[simp] theorem Warp.parkOn_wpaddr (z : Warp) (p : Park) (a : Word) : (z.parkOn p a).wpaddr = z.wpaddr := rfl
@[simp] theorem Warp.parkOn_wpctl (z : Warp) (p : Park) (a : Word) : (z.parkOn p a).wpctl = z.wpctl := rfl

/-! ### Warp.wake -/
@[simp] theorem Warp.wake_status (z : Warp) : (z.wake).status = z.status := by simp [Warp.wake]
@[simp] theorem Warp.wake_kind (z : Warp) : (z.wake).kind = z.kind := by simp [Warp.wake]
@[simp] theorem Warp.wake_launch (z : Warp) : (z.wake).launch = z.launch := by simp [Warp.wake]
@[simp] theorem Warp.wake_block (z : Warp) : (z.wake).block = z.block := by simp [Warp.wake]
@[simp] theorem Warp.wake_idx (z : Warp) : (z.wake).idx = z.idx := by simp [Warp.wake]
@[simp] theorem Warp.wake_wid (z : Warp) : (z.wake).wid = z.wid := by simp [Warp.wake]
@[simp] theorem Warp.wake_widfmt (z : Warp) : (z.wake).widfmt = z.widfmt := by simp [Warp.wake]
@[simp] theorem Warp.wake_blockWarps (z : Warp) : (z.wake).blockWarps = z.blockWarps := by simp [Warp.wake]
@[simp] theorem Warp.wake_since (z : Warp) : (z.wake).since = z.since := by simp [Warp.wake]
@[simp] theorem Warp.wake_waited (z : Warp) : (z.wake).waited = z.waited := by simp [Warp.wake]
@[simp] theorem Warp.wake_active (z : Warp) : (z.wake).active = z.active := by simp [Warp.wake]
@[simp] theorem Warp.wake_launchMask (z : Warp) : (z.wake).launchMask = z.launchMask := by simp [Warp.wake]
@[simp] theorem Warp.wake_base (z : Warp) : (z.wake).base = z.base := by simp [Warp.wake]
@[simp] theorem Warp.wake_m (z : Warp) : (z.wake).m = z.m := by simp [Warp.wake]
@[simp] theorem Warp.wake_entered (z : Warp) : (z.wake).entered = z.entered := by simp [Warp.wake]
@[simp] theorem Warp.wake_links (z : Warp) : (z.wake).links = z.links := by simp [Warp.wake]
@[simp] theorem Warp.wake_spilled (z : Warp) : (z.wake).spilled = z.spilled := by simp [Warp.wake]
@[simp] theorem Warp.wake_vregs (z : Warp) : (z.wake).vregs = z.vregs := by simp [Warp.wake]
@[simp] theorem Warp.wake_vEmpty (z : Warp) : (z.wake).vEmpty = z.vEmpty := by simp [Warp.wake]
@[simp] theorem Warp.wake_vPoison (z : Warp) : (z.wake).vPoison = z.vPoison := by simp [Warp.wake]
@[simp] theorem Warp.wake_kregs (z : Warp) : (z.wake).kregs = z.kregs := by simp [Warp.wake]
@[simp] theorem Warp.wake_kEmpty (z : Warp) : (z.wake).kEmpty = z.kEmpty := by simp [Warp.wake]
@[simp] theorem Warp.wake_kPoison (z : Warp) : (z.wake).kPoison = z.kPoison := by simp [Warp.wake]
@[simp] theorem Warp.wake_preds (z : Warp) : (z.wake).preds = z.preds := by simp [Warp.wake]
@[simp] theorem Warp.wake_div (z : Warp) : (z.wake).div = z.div := by simp [Warp.wake]
@[simp] theorem Warp.wake_divSpilled (z : Warp) : (z.wake).divSpilled = z.divSpilled := by simp [Warp.wake]
@[simp] theorem Warp.wake_fpsr (z : Warp) : (z.wake).fpsr = z.fpsr := by simp [Warp.wake]
@[simp] theorem Warp.wake_lpcfg0 (z : Warp) : (z.wake).lpcfg0 = z.lpcfg0 := by simp [Warp.wake]
@[simp] theorem Warp.wake_lpcfg1 (z : Warp) : (z.wake).lpcfg1 = z.lpcfg1 := by simp [Warp.wake]
@[simp] theorem Warp.wake_budget (z : Warp) : (z.wake).budget = z.budget := by simp [Warp.wake]
@[simp] theorem Warp.wake_spillBase (z : Warp) : (z.wake).spillBase = z.spillBase := by simp [Warp.wake]
@[simp] theorem Warp.wake_spillSize (z : Warp) : (z.wake).spillSize = z.spillSize := by simp [Warp.wake]
@[simp] theorem Warp.wake_spillArea (z : Warp) : (z.wake).spillArea = z.spillArea := by simp [Warp.wake]
@[simp] theorem Warp.wake_newest (z : Warp) : (z.wake).newest = z.newest := by simp [Warp.wake]
@[simp] theorem Warp.wake_openLeft (z : Warp) : (z.wake).openLeft = z.openLeft := by simp [Warp.wake]
@[simp] theorem Warp.wake_batches (z : Warp) : (z.wake).batches = z.batches := by simp [Warp.wake]
@[simp] theorem Warp.wake_failed (z : Warp) : (z.wake).failed = z.failed := by simp [Warp.wake]
@[simp] theorem Warp.wake_wrote (z : Warp) : (z.wake).wrote = z.wrote := by simp [Warp.wake]
@[simp] theorem Warp.wake_benes (z : Warp) : (z.wake).benes = z.benes := by simp [Warp.wake]
@[simp] theorem Warp.wake_epoch (z : Warp) : (z.wake).epoch = z.epoch := by simp [Warp.wake]
@[simp] theorem Warp.wake_faddoCount (z : Warp) : (z.wake).faddoCount = z.faddoCount := by simp [Warp.wake]
@[simp] theorem Warp.wake_joins (z : Warp) : (z.wake).joins = z.joins := by simp [Warp.wake]
@[simp] theorem Warp.wake_exitDecs (z : Warp) : (z.wake).exitDecs = z.exitDecs := by simp [Warp.wake]
@[simp] theorem Warp.wake_inflight (z : Warp) : (z.wake).inflight = z.inflight := by simp [Warp.wake]
@[simp] theorem Warp.wake_vtokWaits (z : Warp) : (z.wake).vtokWaits = z.vtokWaits := by simp [Warp.wake]
@[simp] theorem Warp.wake_parkedAt (z : Warp) : (z.wake).parkedAt = z.parkedAt := by simp [Warp.wake]
@[simp] theorem Warp.wake_lent (z : Warp) : (z.wake).lent = z.lent := by simp [Warp.wake]
@[simp] theorem Warp.wake_wakePc (z : Warp) : (z.wake).wakePc = z.wakePc := by simp [Warp.wake]
@[simp] theorem Warp.wake_tvec (z : Warp) : (z.wake).tvec = z.tvec := by simp [Warp.wake]
@[simp] theorem Warp.wake_tcause (z : Warp) : (z.wake).tcause = z.tcause := by simp [Warp.wake]
@[simp] theorem Warp.wake_tepc (z : Warp) : (z.wake).tepc = z.tepc := by simp [Warp.wake]
@[simp] theorem Warp.wake_tstat (z : Warp) : (z.wake).tstat = z.tstat := by simp [Warp.wake]
@[simp] theorem Warp.wake_tmask (z : Warp) : (z.wake).tmask = z.tmask := by simp [Warp.wake]
@[simp] theorem Warp.wake_detail0 (z : Warp) : (z.wake).detail0 = z.detail0 := by simp [Warp.wake]
@[simp] theorem Warp.wake_detail1 (z : Warp) : (z.wake).detail1 = z.detail1 := by simp [Warp.wake]
@[simp] theorem Warp.wake_detail2 (z : Warp) : (z.wake).detail2 = z.detail2 := by simp [Warp.wake]
@[simp] theorem Warp.wake_tscr (z : Warp) : (z.wake).tscr = z.tscr := by simp [Warp.wake]
@[simp] theorem Warp.wake_bpaddr (z : Warp) : (z.wake).bpaddr = z.bpaddr := by simp [Warp.wake]
@[simp] theorem Warp.wake_wpaddr (z : Warp) : (z.wake).wpaddr = z.wpaddr := by simp [Warp.wake]
@[simp] theorem Warp.wake_wpctl (z : Warp) : (z.wake).wpctl = z.wpctl := by simp [Warp.wake]

/-! ### Warp.launchLoad -/
@[simp] theorem Warp.launchLoad_status (z : Warp) (f : InFlight) : (z.launchLoad f).status = z.status := by unfold Warp.launchLoad; split <;> (try split) <;> rfl
@[simp] theorem Warp.launchLoad_kind (z : Warp) (f : InFlight) : (z.launchLoad f).kind = z.kind := by unfold Warp.launchLoad; split <;> (try split) <;> rfl
@[simp] theorem Warp.launchLoad_launch (z : Warp) (f : InFlight) : (z.launchLoad f).launch = z.launch := by unfold Warp.launchLoad; split <;> (try split) <;> rfl
@[simp] theorem Warp.launchLoad_block (z : Warp) (f : InFlight) : (z.launchLoad f).block = z.block := by unfold Warp.launchLoad; split <;> (try split) <;> rfl
@[simp] theorem Warp.launchLoad_idx (z : Warp) (f : InFlight) : (z.launchLoad f).idx = z.idx := by unfold Warp.launchLoad; split <;> (try split) <;> rfl
@[simp] theorem Warp.launchLoad_wid (z : Warp) (f : InFlight) : (z.launchLoad f).wid = z.wid := by unfold Warp.launchLoad; split <;> (try split) <;> rfl
@[simp] theorem Warp.launchLoad_widfmt (z : Warp) (f : InFlight) : (z.launchLoad f).widfmt = z.widfmt := by unfold Warp.launchLoad; split <;> (try split) <;> rfl
@[simp] theorem Warp.launchLoad_blockWarps (z : Warp) (f : InFlight) : (z.launchLoad f).blockWarps = z.blockWarps := by unfold Warp.launchLoad; split <;> (try split) <;> rfl
@[simp] theorem Warp.launchLoad_since (z : Warp) (f : InFlight) : (z.launchLoad f).since = z.since := by unfold Warp.launchLoad; split <;> (try split) <;> rfl
@[simp] theorem Warp.launchLoad_waited (z : Warp) (f : InFlight) : (z.launchLoad f).waited = z.waited := by unfold Warp.launchLoad; split <;> (try split) <;> rfl
@[simp] theorem Warp.launchLoad_pc (z : Warp) (f : InFlight) : (z.launchLoad f).pc = z.pc := by unfold Warp.launchLoad; split <;> (try split) <;> rfl
@[simp] theorem Warp.launchLoad_active (z : Warp) (f : InFlight) : (z.launchLoad f).active = z.active := by unfold Warp.launchLoad; split <;> (try split) <;> rfl
@[simp] theorem Warp.launchLoad_launchMask (z : Warp) (f : InFlight) : (z.launchLoad f).launchMask = z.launchMask := by unfold Warp.launchLoad; split <;> (try split) <;> rfl
@[simp] theorem Warp.launchLoad_base (z : Warp) (f : InFlight) : (z.launchLoad f).base = z.base := by unfold Warp.launchLoad; split <;> (try split) <;> rfl
@[simp] theorem Warp.launchLoad_m (z : Warp) (f : InFlight) : (z.launchLoad f).m = z.m := by unfold Warp.launchLoad; split <;> (try split) <;> rfl
@[simp] theorem Warp.launchLoad_entered (z : Warp) (f : InFlight) : (z.launchLoad f).entered = z.entered := by unfold Warp.launchLoad; split <;> (try split) <;> rfl
@[simp] theorem Warp.launchLoad_links (z : Warp) (f : InFlight) : (z.launchLoad f).links = z.links := by unfold Warp.launchLoad; split <;> (try split) <;> rfl
@[simp] theorem Warp.launchLoad_spilled (z : Warp) (f : InFlight) : (z.launchLoad f).spilled = z.spilled := by unfold Warp.launchLoad; split <;> (try split) <;> rfl
@[simp] theorem Warp.launchLoad_vregs (z : Warp) (f : InFlight) : (z.launchLoad f).vregs = z.vregs := by unfold Warp.launchLoad; split <;> (try split) <;> rfl
@[simp] theorem Warp.launchLoad_vPoison (z : Warp) (f : InFlight) : (z.launchLoad f).vPoison = z.vPoison := by unfold Warp.launchLoad; split <;> (try split) <;> rfl
@[simp] theorem Warp.launchLoad_kregs (z : Warp) (f : InFlight) : (z.launchLoad f).kregs = z.kregs := by unfold Warp.launchLoad; split <;> (try split) <;> rfl
@[simp] theorem Warp.launchLoad_kPoison (z : Warp) (f : InFlight) : (z.launchLoad f).kPoison = z.kPoison := by unfold Warp.launchLoad; split <;> (try split) <;> rfl
@[simp] theorem Warp.launchLoad_preds (z : Warp) (f : InFlight) : (z.launchLoad f).preds = z.preds := by unfold Warp.launchLoad; split <;> (try split) <;> rfl
@[simp] theorem Warp.launchLoad_div (z : Warp) (f : InFlight) : (z.launchLoad f).div = z.div := by unfold Warp.launchLoad; split <;> (try split) <;> rfl
@[simp] theorem Warp.launchLoad_divSpilled (z : Warp) (f : InFlight) : (z.launchLoad f).divSpilled = z.divSpilled := by unfold Warp.launchLoad; split <;> (try split) <;> rfl
@[simp] theorem Warp.launchLoad_loops (z : Warp) (f : InFlight) : (z.launchLoad f).loops = z.loops := by unfold Warp.launchLoad; split <;> (try split) <;> rfl
@[simp] theorem Warp.launchLoad_rep (z : Warp) (f : InFlight) : (z.launchLoad f).rep = z.rep := by unfold Warp.launchLoad; split <;> (try split) <;> rfl
@[simp] theorem Warp.launchLoad_repFrom (z : Warp) (f : InFlight) : (z.launchLoad f).repFrom = z.repFrom := by unfold Warp.launchLoad; split <;> (try split) <;> rfl
@[simp] theorem Warp.launchLoad_fpsr (z : Warp) (f : InFlight) : (z.launchLoad f).fpsr = z.fpsr := by unfold Warp.launchLoad; split <;> (try split) <;> rfl
@[simp] theorem Warp.launchLoad_lpcfg0 (z : Warp) (f : InFlight) : (z.launchLoad f).lpcfg0 = z.lpcfg0 := by unfold Warp.launchLoad; split <;> (try split) <;> rfl
@[simp] theorem Warp.launchLoad_lpcfg1 (z : Warp) (f : InFlight) : (z.launchLoad f).lpcfg1 = z.lpcfg1 := by unfold Warp.launchLoad; split <;> (try split) <;> rfl
@[simp] theorem Warp.launchLoad_budget (z : Warp) (f : InFlight) : (z.launchLoad f).budget = z.budget := by unfold Warp.launchLoad; split <;> (try split) <;> rfl
@[simp] theorem Warp.launchLoad_spillBase (z : Warp) (f : InFlight) : (z.launchLoad f).spillBase = z.spillBase := by unfold Warp.launchLoad; split <;> (try split) <;> rfl
@[simp] theorem Warp.launchLoad_spillSize (z : Warp) (f : InFlight) : (z.launchLoad f).spillSize = z.spillSize := by unfold Warp.launchLoad; split <;> (try split) <;> rfl
@[simp] theorem Warp.launchLoad_spillArea (z : Warp) (f : InFlight) : (z.launchLoad f).spillArea = z.spillArea := by unfold Warp.launchLoad; split <;> (try split) <;> rfl
@[simp] theorem Warp.launchLoad_newest (z : Warp) (f : InFlight) : (z.launchLoad f).newest = z.newest := by unfold Warp.launchLoad; split <;> (try split) <;> rfl
@[simp] theorem Warp.launchLoad_openLeft (z : Warp) (f : InFlight) : (z.launchLoad f).openLeft = z.openLeft := by unfold Warp.launchLoad; split <;> (try split) <;> rfl
@[simp] theorem Warp.launchLoad_batches (z : Warp) (f : InFlight) : (z.launchLoad f).batches = z.batches := by unfold Warp.launchLoad; split <;> (try split) <;> rfl
@[simp] theorem Warp.launchLoad_failed (z : Warp) (f : InFlight) : (z.launchLoad f).failed = z.failed := by unfold Warp.launchLoad; split <;> (try split) <;> rfl
@[simp] theorem Warp.launchLoad_wrote (z : Warp) (f : InFlight) : (z.launchLoad f).wrote = z.wrote := by unfold Warp.launchLoad; split <;> (try split) <;> rfl
@[simp] theorem Warp.launchLoad_benes (z : Warp) (f : InFlight) : (z.launchLoad f).benes = z.benes := by unfold Warp.launchLoad; split <;> (try split) <;> rfl
@[simp] theorem Warp.launchLoad_epoch (z : Warp) (f : InFlight) : (z.launchLoad f).epoch = z.epoch := by unfold Warp.launchLoad; split <;> (try split) <;> rfl
@[simp] theorem Warp.launchLoad_faddoCount (z : Warp) (f : InFlight) : (z.launchLoad f).faddoCount = z.faddoCount := by unfold Warp.launchLoad; split <;> (try split) <;> rfl
@[simp] theorem Warp.launchLoad_joins (z : Warp) (f : InFlight) : (z.launchLoad f).joins = z.joins := by unfold Warp.launchLoad; split <;> (try split) <;> rfl
@[simp] theorem Warp.launchLoad_exitDecs (z : Warp) (f : InFlight) : (z.launchLoad f).exitDecs = z.exitDecs := by unfold Warp.launchLoad; split <;> (try split) <;> rfl
@[simp] theorem Warp.launchLoad_vtokWaits (z : Warp) (f : InFlight) : (z.launchLoad f).vtokWaits = z.vtokWaits := by unfold Warp.launchLoad; split <;> (try split) <;> rfl
@[simp] theorem Warp.launchLoad_park (z : Warp) (f : InFlight) : (z.launchLoad f).park = z.park := by unfold Warp.launchLoad; split <;> (try split) <;> rfl
@[simp] theorem Warp.launchLoad_parkedAt (z : Warp) (f : InFlight) : (z.launchLoad f).parkedAt = z.parkedAt := by unfold Warp.launchLoad; split <;> (try split) <;> rfl
@[simp] theorem Warp.launchLoad_lent (z : Warp) (f : InFlight) : (z.launchLoad f).lent = z.lent := by unfold Warp.launchLoad; split <;> (try split) <;> rfl
@[simp] theorem Warp.launchLoad_wakePc (z : Warp) (f : InFlight) : (z.launchLoad f).wakePc = z.wakePc := by unfold Warp.launchLoad; split <;> (try split) <;> rfl
@[simp] theorem Warp.launchLoad_replay (z : Warp) (f : InFlight) : (z.launchLoad f).replay = z.replay := by unfold Warp.launchLoad; split <;> (try split) <;> rfl
@[simp] theorem Warp.launchLoad_suppress (z : Warp) (f : InFlight) : (z.launchLoad f).suppress = z.suppress := by unfold Warp.launchLoad; split <;> (try split) <;> rfl
@[simp] theorem Warp.launchLoad_tvec (z : Warp) (f : InFlight) : (z.launchLoad f).tvec = z.tvec := by unfold Warp.launchLoad; split <;> (try split) <;> rfl
@[simp] theorem Warp.launchLoad_tcause (z : Warp) (f : InFlight) : (z.launchLoad f).tcause = z.tcause := by unfold Warp.launchLoad; split <;> (try split) <;> rfl
@[simp] theorem Warp.launchLoad_tepc (z : Warp) (f : InFlight) : (z.launchLoad f).tepc = z.tepc := by unfold Warp.launchLoad; split <;> (try split) <;> rfl
@[simp] theorem Warp.launchLoad_tstat (z : Warp) (f : InFlight) : (z.launchLoad f).tstat = z.tstat := by unfold Warp.launchLoad; split <;> (try split) <;> rfl
@[simp] theorem Warp.launchLoad_tmask (z : Warp) (f : InFlight) : (z.launchLoad f).tmask = z.tmask := by unfold Warp.launchLoad; split <;> (try split) <;> rfl
@[simp] theorem Warp.launchLoad_detail0 (z : Warp) (f : InFlight) : (z.launchLoad f).detail0 = z.detail0 := by unfold Warp.launchLoad; split <;> (try split) <;> rfl
@[simp] theorem Warp.launchLoad_detail1 (z : Warp) (f : InFlight) : (z.launchLoad f).detail1 = z.detail1 := by unfold Warp.launchLoad; split <;> (try split) <;> rfl
@[simp] theorem Warp.launchLoad_detail2 (z : Warp) (f : InFlight) : (z.launchLoad f).detail2 = z.detail2 := by unfold Warp.launchLoad; split <;> (try split) <;> rfl
@[simp] theorem Warp.launchLoad_tscr (z : Warp) (f : InFlight) : (z.launchLoad f).tscr = z.tscr := by unfold Warp.launchLoad; split <;> (try split) <;> rfl
@[simp] theorem Warp.launchLoad_bpaddr (z : Warp) (f : InFlight) : (z.launchLoad f).bpaddr = z.bpaddr := by unfold Warp.launchLoad; split <;> (try split) <;> rfl
@[simp] theorem Warp.launchLoad_wpaddr (z : Warp) (f : InFlight) : (z.launchLoad f).wpaddr = z.wpaddr := by unfold Warp.launchLoad; split <;> (try split) <;> rfl
@[simp] theorem Warp.launchLoad_wpctl (z : Warp) (f : InFlight) : (z.launchLoad f).wpctl = z.wpctl := by unfold Warp.launchLoad; split <;> (try split) <;> rfl

/-! ### Warp.callFrame -/
@[simp] theorem Warp.callFrame_status (z : Warp) (n : Nat) (a : Word) : (z.callFrame n a).status = z.status := rfl
@[simp] theorem Warp.callFrame_kind (z : Warp) (n : Nat) (a : Word) : (z.callFrame n a).kind = z.kind := rfl
@[simp] theorem Warp.callFrame_launch (z : Warp) (n : Nat) (a : Word) : (z.callFrame n a).launch = z.launch := rfl
@[simp] theorem Warp.callFrame_block (z : Warp) (n : Nat) (a : Word) : (z.callFrame n a).block = z.block := rfl
@[simp] theorem Warp.callFrame_idx (z : Warp) (n : Nat) (a : Word) : (z.callFrame n a).idx = z.idx := rfl
@[simp] theorem Warp.callFrame_wid (z : Warp) (n : Nat) (a : Word) : (z.callFrame n a).wid = z.wid := rfl
@[simp] theorem Warp.callFrame_widfmt (z : Warp) (n : Nat) (a : Word) : (z.callFrame n a).widfmt = z.widfmt := rfl
@[simp] theorem Warp.callFrame_blockWarps (z : Warp) (n : Nat) (a : Word) : (z.callFrame n a).blockWarps = z.blockWarps := rfl
@[simp] theorem Warp.callFrame_since (z : Warp) (n : Nat) (a : Word) : (z.callFrame n a).since = z.since := rfl
@[simp] theorem Warp.callFrame_waited (z : Warp) (n : Nat) (a : Word) : (z.callFrame n a).waited = z.waited := rfl
@[simp] theorem Warp.callFrame_pc (z : Warp) (n : Nat) (a : Word) : (z.callFrame n a).pc = z.pc := rfl
@[simp] theorem Warp.callFrame_active (z : Warp) (n : Nat) (a : Word) : (z.callFrame n a).active = z.active := rfl
@[simp] theorem Warp.callFrame_launchMask (z : Warp) (n : Nat) (a : Word) : (z.callFrame n a).launchMask = z.launchMask := rfl
@[simp] theorem Warp.callFrame_spilled (z : Warp) (n : Nat) (a : Word) : (z.callFrame n a).spilled = z.spilled := rfl
@[simp] theorem Warp.callFrame_vregs (z : Warp) (n : Nat) (a : Word) : (z.callFrame n a).vregs = z.vregs := rfl
@[simp] theorem Warp.callFrame_vEmpty (z : Warp) (n : Nat) (a : Word) : (z.callFrame n a).vEmpty = z.vEmpty := rfl
@[simp] theorem Warp.callFrame_vPoison (z : Warp) (n : Nat) (a : Word) : (z.callFrame n a).vPoison = z.vPoison := rfl
@[simp] theorem Warp.callFrame_kregs (z : Warp) (n : Nat) (a : Word) : (z.callFrame n a).kregs = z.kregs := rfl
@[simp] theorem Warp.callFrame_kEmpty (z : Warp) (n : Nat) (a : Word) : (z.callFrame n a).kEmpty = z.kEmpty := rfl
@[simp] theorem Warp.callFrame_kPoison (z : Warp) (n : Nat) (a : Word) : (z.callFrame n a).kPoison = z.kPoison := rfl
@[simp] theorem Warp.callFrame_preds (z : Warp) (n : Nat) (a : Word) : (z.callFrame n a).preds = z.preds := rfl
@[simp] theorem Warp.callFrame_div (z : Warp) (n : Nat) (a : Word) : (z.callFrame n a).div = z.div := rfl
@[simp] theorem Warp.callFrame_divSpilled (z : Warp) (n : Nat) (a : Word) : (z.callFrame n a).divSpilled = z.divSpilled := rfl
@[simp] theorem Warp.callFrame_loops (z : Warp) (n : Nat) (a : Word) : (z.callFrame n a).loops = z.loops := rfl
@[simp] theorem Warp.callFrame_rep (z : Warp) (n : Nat) (a : Word) : (z.callFrame n a).rep = z.rep := rfl
@[simp] theorem Warp.callFrame_repFrom (z : Warp) (n : Nat) (a : Word) : (z.callFrame n a).repFrom = z.repFrom := rfl
@[simp] theorem Warp.callFrame_fpsr (z : Warp) (n : Nat) (a : Word) : (z.callFrame n a).fpsr = z.fpsr := rfl
@[simp] theorem Warp.callFrame_lpcfg0 (z : Warp) (n : Nat) (a : Word) : (z.callFrame n a).lpcfg0 = z.lpcfg0 := rfl
@[simp] theorem Warp.callFrame_lpcfg1 (z : Warp) (n : Nat) (a : Word) : (z.callFrame n a).lpcfg1 = z.lpcfg1 := rfl
@[simp] theorem Warp.callFrame_budget (z : Warp) (n : Nat) (a : Word) : (z.callFrame n a).budget = z.budget := rfl
@[simp] theorem Warp.callFrame_spillBase (z : Warp) (n : Nat) (a : Word) : (z.callFrame n a).spillBase = z.spillBase := rfl
@[simp] theorem Warp.callFrame_spillSize (z : Warp) (n : Nat) (a : Word) : (z.callFrame n a).spillSize = z.spillSize := rfl
@[simp] theorem Warp.callFrame_spillArea (z : Warp) (n : Nat) (a : Word) : (z.callFrame n a).spillArea = z.spillArea := rfl
@[simp] theorem Warp.callFrame_newest (z : Warp) (n : Nat) (a : Word) : (z.callFrame n a).newest = z.newest := rfl
@[simp] theorem Warp.callFrame_openLeft (z : Warp) (n : Nat) (a : Word) : (z.callFrame n a).openLeft = z.openLeft := rfl
@[simp] theorem Warp.callFrame_batches (z : Warp) (n : Nat) (a : Word) : (z.callFrame n a).batches = z.batches := rfl
@[simp] theorem Warp.callFrame_failed (z : Warp) (n : Nat) (a : Word) : (z.callFrame n a).failed = z.failed := rfl
@[simp] theorem Warp.callFrame_wrote (z : Warp) (n : Nat) (a : Word) : (z.callFrame n a).wrote = z.wrote := rfl
@[simp] theorem Warp.callFrame_benes (z : Warp) (n : Nat) (a : Word) : (z.callFrame n a).benes = z.benes := rfl
@[simp] theorem Warp.callFrame_epoch (z : Warp) (n : Nat) (a : Word) : (z.callFrame n a).epoch = z.epoch := rfl
@[simp] theorem Warp.callFrame_faddoCount (z : Warp) (n : Nat) (a : Word) : (z.callFrame n a).faddoCount = z.faddoCount := rfl
@[simp] theorem Warp.callFrame_joins (z : Warp) (n : Nat) (a : Word) : (z.callFrame n a).joins = z.joins := rfl
@[simp] theorem Warp.callFrame_exitDecs (z : Warp) (n : Nat) (a : Word) : (z.callFrame n a).exitDecs = z.exitDecs := rfl
@[simp] theorem Warp.callFrame_inflight (z : Warp) (n : Nat) (a : Word) : (z.callFrame n a).inflight = z.inflight := rfl
@[simp] theorem Warp.callFrame_vtokWaits (z : Warp) (n : Nat) (a : Word) : (z.callFrame n a).vtokWaits = z.vtokWaits := rfl
@[simp] theorem Warp.callFrame_park (z : Warp) (n : Nat) (a : Word) : (z.callFrame n a).park = z.park := rfl
@[simp] theorem Warp.callFrame_parkedAt (z : Warp) (n : Nat) (a : Word) : (z.callFrame n a).parkedAt = z.parkedAt := rfl
@[simp] theorem Warp.callFrame_lent (z : Warp) (n : Nat) (a : Word) : (z.callFrame n a).lent = z.lent := rfl
@[simp] theorem Warp.callFrame_wakePc (z : Warp) (n : Nat) (a : Word) : (z.callFrame n a).wakePc = z.wakePc := rfl
@[simp] theorem Warp.callFrame_replay (z : Warp) (n : Nat) (a : Word) : (z.callFrame n a).replay = z.replay := rfl
@[simp] theorem Warp.callFrame_suppress (z : Warp) (n : Nat) (a : Word) : (z.callFrame n a).suppress = z.suppress := rfl
@[simp] theorem Warp.callFrame_tvec (z : Warp) (n : Nat) (a : Word) : (z.callFrame n a).tvec = z.tvec := rfl
@[simp] theorem Warp.callFrame_tcause (z : Warp) (n : Nat) (a : Word) : (z.callFrame n a).tcause = z.tcause := rfl
@[simp] theorem Warp.callFrame_tepc (z : Warp) (n : Nat) (a : Word) : (z.callFrame n a).tepc = z.tepc := rfl
@[simp] theorem Warp.callFrame_tstat (z : Warp) (n : Nat) (a : Word) : (z.callFrame n a).tstat = z.tstat := rfl
@[simp] theorem Warp.callFrame_tmask (z : Warp) (n : Nat) (a : Word) : (z.callFrame n a).tmask = z.tmask := rfl
@[simp] theorem Warp.callFrame_detail0 (z : Warp) (n : Nat) (a : Word) : (z.callFrame n a).detail0 = z.detail0 := rfl
@[simp] theorem Warp.callFrame_detail1 (z : Warp) (n : Nat) (a : Word) : (z.callFrame n a).detail1 = z.detail1 := rfl
@[simp] theorem Warp.callFrame_detail2 (z : Warp) (n : Nat) (a : Word) : (z.callFrame n a).detail2 = z.detail2 := rfl
@[simp] theorem Warp.callFrame_tscr (z : Warp) (n : Nat) (a : Word) : (z.callFrame n a).tscr = z.tscr := rfl
@[simp] theorem Warp.callFrame_bpaddr (z : Warp) (n : Nat) (a : Word) : (z.callFrame n a).bpaddr = z.bpaddr := rfl
@[simp] theorem Warp.callFrame_wpaddr (z : Warp) (n : Nat) (a : Word) : (z.callFrame n a).wpaddr = z.wpaddr := rfl
@[simp] theorem Warp.callFrame_wpctl (z : Warp) (n : Nat) (a : Word) : (z.callFrame n a).wpctl = z.wpctl := rfl

/-! ### Warp.freshRegs -/
@[simp] theorem Warp.freshRegs_status (z : Warp) (o n : Nat) : (z.freshRegs o n).status = z.status := rfl
@[simp] theorem Warp.freshRegs_kind (z : Warp) (o n : Nat) : (z.freshRegs o n).kind = z.kind := rfl
@[simp] theorem Warp.freshRegs_launch (z : Warp) (o n : Nat) : (z.freshRegs o n).launch = z.launch := rfl
@[simp] theorem Warp.freshRegs_block (z : Warp) (o n : Nat) : (z.freshRegs o n).block = z.block := rfl
@[simp] theorem Warp.freshRegs_idx (z : Warp) (o n : Nat) : (z.freshRegs o n).idx = z.idx := rfl
@[simp] theorem Warp.freshRegs_wid (z : Warp) (o n : Nat) : (z.freshRegs o n).wid = z.wid := rfl
@[simp] theorem Warp.freshRegs_widfmt (z : Warp) (o n : Nat) : (z.freshRegs o n).widfmt = z.widfmt := rfl
@[simp] theorem Warp.freshRegs_blockWarps (z : Warp) (o n : Nat) : (z.freshRegs o n).blockWarps = z.blockWarps := rfl
@[simp] theorem Warp.freshRegs_since (z : Warp) (o n : Nat) : (z.freshRegs o n).since = z.since := rfl
@[simp] theorem Warp.freshRegs_waited (z : Warp) (o n : Nat) : (z.freshRegs o n).waited = z.waited := rfl
@[simp] theorem Warp.freshRegs_pc (z : Warp) (o n : Nat) : (z.freshRegs o n).pc = z.pc := rfl
@[simp] theorem Warp.freshRegs_active (z : Warp) (o n : Nat) : (z.freshRegs o n).active = z.active := rfl
@[simp] theorem Warp.freshRegs_launchMask (z : Warp) (o n : Nat) : (z.freshRegs o n).launchMask = z.launchMask := rfl
@[simp] theorem Warp.freshRegs_base (z : Warp) (o n : Nat) : (z.freshRegs o n).base = z.base := rfl
@[simp] theorem Warp.freshRegs_m (z : Warp) (o n : Nat) : (z.freshRegs o n).m = z.m := rfl
@[simp] theorem Warp.freshRegs_entered (z : Warp) (o n : Nat) : (z.freshRegs o n).entered = z.entered := rfl
@[simp] theorem Warp.freshRegs_links (z : Warp) (o n : Nat) : (z.freshRegs o n).links = z.links := rfl
@[simp] theorem Warp.freshRegs_spilled (z : Warp) (o n : Nat) : (z.freshRegs o n).spilled = z.spilled := rfl
@[simp] theorem Warp.freshRegs_kregs (z : Warp) (o n : Nat) : (z.freshRegs o n).kregs = z.kregs := rfl
@[simp] theorem Warp.freshRegs_kEmpty (z : Warp) (o n : Nat) : (z.freshRegs o n).kEmpty = z.kEmpty := rfl
@[simp] theorem Warp.freshRegs_kPoison (z : Warp) (o n : Nat) : (z.freshRegs o n).kPoison = z.kPoison := rfl
@[simp] theorem Warp.freshRegs_preds (z : Warp) (o n : Nat) : (z.freshRegs o n).preds = z.preds := rfl
@[simp] theorem Warp.freshRegs_div (z : Warp) (o n : Nat) : (z.freshRegs o n).div = z.div := rfl
@[simp] theorem Warp.freshRegs_divSpilled (z : Warp) (o n : Nat) : (z.freshRegs o n).divSpilled = z.divSpilled := rfl
@[simp] theorem Warp.freshRegs_loops (z : Warp) (o n : Nat) : (z.freshRegs o n).loops = z.loops := rfl
@[simp] theorem Warp.freshRegs_rep (z : Warp) (o n : Nat) : (z.freshRegs o n).rep = z.rep := rfl
@[simp] theorem Warp.freshRegs_repFrom (z : Warp) (o n : Nat) : (z.freshRegs o n).repFrom = z.repFrom := rfl
@[simp] theorem Warp.freshRegs_fpsr (z : Warp) (o n : Nat) : (z.freshRegs o n).fpsr = z.fpsr := rfl
@[simp] theorem Warp.freshRegs_lpcfg0 (z : Warp) (o n : Nat) : (z.freshRegs o n).lpcfg0 = z.lpcfg0 := rfl
@[simp] theorem Warp.freshRegs_lpcfg1 (z : Warp) (o n : Nat) : (z.freshRegs o n).lpcfg1 = z.lpcfg1 := rfl
@[simp] theorem Warp.freshRegs_budget (z : Warp) (o n : Nat) : (z.freshRegs o n).budget = z.budget := rfl
@[simp] theorem Warp.freshRegs_spillBase (z : Warp) (o n : Nat) : (z.freshRegs o n).spillBase = z.spillBase := rfl
@[simp] theorem Warp.freshRegs_spillSize (z : Warp) (o n : Nat) : (z.freshRegs o n).spillSize = z.spillSize := rfl
@[simp] theorem Warp.freshRegs_spillArea (z : Warp) (o n : Nat) : (z.freshRegs o n).spillArea = z.spillArea := rfl
@[simp] theorem Warp.freshRegs_newest (z : Warp) (o n : Nat) : (z.freshRegs o n).newest = z.newest := rfl
@[simp] theorem Warp.freshRegs_openLeft (z : Warp) (o n : Nat) : (z.freshRegs o n).openLeft = z.openLeft := rfl
@[simp] theorem Warp.freshRegs_batches (z : Warp) (o n : Nat) : (z.freshRegs o n).batches = z.batches := rfl
@[simp] theorem Warp.freshRegs_failed (z : Warp) (o n : Nat) : (z.freshRegs o n).failed = z.failed := rfl
@[simp] theorem Warp.freshRegs_wrote (z : Warp) (o n : Nat) : (z.freshRegs o n).wrote = z.wrote := rfl
@[simp] theorem Warp.freshRegs_benes (z : Warp) (o n : Nat) : (z.freshRegs o n).benes = z.benes := rfl
@[simp] theorem Warp.freshRegs_epoch (z : Warp) (o n : Nat) : (z.freshRegs o n).epoch = z.epoch := rfl
@[simp] theorem Warp.freshRegs_faddoCount (z : Warp) (o n : Nat) : (z.freshRegs o n).faddoCount = z.faddoCount := rfl
@[simp] theorem Warp.freshRegs_joins (z : Warp) (o n : Nat) : (z.freshRegs o n).joins = z.joins := rfl
@[simp] theorem Warp.freshRegs_exitDecs (z : Warp) (o n : Nat) : (z.freshRegs o n).exitDecs = z.exitDecs := rfl
@[simp] theorem Warp.freshRegs_vtokWaits (z : Warp) (o n : Nat) : (z.freshRegs o n).vtokWaits = z.vtokWaits := rfl
@[simp] theorem Warp.freshRegs_park (z : Warp) (o n : Nat) : (z.freshRegs o n).park = z.park := rfl
@[simp] theorem Warp.freshRegs_parkedAt (z : Warp) (o n : Nat) : (z.freshRegs o n).parkedAt = z.parkedAt := rfl
@[simp] theorem Warp.freshRegs_lent (z : Warp) (o n : Nat) : (z.freshRegs o n).lent = z.lent := rfl
@[simp] theorem Warp.freshRegs_wakePc (z : Warp) (o n : Nat) : (z.freshRegs o n).wakePc = z.wakePc := rfl
@[simp] theorem Warp.freshRegs_replay (z : Warp) (o n : Nat) : (z.freshRegs o n).replay = z.replay := rfl
@[simp] theorem Warp.freshRegs_suppress (z : Warp) (o n : Nat) : (z.freshRegs o n).suppress = z.suppress := rfl
@[simp] theorem Warp.freshRegs_tvec (z : Warp) (o n : Nat) : (z.freshRegs o n).tvec = z.tvec := rfl
@[simp] theorem Warp.freshRegs_tcause (z : Warp) (o n : Nat) : (z.freshRegs o n).tcause = z.tcause := rfl
@[simp] theorem Warp.freshRegs_tepc (z : Warp) (o n : Nat) : (z.freshRegs o n).tepc = z.tepc := rfl
@[simp] theorem Warp.freshRegs_tstat (z : Warp) (o n : Nat) : (z.freshRegs o n).tstat = z.tstat := rfl
@[simp] theorem Warp.freshRegs_tmask (z : Warp) (o n : Nat) : (z.freshRegs o n).tmask = z.tmask := rfl
@[simp] theorem Warp.freshRegs_detail0 (z : Warp) (o n : Nat) : (z.freshRegs o n).detail0 = z.detail0 := rfl
@[simp] theorem Warp.freshRegs_detail1 (z : Warp) (o n : Nat) : (z.freshRegs o n).detail1 = z.detail1 := rfl
@[simp] theorem Warp.freshRegs_detail2 (z : Warp) (o n : Nat) : (z.freshRegs o n).detail2 = z.detail2 := rfl
@[simp] theorem Warp.freshRegs_tscr (z : Warp) (o n : Nat) : (z.freshRegs o n).tscr = z.tscr := rfl
@[simp] theorem Warp.freshRegs_bpaddr (z : Warp) (o n : Nat) : (z.freshRegs o n).bpaddr = z.bpaddr := rfl
@[simp] theorem Warp.freshRegs_wpaddr (z : Warp) (o n : Nat) : (z.freshRegs o n).wpaddr = z.wpaddr := rfl
@[simp] theorem Warp.freshRegs_wpctl (z : Warp) (o n : Nat) : (z.freshRegs o n).wpctl = z.wpctl := rfl

/-! ### Warp.leave -/
@[simp] theorem Warp.leave_status (z : Warp) (x : LaneMask) (u : Bool) (c : Core) (k : Nat) : (z.leave x u c k).status = z.status := rfl
@[simp] theorem Warp.leave_kind (z : Warp) (x : LaneMask) (u : Bool) (c : Core) (k : Nat) : (z.leave x u c k).kind = z.kind := rfl
@[simp] theorem Warp.leave_launch (z : Warp) (x : LaneMask) (u : Bool) (c : Core) (k : Nat) : (z.leave x u c k).launch = z.launch := rfl
@[simp] theorem Warp.leave_block (z : Warp) (x : LaneMask) (u : Bool) (c : Core) (k : Nat) : (z.leave x u c k).block = z.block := rfl
@[simp] theorem Warp.leave_idx (z : Warp) (x : LaneMask) (u : Bool) (c : Core) (k : Nat) : (z.leave x u c k).idx = z.idx := rfl
@[simp] theorem Warp.leave_wid (z : Warp) (x : LaneMask) (u : Bool) (c : Core) (k : Nat) : (z.leave x u c k).wid = z.wid := rfl
@[simp] theorem Warp.leave_widfmt (z : Warp) (x : LaneMask) (u : Bool) (c : Core) (k : Nat) : (z.leave x u c k).widfmt = z.widfmt := rfl
@[simp] theorem Warp.leave_blockWarps (z : Warp) (x : LaneMask) (u : Bool) (c : Core) (k : Nat) : (z.leave x u c k).blockWarps = z.blockWarps := rfl
@[simp] theorem Warp.leave_since (z : Warp) (x : LaneMask) (u : Bool) (c : Core) (k : Nat) : (z.leave x u c k).since = z.since := rfl
@[simp] theorem Warp.leave_waited (z : Warp) (x : LaneMask) (u : Bool) (c : Core) (k : Nat) : (z.leave x u c k).waited = z.waited := rfl
@[simp] theorem Warp.leave_pc (z : Warp) (x : LaneMask) (u : Bool) (c : Core) (k : Nat) : (z.leave x u c k).pc = z.pc := rfl
@[simp] theorem Warp.leave_base (z : Warp) (x : LaneMask) (u : Bool) (c : Core) (k : Nat) : (z.leave x u c k).base = z.base := rfl
@[simp] theorem Warp.leave_m (z : Warp) (x : LaneMask) (u : Bool) (c : Core) (k : Nat) : (z.leave x u c k).m = z.m := rfl
@[simp] theorem Warp.leave_entered (z : Warp) (x : LaneMask) (u : Bool) (c : Core) (k : Nat) : (z.leave x u c k).entered = z.entered := rfl
@[simp] theorem Warp.leave_links (z : Warp) (x : LaneMask) (u : Bool) (c : Core) (k : Nat) : (z.leave x u c k).links = z.links := rfl
@[simp] theorem Warp.leave_spilled (z : Warp) (x : LaneMask) (u : Bool) (c : Core) (k : Nat) : (z.leave x u c k).spilled = z.spilled := rfl
@[simp] theorem Warp.leave_vregs (z : Warp) (x : LaneMask) (u : Bool) (c : Core) (k : Nat) : (z.leave x u c k).vregs = z.vregs := rfl
@[simp] theorem Warp.leave_vEmpty (z : Warp) (x : LaneMask) (u : Bool) (c : Core) (k : Nat) : (z.leave x u c k).vEmpty = z.vEmpty := rfl
@[simp] theorem Warp.leave_vPoison (z : Warp) (x : LaneMask) (u : Bool) (c : Core) (k : Nat) : (z.leave x u c k).vPoison = z.vPoison := rfl
@[simp] theorem Warp.leave_kregs (z : Warp) (x : LaneMask) (u : Bool) (c : Core) (k : Nat) : (z.leave x u c k).kregs = z.kregs := rfl
@[simp] theorem Warp.leave_kEmpty (z : Warp) (x : LaneMask) (u : Bool) (c : Core) (k : Nat) : (z.leave x u c k).kEmpty = z.kEmpty := rfl
@[simp] theorem Warp.leave_kPoison (z : Warp) (x : LaneMask) (u : Bool) (c : Core) (k : Nat) : (z.leave x u c k).kPoison = z.kPoison := rfl
@[simp] theorem Warp.leave_preds (z : Warp) (x : LaneMask) (u : Bool) (c : Core) (k : Nat) : (z.leave x u c k).preds = z.preds := rfl
@[simp] theorem Warp.leave_divSpilled (z : Warp) (x : LaneMask) (u : Bool) (c : Core) (k : Nat) : (z.leave x u c k).divSpilled = z.divSpilled := rfl
@[simp] theorem Warp.leave_loops (z : Warp) (x : LaneMask) (u : Bool) (c : Core) (k : Nat) : (z.leave x u c k).loops = z.loops := rfl
@[simp] theorem Warp.leave_rep (z : Warp) (x : LaneMask) (u : Bool) (c : Core) (k : Nat) : (z.leave x u c k).rep = z.rep := rfl
@[simp] theorem Warp.leave_repFrom (z : Warp) (x : LaneMask) (u : Bool) (c : Core) (k : Nat) : (z.leave x u c k).repFrom = z.repFrom := rfl
@[simp] theorem Warp.leave_fpsr (z : Warp) (x : LaneMask) (u : Bool) (c : Core) (k : Nat) : (z.leave x u c k).fpsr = z.fpsr := rfl
@[simp] theorem Warp.leave_lpcfg0 (z : Warp) (x : LaneMask) (u : Bool) (c : Core) (k : Nat) : (z.leave x u c k).lpcfg0 = z.lpcfg0 := rfl
@[simp] theorem Warp.leave_lpcfg1 (z : Warp) (x : LaneMask) (u : Bool) (c : Core) (k : Nat) : (z.leave x u c k).lpcfg1 = z.lpcfg1 := rfl
@[simp] theorem Warp.leave_budget (z : Warp) (x : LaneMask) (u : Bool) (c : Core) (k : Nat) : (z.leave x u c k).budget = z.budget := rfl
@[simp] theorem Warp.leave_spillBase (z : Warp) (x : LaneMask) (u : Bool) (c : Core) (k : Nat) : (z.leave x u c k).spillBase = z.spillBase := rfl
@[simp] theorem Warp.leave_spillSize (z : Warp) (x : LaneMask) (u : Bool) (c : Core) (k : Nat) : (z.leave x u c k).spillSize = z.spillSize := rfl
@[simp] theorem Warp.leave_spillArea (z : Warp) (x : LaneMask) (u : Bool) (c : Core) (k : Nat) : (z.leave x u c k).spillArea = z.spillArea := rfl
@[simp] theorem Warp.leave_newest (z : Warp) (x : LaneMask) (u : Bool) (c : Core) (k : Nat) : (z.leave x u c k).newest = z.newest := rfl
@[simp] theorem Warp.leave_openLeft (z : Warp) (x : LaneMask) (u : Bool) (c : Core) (k : Nat) : (z.leave x u c k).openLeft = z.openLeft := rfl
@[simp] theorem Warp.leave_batches (z : Warp) (x : LaneMask) (u : Bool) (c : Core) (k : Nat) : (z.leave x u c k).batches = z.batches := rfl
@[simp] theorem Warp.leave_failed (z : Warp) (x : LaneMask) (u : Bool) (c : Core) (k : Nat) : (z.leave x u c k).failed = z.failed := rfl
@[simp] theorem Warp.leave_wrote (z : Warp) (x : LaneMask) (u : Bool) (c : Core) (k : Nat) : (z.leave x u c k).wrote = z.wrote := rfl
@[simp] theorem Warp.leave_benes (z : Warp) (x : LaneMask) (u : Bool) (c : Core) (k : Nat) : (z.leave x u c k).benes = z.benes := rfl
@[simp] theorem Warp.leave_epoch (z : Warp) (x : LaneMask) (u : Bool) (c : Core) (k : Nat) : (z.leave x u c k).epoch = z.epoch := rfl
@[simp] theorem Warp.leave_faddoCount (z : Warp) (x : LaneMask) (u : Bool) (c : Core) (k : Nat) : (z.leave x u c k).faddoCount = z.faddoCount := rfl
@[simp] theorem Warp.leave_joins (z : Warp) (x : LaneMask) (u : Bool) (c : Core) (k : Nat) : (z.leave x u c k).joins = z.joins := rfl
@[simp] theorem Warp.leave_inflight (z : Warp) (x : LaneMask) (u : Bool) (c : Core) (k : Nat) : (z.leave x u c k).inflight = z.inflight := rfl
@[simp] theorem Warp.leave_vtokWaits (z : Warp) (x : LaneMask) (u : Bool) (c : Core) (k : Nat) : (z.leave x u c k).vtokWaits = z.vtokWaits := rfl
@[simp] theorem Warp.leave_park (z : Warp) (x : LaneMask) (u : Bool) (c : Core) (k : Nat) : (z.leave x u c k).park = z.park := rfl
@[simp] theorem Warp.leave_parkedAt (z : Warp) (x : LaneMask) (u : Bool) (c : Core) (k : Nat) : (z.leave x u c k).parkedAt = z.parkedAt := rfl
@[simp] theorem Warp.leave_lent (z : Warp) (x : LaneMask) (u : Bool) (c : Core) (k : Nat) : (z.leave x u c k).lent = z.lent := rfl
@[simp] theorem Warp.leave_wakePc (z : Warp) (x : LaneMask) (u : Bool) (c : Core) (k : Nat) : (z.leave x u c k).wakePc = z.wakePc := rfl
@[simp] theorem Warp.leave_replay (z : Warp) (x : LaneMask) (u : Bool) (c : Core) (k : Nat) : (z.leave x u c k).replay = z.replay := rfl
@[simp] theorem Warp.leave_suppress (z : Warp) (x : LaneMask) (u : Bool) (c : Core) (k : Nat) : (z.leave x u c k).suppress = z.suppress := rfl
@[simp] theorem Warp.leave_tvec (z : Warp) (x : LaneMask) (u : Bool) (c : Core) (k : Nat) : (z.leave x u c k).tvec = z.tvec := rfl
@[simp] theorem Warp.leave_tcause (z : Warp) (x : LaneMask) (u : Bool) (c : Core) (k : Nat) : (z.leave x u c k).tcause = z.tcause := rfl
@[simp] theorem Warp.leave_tepc (z : Warp) (x : LaneMask) (u : Bool) (c : Core) (k : Nat) : (z.leave x u c k).tepc = z.tepc := rfl
@[simp] theorem Warp.leave_tstat (z : Warp) (x : LaneMask) (u : Bool) (c : Core) (k : Nat) : (z.leave x u c k).tstat = z.tstat := rfl
@[simp] theorem Warp.leave_tmask (z : Warp) (x : LaneMask) (u : Bool) (c : Core) (k : Nat) : (z.leave x u c k).tmask = z.tmask := rfl
@[simp] theorem Warp.leave_detail0 (z : Warp) (x : LaneMask) (u : Bool) (c : Core) (k : Nat) : (z.leave x u c k).detail0 = z.detail0 := rfl
@[simp] theorem Warp.leave_detail1 (z : Warp) (x : LaneMask) (u : Bool) (c : Core) (k : Nat) : (z.leave x u c k).detail1 = z.detail1 := rfl
@[simp] theorem Warp.leave_detail2 (z : Warp) (x : LaneMask) (u : Bool) (c : Core) (k : Nat) : (z.leave x u c k).detail2 = z.detail2 := rfl
@[simp] theorem Warp.leave_tscr (z : Warp) (x : LaneMask) (u : Bool) (c : Core) (k : Nat) : (z.leave x u c k).tscr = z.tscr := rfl
@[simp] theorem Warp.leave_bpaddr (z : Warp) (x : LaneMask) (u : Bool) (c : Core) (k : Nat) : (z.leave x u c k).bpaddr = z.bpaddr := rfl
@[simp] theorem Warp.leave_wpaddr (z : Warp) (x : LaneMask) (u : Bool) (c : Core) (k : Nat) : (z.leave x u c k).wpaddr = z.wpaddr := rfl
@[simp] theorem Warp.leave_wpctl (z : Warp) (x : LaneMask) (u : Bool) (c : Core) (k : Nat) : (z.leave x u c k).wpctl = z.wpctl := rfl

/-! ### Core.wakeBar -/
@[simp] theorem Core.wakeBar_blocks (y : Core) (n : Nat) : (y.wakeBar n).blocks = y.blocks := rfl
@[simp] theorem Core.wakeBar_nextBlock (y : Core) (n : Nat) : (y.wakeBar n).nextBlock = y.nextBlock := rfl
@[simp] theorem Core.wakeBar_spad (y : Core) (n : Nat) : (y.wakeBar n).spad = y.spad := rfl
@[simp] theorem Core.wakeBar_spadPoison (y : Core) (n : Nat) : (y.wakeBar n).spadPoison = y.spadPoison := rfl
@[simp] theorem Core.wakeBar_units (y : Core) (n : Nat) : (y.wakeBar n).units = y.units := rfl
@[simp] theorem Core.wakeBar_tags (y : Core) (n : Nat) : (y.wakeBar n).tags = y.tags := rfl
@[simp] theorem Core.wakeBar_tagPtr (y : Core) (n : Nat) : (y.wakeBar n).tagPtr = y.tagPtr := rfl
@[simp] theorem Core.wakeBar_routes (y : Core) (n : Nat) : (y.wakeBar n).routes = y.routes := rfl
@[simp] theorem Core.wakeBar_acc (y : Core) (n : Nat) : (y.wakeBar n).acc = y.acc := rfl
@[simp] theorem Core.wakeBar_accPoison (y : Core) (n : Nat) : (y.wakeBar n).accPoison = y.accPoison := rfl
@[simp] theorem Core.wakeBar_scale (y : Core) (n : Nat) : (y.wakeBar n).scale = y.scale := rfl
@[simp] theorem Core.wakeBar_scalePoison (y : Core) (n : Nat) : (y.wakeBar n).scalePoison = y.scalePoison := rfl
@[simp] theorem Core.wakeBar_bank0 (y : Core) (n : Nat) : (y.wakeBar n).bank0 = y.bank0 := rfl
@[simp] theorem Core.wakeBar_bank1 (y : Core) (n : Nat) : (y.wakeBar n).bank1 = y.bank1 := rfl
@[simp] theorem Core.wakeBar_bankPoison0 (y : Core) (n : Nat) : (y.wakeBar n).bankPoison0 = y.bankPoison0 := rfl
@[simp] theorem Core.wakeBar_bankPoison1 (y : Core) (n : Nat) : (y.wakeBar n).bankPoison1 = y.bankPoison1 := rfl
@[simp] theorem Core.wakeBar_tabBank (y : Core) (n : Nat) : (y.wakeBar n).tabBank = y.tabBank := rfl
@[simp] theorem Core.wakeBar_mseq (y : Core) (n : Nat) : (y.wakeBar n).mseq = y.mseq := rfl
@[simp] theorem Core.wakeBar_mqueue (y : Core) (n : Nat) : (y.wakeBar n).mqueue = y.mqueue := rfl
@[simp] theorem Core.wakeBar_govern (y : Core) (n : Nat) : (y.wakeBar n).govern = y.govern := rfl
@[simp] theorem Core.wakeBar_latchA (y : Core) (n : Nat) : (y.wakeBar n).latchA = y.latchA := rfl
@[simp] theorem Core.wakeBar_latchS (y : Core) (n : Nat) : (y.wakeBar n).latchS = y.latchS := rfl
@[simp] theorem Core.wakeBar_matFailed (y : Core) (n : Nat) : (y.wakeBar n).matFailed = y.matFailed := rfl
@[simp] theorem Core.wakeBar_mxflags (y : Core) (n : Nat) : (y.wakeBar n).mxflags = y.mxflags := rfl
@[simp] theorem Core.wakeBar_riddle (y : Core) (n : Nat) : (y.wakeBar n).riddle = y.riddle := rfl
@[simp] theorem Core.wakeBar_rqueue (y : Core) (n : Nat) : (y.wakeBar n).rqueue = y.rqueue := rfl
@[simp] theorem Core.wakeBar_rIssued (y : Core) (n : Nat) : (y.wakeBar n).rIssued = y.rIssued := rfl
@[simp] theorem Core.wakeBar_sortFailed (y : Core) (n : Nat) : (y.wakeBar n).sortFailed = y.sortFailed := rfl
@[simp] theorem Core.wakeBar_tokens (y : Core) (n : Nat) : (y.wakeBar n).tokens = y.tokens := rfl
@[simp] theorem Core.wakeBar_vtoks (y : Core) (n : Nat) : (y.wakeBar n).vtoks = y.vtoks := rfl
@[simp] theorem Core.wakeBar_copyq (y : Core) (n : Nat) : (y.wakeBar n).copyq = y.copyq := rfl
@[simp] theorem Core.wakeBar_stackq (y : Core) (n : Nat) : (y.wakeBar n).stackq = y.stackq := rfl
@[simp] theorem Core.wakeBar_kindling (y : Core) (n : Nat) : (y.wakeBar n).kindling = y.kindling := rfl
@[simp] theorem Core.wakeBar_overflow (y : Core) (n : Nat) : (y.wakeBar n).overflow = y.overflow := rfl
@[simp] theorem Core.wakeBar_ovfTail (y : Core) (n : Nat) : (y.wakeBar n).ovfTail = y.ovfTail := rfl
@[simp] theorem Core.wakeBar_hold (y : Core) (n : Nat) : (y.wakeBar n).hold = y.hold := rfl
@[simp] theorem Core.wakeBar_issuedNow (y : Core) (n : Nat) : (y.wakeBar n).issuedNow = y.issuedNow := rfl
@[simp] theorem Core.wakeBar_admitted (y : Core) (n : Nat) : (y.wakeBar n).admitted = y.admitted := rfl
@[simp] theorem Core.wakeBar_childSerial (y : Core) (n : Nat) : (y.wakeBar n).childSerial = y.childSerial := rfl
@[simp] theorem Core.wakeBar_formedAt (y : Core) (n : Nat) : (y.wakeBar n).formedAt = y.formedAt := rfl
@[simp] theorem Core.wakeBar_deadlockSince (y : Core) (n : Nat) : (y.wakeBar n).deadlockSince = y.deadlockSince := rfl
@[simp] theorem Core.wakeBar_l1 (y : Core) (n : Nat) : (y.wakeBar n).l1 = y.l1 := rfl
@[simp] theorem Core.wakeBar_tlb (y : Core) (n : Nat) : (y.wakeBar n).tlb = y.tlb := rfl
@[simp] theorem Core.wakeBar_removed (y : Core) (n : Nat) : (y.wakeBar n).removed = y.removed := rfl
@[simp] theorem Core.wakeBar_hwerr2 (y : Core) (n : Nat) : (y.wakeBar n).hwerr2 = y.hwerr2 := rfl
@[simp] theorem Core.wakeBar_tablesBad (y : Core) (n : Nat) : (y.wakeBar n).tablesBad = y.tablesBad := rfl

/-! ### Core.exchange -/
@[simp] theorem Core.exchange_warps (y : Core) : (y.exchange).warps = y.warps := by unfold Core.exchange; split <;> rfl
@[simp] theorem Core.exchange_blocks (y : Core) : (y.exchange).blocks = y.blocks := by unfold Core.exchange; split <;> rfl
@[simp] theorem Core.exchange_nextBlock (y : Core) : (y.exchange).nextBlock = y.nextBlock := by unfold Core.exchange; split <;> rfl
@[simp] theorem Core.exchange_spad (y : Core) : (y.exchange).spad = y.spad := by unfold Core.exchange; split <;> rfl
@[simp] theorem Core.exchange_spadPoison (y : Core) : (y.exchange).spadPoison = y.spadPoison := by unfold Core.exchange; split <;> rfl
@[simp] theorem Core.exchange_units (y : Core) : (y.exchange).units = y.units := by unfold Core.exchange; split <;> rfl
@[simp] theorem Core.exchange_tags (y : Core) : (y.exchange).tags = y.tags := by unfold Core.exchange; split <;> rfl
@[simp] theorem Core.exchange_tagPtr (y : Core) : (y.exchange).tagPtr = y.tagPtr := by unfold Core.exchange; split <;> rfl
@[simp] theorem Core.exchange_routes (y : Core) : (y.exchange).routes = y.routes := by unfold Core.exchange; split <;> rfl
@[simp] theorem Core.exchange_acc (y : Core) : (y.exchange).acc = y.acc := by unfold Core.exchange; split <;> rfl
@[simp] theorem Core.exchange_accPoison (y : Core) : (y.exchange).accPoison = y.accPoison := by unfold Core.exchange; split <;> rfl
@[simp] theorem Core.exchange_scale (y : Core) : (y.exchange).scale = y.scale := by unfold Core.exchange; split <;> rfl
@[simp] theorem Core.exchange_scalePoison (y : Core) : (y.exchange).scalePoison = y.scalePoison := by unfold Core.exchange; split <;> rfl
@[simp] theorem Core.exchange_bank0 (y : Core) : (y.exchange).bank0 = y.bank0 := by unfold Core.exchange; split <;> rfl
@[simp] theorem Core.exchange_bank1 (y : Core) : (y.exchange).bank1 = y.bank1 := by unfold Core.exchange; split <;> rfl
@[simp] theorem Core.exchange_bankPoison0 (y : Core) : (y.exchange).bankPoison0 = y.bankPoison0 := by unfold Core.exchange; split <;> rfl
@[simp] theorem Core.exchange_bankPoison1 (y : Core) : (y.exchange).bankPoison1 = y.bankPoison1 := by unfold Core.exchange; split <;> rfl
@[simp] theorem Core.exchange_tabBank (y : Core) : (y.exchange).tabBank = y.tabBank := by unfold Core.exchange; split <;> rfl
@[simp] theorem Core.exchange_mseq (y : Core) : (y.exchange).mseq = y.mseq := by unfold Core.exchange; split <;> rfl
@[simp] theorem Core.exchange_mqueue (y : Core) : (y.exchange).mqueue = y.mqueue := by unfold Core.exchange; split <;> rfl
@[simp] theorem Core.exchange_govern (y : Core) : (y.exchange).govern = y.govern := by unfold Core.exchange; split <;> rfl
@[simp] theorem Core.exchange_matFailed (y : Core) : (y.exchange).matFailed = y.matFailed := by unfold Core.exchange; split <;> rfl
@[simp] theorem Core.exchange_mxflags (y : Core) : (y.exchange).mxflags = y.mxflags := by unfold Core.exchange; split <;> rfl
@[simp] theorem Core.exchange_riddle (y : Core) : (y.exchange).riddle = y.riddle := by unfold Core.exchange; split <;> rfl
@[simp] theorem Core.exchange_rqueue (y : Core) : (y.exchange).rqueue = y.rqueue := by unfold Core.exchange; split <;> rfl
@[simp] theorem Core.exchange_rIssued (y : Core) : (y.exchange).rIssued = y.rIssued := by unfold Core.exchange; split <;> rfl
@[simp] theorem Core.exchange_sortFailed (y : Core) : (y.exchange).sortFailed = y.sortFailed := by unfold Core.exchange; split <;> rfl
@[simp] theorem Core.exchange_tokens (y : Core) : (y.exchange).tokens = y.tokens := by unfold Core.exchange; split <;> rfl
@[simp] theorem Core.exchange_vtoks (y : Core) : (y.exchange).vtoks = y.vtoks := by unfold Core.exchange; split <;> rfl
@[simp] theorem Core.exchange_copyq (y : Core) : (y.exchange).copyq = y.copyq := by unfold Core.exchange; split <;> rfl
@[simp] theorem Core.exchange_stackq (y : Core) : (y.exchange).stackq = y.stackq := by unfold Core.exchange; split <;> rfl
@[simp] theorem Core.exchange_kindling (y : Core) : (y.exchange).kindling = y.kindling := by unfold Core.exchange; split <;> rfl
@[simp] theorem Core.exchange_overflow (y : Core) : (y.exchange).overflow = y.overflow := by unfold Core.exchange; split <;> rfl
@[simp] theorem Core.exchange_ovfTail (y : Core) : (y.exchange).ovfTail = y.ovfTail := by unfold Core.exchange; split <;> rfl
@[simp] theorem Core.exchange_hold (y : Core) : (y.exchange).hold = y.hold := by unfold Core.exchange; split <;> rfl
@[simp] theorem Core.exchange_issuedNow (y : Core) : (y.exchange).issuedNow = y.issuedNow := by unfold Core.exchange; split <;> rfl
@[simp] theorem Core.exchange_admitted (y : Core) : (y.exchange).admitted = y.admitted := by unfold Core.exchange; split <;> rfl
@[simp] theorem Core.exchange_childSerial (y : Core) : (y.exchange).childSerial = y.childSerial := by unfold Core.exchange; split <;> rfl
@[simp] theorem Core.exchange_formedAt (y : Core) : (y.exchange).formedAt = y.formedAt := by unfold Core.exchange; split <;> rfl
@[simp] theorem Core.exchange_deadlockSince (y : Core) : (y.exchange).deadlockSince = y.deadlockSince := by unfold Core.exchange; split <;> rfl
@[simp] theorem Core.exchange_l1 (y : Core) : (y.exchange).l1 = y.l1 := by unfold Core.exchange; split <;> rfl
@[simp] theorem Core.exchange_tlb (y : Core) : (y.exchange).tlb = y.tlb := by unfold Core.exchange; split <;> rfl
@[simp] theorem Core.exchange_removed (y : Core) : (y.exchange).removed = y.removed := by unfold Core.exchange; split <;> rfl
@[simp] theorem Core.exchange_hwerr2 (y : Core) : (y.exchange).hwerr2 = y.hwerr2 := by unfold Core.exchange; split <;> rfl
@[simp] theorem Core.exchange_tablesBad (y : Core) : (y.exchange).tablesBad = y.tablesBad := by unfold Core.exchange; split <;> rfl

/-! ### Core.takeUnits -/
@[simp] theorem Core.takeUnits_warps (y : Core) (b n l : Nat) : (y.takeUnits b n l).warps = y.warps := rfl
@[simp] theorem Core.takeUnits_blocks (y : Core) (b n l : Nat) : (y.takeUnits b n l).blocks = y.blocks := rfl
@[simp] theorem Core.takeUnits_nextBlock (y : Core) (b n l : Nat) : (y.takeUnits b n l).nextBlock = y.nextBlock := rfl
@[simp] theorem Core.takeUnits_spad (y : Core) (b n l : Nat) : (y.takeUnits b n l).spad = y.spad := rfl
@[simp] theorem Core.takeUnits_spadPoison (y : Core) (b n l : Nat) : (y.takeUnits b n l).spadPoison = y.spadPoison := rfl
@[simp] theorem Core.takeUnits_tags (y : Core) (b n l : Nat) : (y.takeUnits b n l).tags = y.tags := rfl
@[simp] theorem Core.takeUnits_tagPtr (y : Core) (b n l : Nat) : (y.takeUnits b n l).tagPtr = y.tagPtr := rfl
@[simp] theorem Core.takeUnits_routes (y : Core) (b n l : Nat) : (y.takeUnits b n l).routes = y.routes := rfl
@[simp] theorem Core.takeUnits_acc (y : Core) (b n l : Nat) : (y.takeUnits b n l).acc = y.acc := rfl
@[simp] theorem Core.takeUnits_accPoison (y : Core) (b n l : Nat) : (y.takeUnits b n l).accPoison = y.accPoison := rfl
@[simp] theorem Core.takeUnits_scale (y : Core) (b n l : Nat) : (y.takeUnits b n l).scale = y.scale := rfl
@[simp] theorem Core.takeUnits_scalePoison (y : Core) (b n l : Nat) : (y.takeUnits b n l).scalePoison = y.scalePoison := rfl
@[simp] theorem Core.takeUnits_bank0 (y : Core) (b n l : Nat) : (y.takeUnits b n l).bank0 = y.bank0 := rfl
@[simp] theorem Core.takeUnits_bank1 (y : Core) (b n l : Nat) : (y.takeUnits b n l).bank1 = y.bank1 := rfl
@[simp] theorem Core.takeUnits_bankPoison0 (y : Core) (b n l : Nat) : (y.takeUnits b n l).bankPoison0 = y.bankPoison0 := rfl
@[simp] theorem Core.takeUnits_bankPoison1 (y : Core) (b n l : Nat) : (y.takeUnits b n l).bankPoison1 = y.bankPoison1 := rfl
@[simp] theorem Core.takeUnits_tabBank (y : Core) (b n l : Nat) : (y.takeUnits b n l).tabBank = y.tabBank := rfl
@[simp] theorem Core.takeUnits_mseq (y : Core) (b n l : Nat) : (y.takeUnits b n l).mseq = y.mseq := rfl
@[simp] theorem Core.takeUnits_mqueue (y : Core) (b n l : Nat) : (y.takeUnits b n l).mqueue = y.mqueue := rfl
@[simp] theorem Core.takeUnits_govern (y : Core) (b n l : Nat) : (y.takeUnits b n l).govern = y.govern := rfl
@[simp] theorem Core.takeUnits_latchA (y : Core) (b n l : Nat) : (y.takeUnits b n l).latchA = y.latchA := rfl
@[simp] theorem Core.takeUnits_latchS (y : Core) (b n l : Nat) : (y.takeUnits b n l).latchS = y.latchS := rfl
@[simp] theorem Core.takeUnits_matFailed (y : Core) (b n l : Nat) : (y.takeUnits b n l).matFailed = y.matFailed := rfl
@[simp] theorem Core.takeUnits_mxflags (y : Core) (b n l : Nat) : (y.takeUnits b n l).mxflags = y.mxflags := rfl
@[simp] theorem Core.takeUnits_riddle (y : Core) (b n l : Nat) : (y.takeUnits b n l).riddle = y.riddle := rfl
@[simp] theorem Core.takeUnits_rqueue (y : Core) (b n l : Nat) : (y.takeUnits b n l).rqueue = y.rqueue := rfl
@[simp] theorem Core.takeUnits_rIssued (y : Core) (b n l : Nat) : (y.takeUnits b n l).rIssued = y.rIssued := rfl
@[simp] theorem Core.takeUnits_sortFailed (y : Core) (b n l : Nat) : (y.takeUnits b n l).sortFailed = y.sortFailed := rfl
@[simp] theorem Core.takeUnits_tokens (y : Core) (b n l : Nat) : (y.takeUnits b n l).tokens = y.tokens := rfl
@[simp] theorem Core.takeUnits_vtoks (y : Core) (b n l : Nat) : (y.takeUnits b n l).vtoks = y.vtoks := rfl
@[simp] theorem Core.takeUnits_copyq (y : Core) (b n l : Nat) : (y.takeUnits b n l).copyq = y.copyq := rfl
@[simp] theorem Core.takeUnits_stackq (y : Core) (b n l : Nat) : (y.takeUnits b n l).stackq = y.stackq := rfl
@[simp] theorem Core.takeUnits_kindling (y : Core) (b n l : Nat) : (y.takeUnits b n l).kindling = y.kindling := rfl
@[simp] theorem Core.takeUnits_overflow (y : Core) (b n l : Nat) : (y.takeUnits b n l).overflow = y.overflow := rfl
@[simp] theorem Core.takeUnits_ovfTail (y : Core) (b n l : Nat) : (y.takeUnits b n l).ovfTail = y.ovfTail := rfl
@[simp] theorem Core.takeUnits_hold (y : Core) (b n l : Nat) : (y.takeUnits b n l).hold = y.hold := rfl
@[simp] theorem Core.takeUnits_issuedNow (y : Core) (b n l : Nat) : (y.takeUnits b n l).issuedNow = y.issuedNow := rfl
@[simp] theorem Core.takeUnits_admitted (y : Core) (b n l : Nat) : (y.takeUnits b n l).admitted = y.admitted := rfl
@[simp] theorem Core.takeUnits_childSerial (y : Core) (b n l : Nat) : (y.takeUnits b n l).childSerial = y.childSerial := rfl
@[simp] theorem Core.takeUnits_formedAt (y : Core) (b n l : Nat) : (y.takeUnits b n l).formedAt = y.formedAt := rfl
@[simp] theorem Core.takeUnits_deadlockSince (y : Core) (b n l : Nat) : (y.takeUnits b n l).deadlockSince = y.deadlockSince := rfl
@[simp] theorem Core.takeUnits_l1 (y : Core) (b n l : Nat) : (y.takeUnits b n l).l1 = y.l1 := rfl
@[simp] theorem Core.takeUnits_tlb (y : Core) (b n l : Nat) : (y.takeUnits b n l).tlb = y.tlb := rfl
@[simp] theorem Core.takeUnits_removed (y : Core) (b n l : Nat) : (y.takeUnits b n l).removed = y.removed := rfl
@[simp] theorem Core.takeUnits_hwerr2 (y : Core) (b n l : Nat) : (y.takeUnits b n l).hwerr2 = y.hwerr2 := rfl
@[simp] theorem Core.takeUnits_tablesBad (y : Core) (b n l : Nat) : (y.takeUnits b n l).tablesBad = y.tablesBad := rfl

/-! ### Core.dropUnits -/
@[simp] theorem Core.dropUnits_warps (y : Core) (b n : Nat) : (y.dropUnits b n).warps = y.warps := rfl
@[simp] theorem Core.dropUnits_blocks (y : Core) (b n : Nat) : (y.dropUnits b n).blocks = y.blocks := rfl
@[simp] theorem Core.dropUnits_nextBlock (y : Core) (b n : Nat) : (y.dropUnits b n).nextBlock = y.nextBlock := rfl
@[simp] theorem Core.dropUnits_spad (y : Core) (b n : Nat) : (y.dropUnits b n).spad = y.spad := rfl
@[simp] theorem Core.dropUnits_spadPoison (y : Core) (b n : Nat) : (y.dropUnits b n).spadPoison = y.spadPoison := rfl
@[simp] theorem Core.dropUnits_tags (y : Core) (b n : Nat) : (y.dropUnits b n).tags = y.tags := rfl
@[simp] theorem Core.dropUnits_tagPtr (y : Core) (b n : Nat) : (y.dropUnits b n).tagPtr = y.tagPtr := rfl
@[simp] theorem Core.dropUnits_routes (y : Core) (b n : Nat) : (y.dropUnits b n).routes = y.routes := rfl
@[simp] theorem Core.dropUnits_acc (y : Core) (b n : Nat) : (y.dropUnits b n).acc = y.acc := rfl
@[simp] theorem Core.dropUnits_accPoison (y : Core) (b n : Nat) : (y.dropUnits b n).accPoison = y.accPoison := rfl
@[simp] theorem Core.dropUnits_scale (y : Core) (b n : Nat) : (y.dropUnits b n).scale = y.scale := rfl
@[simp] theorem Core.dropUnits_scalePoison (y : Core) (b n : Nat) : (y.dropUnits b n).scalePoison = y.scalePoison := rfl
@[simp] theorem Core.dropUnits_bank0 (y : Core) (b n : Nat) : (y.dropUnits b n).bank0 = y.bank0 := rfl
@[simp] theorem Core.dropUnits_bank1 (y : Core) (b n : Nat) : (y.dropUnits b n).bank1 = y.bank1 := rfl
@[simp] theorem Core.dropUnits_bankPoison0 (y : Core) (b n : Nat) : (y.dropUnits b n).bankPoison0 = y.bankPoison0 := rfl
@[simp] theorem Core.dropUnits_bankPoison1 (y : Core) (b n : Nat) : (y.dropUnits b n).bankPoison1 = y.bankPoison1 := rfl
@[simp] theorem Core.dropUnits_tabBank (y : Core) (b n : Nat) : (y.dropUnits b n).tabBank = y.tabBank := rfl
@[simp] theorem Core.dropUnits_mseq (y : Core) (b n : Nat) : (y.dropUnits b n).mseq = y.mseq := rfl
@[simp] theorem Core.dropUnits_mqueue (y : Core) (b n : Nat) : (y.dropUnits b n).mqueue = y.mqueue := rfl
@[simp] theorem Core.dropUnits_govern (y : Core) (b n : Nat) : (y.dropUnits b n).govern = y.govern := rfl
@[simp] theorem Core.dropUnits_latchA (y : Core) (b n : Nat) : (y.dropUnits b n).latchA = y.latchA := rfl
@[simp] theorem Core.dropUnits_latchS (y : Core) (b n : Nat) : (y.dropUnits b n).latchS = y.latchS := rfl
@[simp] theorem Core.dropUnits_matFailed (y : Core) (b n : Nat) : (y.dropUnits b n).matFailed = y.matFailed := rfl
@[simp] theorem Core.dropUnits_mxflags (y : Core) (b n : Nat) : (y.dropUnits b n).mxflags = y.mxflags := rfl
@[simp] theorem Core.dropUnits_riddle (y : Core) (b n : Nat) : (y.dropUnits b n).riddle = y.riddle := rfl
@[simp] theorem Core.dropUnits_rqueue (y : Core) (b n : Nat) : (y.dropUnits b n).rqueue = y.rqueue := rfl
@[simp] theorem Core.dropUnits_rIssued (y : Core) (b n : Nat) : (y.dropUnits b n).rIssued = y.rIssued := rfl
@[simp] theorem Core.dropUnits_sortFailed (y : Core) (b n : Nat) : (y.dropUnits b n).sortFailed = y.sortFailed := rfl
@[simp] theorem Core.dropUnits_tokens (y : Core) (b n : Nat) : (y.dropUnits b n).tokens = y.tokens := rfl
@[simp] theorem Core.dropUnits_vtoks (y : Core) (b n : Nat) : (y.dropUnits b n).vtoks = y.vtoks := rfl
@[simp] theorem Core.dropUnits_copyq (y : Core) (b n : Nat) : (y.dropUnits b n).copyq = y.copyq := rfl
@[simp] theorem Core.dropUnits_stackq (y : Core) (b n : Nat) : (y.dropUnits b n).stackq = y.stackq := rfl
@[simp] theorem Core.dropUnits_kindling (y : Core) (b n : Nat) : (y.dropUnits b n).kindling = y.kindling := rfl
@[simp] theorem Core.dropUnits_overflow (y : Core) (b n : Nat) : (y.dropUnits b n).overflow = y.overflow := rfl
@[simp] theorem Core.dropUnits_ovfTail (y : Core) (b n : Nat) : (y.dropUnits b n).ovfTail = y.ovfTail := rfl
@[simp] theorem Core.dropUnits_hold (y : Core) (b n : Nat) : (y.dropUnits b n).hold = y.hold := rfl
@[simp] theorem Core.dropUnits_issuedNow (y : Core) (b n : Nat) : (y.dropUnits b n).issuedNow = y.issuedNow := rfl
@[simp] theorem Core.dropUnits_admitted (y : Core) (b n : Nat) : (y.dropUnits b n).admitted = y.admitted := rfl
@[simp] theorem Core.dropUnits_childSerial (y : Core) (b n : Nat) : (y.dropUnits b n).childSerial = y.childSerial := rfl
@[simp] theorem Core.dropUnits_formedAt (y : Core) (b n : Nat) : (y.dropUnits b n).formedAt = y.formedAt := rfl
@[simp] theorem Core.dropUnits_deadlockSince (y : Core) (b n : Nat) : (y.dropUnits b n).deadlockSince = y.deadlockSince := rfl
@[simp] theorem Core.dropUnits_l1 (y : Core) (b n : Nat) : (y.dropUnits b n).l1 = y.l1 := rfl
@[simp] theorem Core.dropUnits_tlb (y : Core) (b n : Nat) : (y.dropUnits b n).tlb = y.tlb := rfl
@[simp] theorem Core.dropUnits_removed (y : Core) (b n : Nat) : (y.dropUnits b n).removed = y.removed := rfl
@[simp] theorem Core.dropUnits_hwerr2 (y : Core) (b n : Nat) : (y.dropUnits b n).hwerr2 = y.hwerr2 := rfl
@[simp] theorem Core.dropUnits_tablesBad (y : Core) (b n : Nat) : (y.dropUnits b n).tablesBad = y.tablesBad := rfl

/-! ### Core.putWords -/
@[simp] theorem Core.putWords_warps (y : Core) (n o : Nat) (xs : List Nat) (b : Bool) : (y.putWords n o xs b).warps = y.warps := rfl
@[simp] theorem Core.putWords_blocks (y : Core) (n o : Nat) (xs : List Nat) (b : Bool) : (y.putWords n o xs b).blocks = y.blocks := rfl
@[simp] theorem Core.putWords_nextBlock (y : Core) (n o : Nat) (xs : List Nat) (b : Bool) : (y.putWords n o xs b).nextBlock = y.nextBlock := rfl
@[simp] theorem Core.putWords_units (y : Core) (n o : Nat) (xs : List Nat) (b : Bool) : (y.putWords n o xs b).units = y.units := rfl
@[simp] theorem Core.putWords_tags (y : Core) (n o : Nat) (xs : List Nat) (b : Bool) : (y.putWords n o xs b).tags = y.tags := rfl
@[simp] theorem Core.putWords_tagPtr (y : Core) (n o : Nat) (xs : List Nat) (b : Bool) : (y.putWords n o xs b).tagPtr = y.tagPtr := rfl
@[simp] theorem Core.putWords_routes (y : Core) (n o : Nat) (xs : List Nat) (b : Bool) : (y.putWords n o xs b).routes = y.routes := rfl
@[simp] theorem Core.putWords_acc (y : Core) (n o : Nat) (xs : List Nat) (b : Bool) : (y.putWords n o xs b).acc = y.acc := rfl
@[simp] theorem Core.putWords_accPoison (y : Core) (n o : Nat) (xs : List Nat) (b : Bool) : (y.putWords n o xs b).accPoison = y.accPoison := rfl
@[simp] theorem Core.putWords_scale (y : Core) (n o : Nat) (xs : List Nat) (b : Bool) : (y.putWords n o xs b).scale = y.scale := rfl
@[simp] theorem Core.putWords_scalePoison (y : Core) (n o : Nat) (xs : List Nat) (b : Bool) : (y.putWords n o xs b).scalePoison = y.scalePoison := rfl
@[simp] theorem Core.putWords_bank0 (y : Core) (n o : Nat) (xs : List Nat) (b : Bool) : (y.putWords n o xs b).bank0 = y.bank0 := rfl
@[simp] theorem Core.putWords_bank1 (y : Core) (n o : Nat) (xs : List Nat) (b : Bool) : (y.putWords n o xs b).bank1 = y.bank1 := rfl
@[simp] theorem Core.putWords_bankPoison0 (y : Core) (n o : Nat) (xs : List Nat) (b : Bool) : (y.putWords n o xs b).bankPoison0 = y.bankPoison0 := rfl
@[simp] theorem Core.putWords_bankPoison1 (y : Core) (n o : Nat) (xs : List Nat) (b : Bool) : (y.putWords n o xs b).bankPoison1 = y.bankPoison1 := rfl
@[simp] theorem Core.putWords_tabBank (y : Core) (n o : Nat) (xs : List Nat) (b : Bool) : (y.putWords n o xs b).tabBank = y.tabBank := rfl
@[simp] theorem Core.putWords_mseq (y : Core) (n o : Nat) (xs : List Nat) (b : Bool) : (y.putWords n o xs b).mseq = y.mseq := rfl
@[simp] theorem Core.putWords_mqueue (y : Core) (n o : Nat) (xs : List Nat) (b : Bool) : (y.putWords n o xs b).mqueue = y.mqueue := rfl
@[simp] theorem Core.putWords_govern (y : Core) (n o : Nat) (xs : List Nat) (b : Bool) : (y.putWords n o xs b).govern = y.govern := rfl
@[simp] theorem Core.putWords_latchA (y : Core) (n o : Nat) (xs : List Nat) (b : Bool) : (y.putWords n o xs b).latchA = y.latchA := rfl
@[simp] theorem Core.putWords_latchS (y : Core) (n o : Nat) (xs : List Nat) (b : Bool) : (y.putWords n o xs b).latchS = y.latchS := rfl
@[simp] theorem Core.putWords_matFailed (y : Core) (n o : Nat) (xs : List Nat) (b : Bool) : (y.putWords n o xs b).matFailed = y.matFailed := rfl
@[simp] theorem Core.putWords_mxflags (y : Core) (n o : Nat) (xs : List Nat) (b : Bool) : (y.putWords n o xs b).mxflags = y.mxflags := rfl
@[simp] theorem Core.putWords_riddle (y : Core) (n o : Nat) (xs : List Nat) (b : Bool) : (y.putWords n o xs b).riddle = y.riddle := rfl
@[simp] theorem Core.putWords_rqueue (y : Core) (n o : Nat) (xs : List Nat) (b : Bool) : (y.putWords n o xs b).rqueue = y.rqueue := rfl
@[simp] theorem Core.putWords_rIssued (y : Core) (n o : Nat) (xs : List Nat) (b : Bool) : (y.putWords n o xs b).rIssued = y.rIssued := rfl
@[simp] theorem Core.putWords_sortFailed (y : Core) (n o : Nat) (xs : List Nat) (b : Bool) : (y.putWords n o xs b).sortFailed = y.sortFailed := rfl
@[simp] theorem Core.putWords_tokens (y : Core) (n o : Nat) (xs : List Nat) (b : Bool) : (y.putWords n o xs b).tokens = y.tokens := rfl
@[simp] theorem Core.putWords_vtoks (y : Core) (n o : Nat) (xs : List Nat) (b : Bool) : (y.putWords n o xs b).vtoks = y.vtoks := rfl
@[simp] theorem Core.putWords_copyq (y : Core) (n o : Nat) (xs : List Nat) (b : Bool) : (y.putWords n o xs b).copyq = y.copyq := rfl
@[simp] theorem Core.putWords_stackq (y : Core) (n o : Nat) (xs : List Nat) (b : Bool) : (y.putWords n o xs b).stackq = y.stackq := rfl
@[simp] theorem Core.putWords_kindling (y : Core) (n o : Nat) (xs : List Nat) (b : Bool) : (y.putWords n o xs b).kindling = y.kindling := rfl
@[simp] theorem Core.putWords_overflow (y : Core) (n o : Nat) (xs : List Nat) (b : Bool) : (y.putWords n o xs b).overflow = y.overflow := rfl
@[simp] theorem Core.putWords_ovfTail (y : Core) (n o : Nat) (xs : List Nat) (b : Bool) : (y.putWords n o xs b).ovfTail = y.ovfTail := rfl
@[simp] theorem Core.putWords_hold (y : Core) (n o : Nat) (xs : List Nat) (b : Bool) : (y.putWords n o xs b).hold = y.hold := rfl
@[simp] theorem Core.putWords_issuedNow (y : Core) (n o : Nat) (xs : List Nat) (b : Bool) : (y.putWords n o xs b).issuedNow = y.issuedNow := rfl
@[simp] theorem Core.putWords_admitted (y : Core) (n o : Nat) (xs : List Nat) (b : Bool) : (y.putWords n o xs b).admitted = y.admitted := rfl
@[simp] theorem Core.putWords_childSerial (y : Core) (n o : Nat) (xs : List Nat) (b : Bool) : (y.putWords n o xs b).childSerial = y.childSerial := rfl
@[simp] theorem Core.putWords_formedAt (y : Core) (n o : Nat) (xs : List Nat) (b : Bool) : (y.putWords n o xs b).formedAt = y.formedAt := rfl
@[simp] theorem Core.putWords_deadlockSince (y : Core) (n o : Nat) (xs : List Nat) (b : Bool) : (y.putWords n o xs b).deadlockSince = y.deadlockSince := rfl
@[simp] theorem Core.putWords_l1 (y : Core) (n o : Nat) (xs : List Nat) (b : Bool) : (y.putWords n o xs b).l1 = y.l1 := rfl
@[simp] theorem Core.putWords_tlb (y : Core) (n o : Nat) (xs : List Nat) (b : Bool) : (y.putWords n o xs b).tlb = y.tlb := rfl
@[simp] theorem Core.putWords_removed (y : Core) (n o : Nat) (xs : List Nat) (b : Bool) : (y.putWords n o xs b).removed = y.removed := rfl
@[simp] theorem Core.putWords_hwerr2 (y : Core) (n o : Nat) (xs : List Nat) (b : Bool) : (y.putWords n o xs b).hwerr2 = y.hwerr2 := rfl
@[simp] theorem Core.putWords_tablesBad (y : Core) (n o : Nat) (xs : List Nat) (b : Bool) : (y.putWords n o xs b).tablesBad = y.tablesBad := rfl

end Sys2Proof.Machine
end

