-- ==== Sys2Proof/Laws/Table.lean ====
section
/-! SUPPORT. Laws of tables by number and of memories: reading behind a write, and the canonical forms that every
write keeps. -/
namespace Sys2Proof.Machine

/-! ## Tables -/

@[simp] theorem AMap.find?_set {α : Type} (t : AMap α) (i j : Nat) (v : α) :
    AMap.find? (AMap.set t i v) j = if j = i then some v else AMap.find? t j := by
  induction t with
  | nil => simp [AMap.set, AMap.find?, eq_comm]
  | cons e t ih =>
    obtain ⟨k, w⟩ := e
    simp only [AMap.set]
    split
    · simp only [AMap.find?]; grind
    · split
      · simp only [AMap.find?]; grind
      · simp only [AMap.find?, ih]; grind

@[simp] theorem AMap.get_set {α : Type} (d : α) (t : AMap α) (i j : Nat) (v : α) :
    AMap.get d (AMap.set t i v) j = if j = i then v else AMap.get d t j := by
  unfold AMap.get; rw [AMap.find?_set]; split <;> simp

@[simp] theorem AMap.find?_erase {α : Type} (t : AMap α) (i j : Nat) :
    AMap.find? (AMap.erase t i) j = if j = i then none else AMap.find? t j := by
  unfold AMap.erase
  induction t with
  | nil => simp [AMap.find?]
  | cons e t ih =>
    obtain ⟨k, w⟩ := e
    simp only [List.filter_cons]
    split
    · simp only [AMap.find?, ih]; grind
    · simp only [AMap.find?, ih]; grind

/-- A table with strictly rising keys whose least key is above a bound. -/
theorem keysRise_cons {α : Type} (a : Nat × α) (t : AMap α) :
    keysRise (a :: t) = true ↔ (∀ b ∈ t.head?, a.1 < b.1) ∧ keysRise t = true := by
  cases t with
  | nil => simp [keysRise]
  | cons b t => simp [keysRise]

theorem AMap.head?_set {α : Type} (t : AMap α) (i : Nat) (v : α) (b : Nat × α) (h : b ∈ (AMap.set t i v).head?) :
    b.1 = i ∨ ∃ c ∈ t.head?, b.1 = c.1 := by
  cases t with
  | nil => simp [AMap.set] at h; simp [← h]
  | cons e t =>
    obtain ⟨k, w⟩ := e
    simp only [AMap.set] at h
    split at h
    · simp at h; simp [← h]
    · split at h
      · simp at h; simp [← h]
      · simp at h; right; simp [← h]

/-- A write keeps the keys strictly rising. -/
theorem keysRise_set {α : Type} (t : AMap α) (i : Nat) (v : α) (h : keysRise t = true) :
    keysRise (AMap.set t i v) = true := by
  induction t with
  | nil => rfl
  | cons e t ih =>
    obtain ⟨k, w⟩ := e
    have hc := (keysRise_cons _ _).1 h
    simp only [AMap.set]
    split
    · rename_i hk; rw [keysRise_cons]; exact ⟨by simp [hk], h⟩
    · split
      · rename_i hk; rw [keysRise_cons]; exact ⟨by intro b hb; have := hc.1 b hb; omega, hc.2⟩
      · rename_i h1 h2
        rw [keysRise_cons]
        refine ⟨?_, ih hc.2⟩
        intro b hb
        rcases AMap.head?_set t i v b hb with hb | ⟨c, hc', hb⟩
        · simp only; omega
        · have := hc.1 c hc'; simp only at *; omega

theorem keysRise_lt {α : Type} (a : Nat × α) (t : AMap α) (h : keysRise (a :: t) = true) : ∀ b ∈ t, a.1 < b.1 := by
  induction t generalizing a with
  | nil => simp
  | cons b t ih =>
    have hc := (keysRise_cons _ _).1 h
    have hab : a.1 < b.1 := hc.1 b (by simp)
    intro c hmem
    rcases List.mem_cons.1 hmem with rfl | hm
    · exact hab
    · exact Nat.lt_trans hab (ih b hc.2 c hm)

/-- Dropping entries keeps the keys strictly rising. -/
theorem keysRise_filter {α : Type} (t : AMap α) (f : Nat × α → Bool) (h : keysRise t = true) :
    keysRise (t.filter f) = true := by
  induction t with
  | nil => rfl
  | cons a t ih =>
    have hc := (keysRise_cons _ _).1 h
    simp only [List.filter_cons]
    split
    · rw [keysRise_cons]
      refine ⟨?_, ih hc.2⟩
      intro b hb
      have hm : b ∈ t.filter f := List.mem_of_mem_head? hb
      exact keysRise_lt a t h b (List.mem_filter.1 hm).1
    · exact ih hc.2

theorem keysRise_erase {α : Type} (t : AMap α) (i : Nat) (h : keysRise t = true) : keysRise (AMap.erase t i) = true :=
  keysRise_filter t _ h

/-- Changing values under the same keys keeps the keys strictly rising. -/
theorem keysRise_map {α β : Type} (t : AMap α) (f : Nat × α → Nat × β) (hf : ∀ x, (f x).1 = x.1) (h : keysRise t = true) :
    keysRise (t.map f) = true := by
  induction t with
  | nil => rfl
  | cons a t ih =>
    have hc := (keysRise_cons _ _).1 h
    rw [List.map_cons, keysRise_cons]
    refine ⟨?_, ih hc.2⟩
    intro b hb
    cases t with
    | nil => simp at hb
    | cons c t => simp at hb; rw [← hb, hf, hf]; exact hc.1 c (by simp)

/-! ## Memories -/

theorem Memory.wf_cons (a : Nat) (v : Byte) (t : Memory) :
    Memory.wf ((a, v) :: t) = true ↔ v ≠ 0 ∧ (∀ b ∈ t.head?, a < b.1) ∧ Memory.wf t = true := by
  cases t with
  | nil => simp [Memory.wf]
  | cons b t => obtain ⟨b, w⟩ := b; simp [Memory.wf, and_assoc]

theorem Memory.head?_write (t : Memory) (a : Nat) (v : Byte) (b : Nat × Byte) (h : b ∈ (Memory.write t a v).head?)
    (hw : Memory.wf t = true) : b.1 = a ∨ ∃ c ∈ t.head?, c.1 ≤ b.1 := by
  cases t with
  | nil =>
    simp only [Memory.write] at h
    split at h
    · simp at h
    · simp at h; simp [← h]
  | cons e t =>
    obtain ⟨k, w⟩ := e
    have hc := (Memory.wf_cons _ _ _).1 hw
    simp only [Memory.write] at h
    split at h
    · split at h
      · simp at h; right; simp [← h]
      · simp at h; simp [← h]
    · split at h
      · split at h
        · right; refine ⟨(k, w), by simp, ?_⟩; exact Nat.le_of_lt (hc.2.1 b h)
        · simp at h; simp [← h]
      · simp at h; right; simp [← h]

/-- Writing a byte keeps the canonical form. -/
theorem Memory.wf_write (t : Memory) (a : Nat) (v : Byte) (h : Memory.wf t = true) : Memory.wf (Memory.write t a v) = true := by
  induction t with
  | nil => simp only [Memory.write]; split <;> simp_all [Memory.wf]
  | cons e t ih =>
    obtain ⟨k, w⟩ := e
    have hc := (Memory.wf_cons _ _ _).1 h
    simp only [Memory.write]
    split
    · split
      · exact h
      · rename_i hk hv; rw [Memory.wf_cons]; exact ⟨hv, by simp [hk], h⟩
    · split
      · split
        · exact hc.2.2
        · rename_i hk hv; rw [Memory.wf_cons]; exact ⟨hv, by intro b hb; have := hc.2.1 b hb; omega, hc.2.2⟩
      · rename_i h1 h2
        rw [Memory.wf_cons]
        refine ⟨hc.1, ?_, ih hc.2.2⟩
        intro b hb
        rcases Memory.head?_write t a v b hb hc.2.2 with hb | ⟨c, hc', hb⟩
        · omega
        · have := hc.2.1 c hc'; omega

/-- Writing bytes keeps the canonical form. -/
theorem Memory.wf_writeBytes (b : List Byte) (t : Memory) (a : Nat) (h : Memory.wf t = true) :
    Memory.wf (Memory.writeBytes t a b) = true := by
  induction b generalizing t a with
  | nil => exact h
  | cons x b ih => exact ih _ _ (Memory.wf_write t a x h)

theorem Memory.read_lt (t : Memory) (a : Nat) (h : Memory.wf t = true) (hb : ∀ b ∈ t.head?, a < b.1) : Memory.read t a = 0 := by
  induction t with
  | nil => rfl
  | cons e t ih =>
    obtain ⟨k, w⟩ := e
    have hc := (Memory.wf_cons _ _ _).1 h
    have hk : a < k := hb (k, w) (by simp)
    simp only [Memory.read]
    rw [if_neg (by omega)]
    exact ih hc.2.2 (by intro b hb'; have := hc.2.1 b hb'; omega)

/-- Reading the byte just written gives it. -/
theorem Memory.read_write_same (t : Memory) (a : Nat) (v : Byte) (h : Memory.wf t = true) :
    Memory.read (Memory.write t a v) a = v := by
  induction t with
  | nil => simp only [Memory.write]; split <;> simp_all [Memory.read]
  | cons e t ih =>
    obtain ⟨k, w⟩ := e
    have hc := (Memory.wf_cons _ _ _).1 h
    simp only [Memory.write]
    split
    · rename_i hk
      split
      · rename_i hv; rw [hv]; exact Memory.read_lt _ _ h (by simp [hk])
      · simp [Memory.read]
    · split
      · rename_i hk
        split
        · rename_i hv; rw [hv]; exact Memory.read_lt _ _ hc.2.2 (by intro b hb; have := hc.2.1 b hb; omega)
        · simp [Memory.read]
      · rename_i h1 h2
        simp only [Memory.read]
        rw [if_neg (by omega)]
        exact ih hc.2.2

/-- Reading another byte gives what it gave before. -/
theorem Memory.read_write_other (t : Memory) (a j : Nat) (v : Byte) (hj : j ≠ a) :
    Memory.read (Memory.write t a v) j = Memory.read t j := by
  induction t with
  | nil => simp only [Memory.write]; split <;> simp [Memory.read, Ne.symm hj]
  | cons e t ih =>
    obtain ⟨k, w⟩ := e
    simp only [Memory.write]
    split
    · split
      · rfl
      · simp only [Memory.read]; rw [if_neg (by omega)]
    · split
      · rename_i hk
        split
        · simp only [Memory.read]; rw [if_neg (by omega)]
        · simp only [Memory.read]; grind
      · simp only [Memory.read, ih]

/-- Bytes outside a write read as before. -/
theorem Memory.read_writeBytes_other (b : List Byte) (t : Memory) (a j : Nat) (hj : j < a ∨ a + b.length ≤ j) :
    Memory.read (Memory.writeBytes t a b) j = Memory.read t j := by
  induction b generalizing t a with
  | nil => rfl
  | cons x b ih =>
    simp only [Memory.writeBytes, List.length_cons] at *
    rw [ih _ _ (by omega), Memory.read_write_other _ _ _ _ (by omega)]

/-- The bytes of a write read back. -/
theorem Memory.read_writeBytes (b : List Byte) (t : Memory) (a i : Nat) (h : Memory.wf t = true) (hi : i < b.length) :
    Memory.read (Memory.writeBytes t a b) (a + i) = b.getD i 0 := by
  induction b generalizing t a i with
  | nil => simp at hi
  | cons x b ih =>
    simp only [Memory.writeBytes]
    cases i with
    | zero =>
      rw [Memory.read_writeBytes_other _ _ _ _ (by omega)]
      simp [Memory.read_write_same _ _ _ h]
    | succ i =>
      have := ih (t.write a x) (a + 1) i (Memory.wf_write _ _ _ h) (by simpa using hi)
      rw [show a + (i + 1) = a + 1 + i by omega, this]; simp

/-- The bytes of a write read back as one piece. -/
theorem Memory.bytes_writeBytes (b : List Byte) (t : Memory) (a : Nat) (h : Memory.wf t = true) :
    Memory.bytes (Memory.writeBytes t a b) a b.length = b := by
  apply List.ext_getElem
  · simp [Memory.bytes]
  · intro i h1 h2
    simp only [Memory.bytes, List.getElem_map, List.getElem_range]
    rw [Memory.read_writeBytes _ _ _ _ h h2]
    simp [h2]

@[simp] theorem leBytes_length (n x : Nat) : (leBytes n x).length = n := by
  induction n generalizing x with
  | zero => rfl
  | succ n ih => simp [leBytes, ih]

/-- A number's bytes give it back, modulo 2^(8n) (R87). -/
theorem leNat_leBytes (n x : Nat) : leNat (leBytes n x) = x % 2 ^ (8 * n) := by
  induction n generalizing x with
  | zero => simp [leBytes, leNat, Nat.mod_one]
  | succ n ih =>
    simp only [leBytes, leNat, ih, BitVec.toNat_ofNat]
    have h : 2 ^ (8 * (n + 1)) = 256 * 2 ^ (8 * n) := by rw [show 8 * (n + 1) = 8 + 8 * n by omega, Nat.pow_add]
    rw [h, Nat.mod_mul]

/-- A number written and read back (R87). -/
theorem Memory.readN_writeN (t : Memory) (a n x : Nat) (h : Memory.wf t = true) :
    Memory.readN (Memory.writeN t a n x) a n = x % 2 ^ (8 * n) := by
  unfold Memory.readN Memory.writeN
  have := Memory.bytes_writeBytes (leBytes n x) t a h
  rw [leBytes_length] at this
  rw [this, leNat_leBytes]

/-! ## Cores, dies, warps and launches of the module -/

@[simp] theorem State.core_setCore (s : State) (c d : Nat) (x : Core) :
    (s.setCore c x).core d = if d = c then x else s.core d := by simp [State.core, State.setCore]

@[simp] theorem State.die_setDie (s : State) (c d : Nat) (x : Die) :
    (s.setDie c x).die d = if d = c then x else s.die d := by simp [State.die, State.setDie]

@[simp] theorem State.warpAt_setWarpAt (s : State) (c k d j : Nat) (w : Warp) :
    (s.setWarpAt c k w).warpAt d j = if d = c ∧ j = k then w else s.warpAt d j := by
  simp only [State.warpAt, State.setWarpAt, State.core_setCore]
  by_cases h : d = c
  · subst h; simp
  · simp [h]

@[simp] theorem State.w_setW (s : State) (w : Warp) : (s.setW w).w = w := by
  simp only [State.w, State.setW]
  rw [show (s.setWarpAt s.curCore s.curSlot w).curCore = s.curCore from rfl,
    show (s.setWarpAt s.curCore s.curSlot w).curSlot = s.curSlot from rfl, State.warpAt_setWarpAt]
  simp

@[simp] theorem State.launch?_setLaunch (s : State) (n k : Nat) (l : Launch) :
    (s.setLaunch n l).launch? k = if k = n then some l else s.launch? k := by simp [State.launch?, State.setLaunch]

end Sys2Proof.Machine
end

