-- ==== Sys2Proof/Laws/Access.lean ====
section
/-! SUPPORT. Laws of translation: what a lookup answers, and all that it changes: the translation caches and the counter
of free choices. -/
namespace Sys2Proof.Machine

/-- The entry that a walk's leaf makes in a cache (R214). -/
def entryOf (asid : Nat) (gen : BitVec 16) (va : Nat) (l : Leaf) : TlbEntry :=
  ⟨asid, gen, va - va % l.size, l.size, l.pa, l.r, l.w, l.x⟩

/-- Two states differ at most in their translation caches and in the counter of free choices. -/
structure SameButTlb (s t : State) : Prop where
  mem : t.mem = s.mem
  memPoison : t.memPoison = s.memPoison
  launches : t.launches = s.launches
  aspaces : t.aspaces = s.aspaces
  queues : t.queues = s.queues
  core : ∀ c, { t.core c with tlb := (s.core c).tlb } = s.core c
  die : ∀ d, { t.die d with tlb := (s.die d).tlb } = s.die d

theorem SameButTlb.refl (s : State) : SameButTlb s s := ⟨rfl, rfl, rfl, rfl, rfl, fun _ => rfl, fun _ => rfl⟩

theorem SameButTlb.trans {s t u : State} (h : SameButTlb s t) (k : SameButTlb t u) : SameButTlb s u :=
  ⟨k.mem.trans h.mem, k.memPoison.trans h.memPoison, k.launches.trans h.launches, k.aspaces.trans h.aspaces, k.queues.trans h.queues,
   fun c => by have a := h.core c; have b := k.core c; rw [← a, ← b], fun d => by have a := h.die d; have b := k.die d; rw [← a, ← b]⟩

theorem SameButTlb.isolated {s t : State} (h : SameButTlb s t) (d : Nat) : (t.die d).isolated = (s.die d).isolated := by
  rw [← h.die d]

theorem SameButTlb.fenced {s t : State} (h : SameButTlb s t) (d : Nat) : (t.die d).fenced = (s.die d).fenced := by
  rw [← h.die d]

theorem mem_tlbPut {n k : Nat} {l : List TlbEntry} {e x : TlbEntry} (h : x ∈ tlbPut n k l e) : x ∈ l ∨ x = e := by
  unfold tlbPut at h
  split at h
  · simpa using h
  · simp only [List.mem_append, List.mem_singleton] at h
    exact h.imp (List.mem_of_mem_eraseIdx ·) id

/-- A lookup answers a cached entry of the core or of the die, or the walk; the caches gain at most that entry, and nothing
else of the machine changes. -/
theorem State.lookup_cases (s : State) (c asid : Nat) (gen : BitVec 16) (root va : Nat) :
    let r := s.lookup c asid gen root va
    SameButTlb s r.2 ∧
    (r.1 = s.walk root va ∧ (∀ x ∈ (r.2.core c).tlb, x ∈ (s.core c).tlb ∨ ∃ l, r.1 = .leaf l ∧ x = entryOf asid gen va l) ∧
        (∀ x ∈ (r.2.die (dieOf c)).tlb, x ∈ (s.die (dieOf c)).tlb ∨ ∃ l, r.1 = .leaf l ∧ x = entryOf asid gen va l) ∨
     ∃ e, (e ∈ (s.core c).tlb ∨ e ∈ (s.die (dieOf c)).tlb) ∧ r.1 = .leaf e.leaf ∧
        (∀ x ∈ (r.2.core c).tlb, x ∈ (s.core c).tlb ∨ x = e) ∧ (r.2.die (dieOf c)).tlb = (s.die (dieOf c)).tlb) := by
  have put : ∀ (u : State) (e : TlbEntry) (k : Nat), let t := u.setCore c { u.core c with tlb := tlbPut 128 k (u.core c).tlb e }
      SameButTlb u t ∧ (∀ x ∈ (t.core c).tlb, x ∈ (u.core c).tlb ∨ x = e) ∧ ∀ d, t.die d = u.die d := by
    intro u e k
    refine ⟨⟨rfl, rfl, rfl, rfl, rfl, fun d => ?_, fun _ => rfl⟩, fun x h => ?_, fun _ => rfl⟩
    · simp only [State.core_setCore]; split
      · subst_vars; rfl
      · rfl
    · simp only [State.core_setCore, if_true] at h; exact mem_tlbPut h
  have bump : SameButTlb s { s with freeCtr := s.freeCtr + 4 } := ⟨rfl, rfl, rfl, rfl, rfl, fun _ => rfl, fun _ => rfl⟩
  have hit : ∀ {l : List TlbEntry} {e : TlbEntry}, tlbFind l asid gen va = some e → e ∈ l := fun h => List.mem_of_find?_eq_some h
  simp only [State.lookup]
  split
  · next _ _ e h _ => exact ⟨bump, .inr ⟨e, .inl (hit h), rfl, fun x hx => .inl hx, rfl⟩⟩
  · split
    · next _ _ e h _ =>
      obtain ⟨a, b, d⟩ := put { s with freeCtr := s.freeCtr + 4 } e (s.freeCtr + 2)
      exact ⟨bump.trans a, .inr ⟨e, .inr (hit h), rfl, b, by rw [d]; rfl⟩⟩
    · split
      · next l h =>
        obtain ⟨a, b, d⟩ := put { s with freeCtr := s.freeCtr + 4 } (entryOf asid gen va l) (s.freeCtr + 2)
        refine ⟨bump.trans (a.trans ⟨rfl, rfl, rfl, rfl, rfl, fun _ => rfl, fun j => ?_⟩), .inl ⟨h.symm, fun x hx => ?_, fun x hx => ?_⟩⟩
        · simp only [State.die_setDie]; split
          · subst_vars; rfl
          · rfl
        · exact (b x hx).imp id fun e => ⟨l, rfl, e⟩
        · simp only [State.die_setDie, if_true] at hx
          exact (mem_tlbPut hx).imp (fun y => y) fun e => ⟨l, rfl, e⟩
      · next r h => exact ⟨bump, .inl ⟨rfl, fun x hx => .inl hx, fun x hx => .inl hx⟩⟩

end Sys2Proof.Machine
end

