-- ==== Sys2Proof/Laws/Issue.lean ====
section
/-! SUPPORT. What the gate, the checks of sources and the shared frames of instructions do, said once. -/
namespace Sys2Proof.Machine

/-! ## The gate -/

theorem lowest_cons (x : Nat) (l : List Nat) : lowest (x :: l) ≠ none := by
  unfold lowest
  simp only [List.foldl_cons]
  generalize x = m
  induction l generalizing m with
  | nil => simp
  | cons y l ih => exact ih _

theorem lowest_eq_none (l : List Nat) : lowest l = none ↔ l = [] := by
  cases l with
  | nil => simp [lowest]
  | cons x l => simp [lowest_cons]

/-- A cleared instruction passes the gate. -/
theorem gate_of_clear (i : Instr) (s : State) (h : Clear i s = true) : gate i s = .ok () := by
  simp only [Clear, Bool.and_eq_true, List.isEmpty_iff, Option.isNone_iff_eq_none] at h
  obtain ⟨⟨⟨⟨_, h2⟩, h3⟩, h4⟩, h5⟩ := h
  unfold gate
  rw [(lowest_eq_none _).2 h2, h3, h4]
  simp only [Bool.or_eq_true, Bool.not_eq_true', beq_iff_eq] at h5
  rcases h5 with h5 | h5 <;> simp [h5]

theorem live_of_clear (i : Instr) (s : State) (h : Clear i s = true) : s.w.status = .live := by
  simp only [Clear, Bool.and_eq_true, beq_iff_eq] at h
  exact h.1.1.1.1

/-- A cleared instruction answers what its body comes to. -/
theorem issue_of_clear (i : Instr) (s : State) (body : State → Except Stop State) (h : Clear i s = true) :
    issue i s body = .next (s.settle (body s)) := by
  unfold issue
  rw [if_pos (live_of_clear i s h), gate_of_clear i s h]

/-- A cleared instruction whose body completes answers that state. -/
theorem issue_ok (i : Instr) (s t : State) (body : State → Except Stop State) (h : Clear i s = true) (hb : body s = .ok t) :
    issue i s body = .next t := by
  rw [issue_of_clear i s body h, hb]; rfl

/-- An instruction of a live warp answers a next state. -/
theorem issue_next (i : Instr) (s : State) (body : State → Except Stop State) (h : s.w.status = .live) :
    ∃ t, issue i s body = .next t := by
  unfold issue; rw [if_pos h]; exact ⟨_, rfl⟩

/-! ## Sources -/

theorem maskOf_false (f : Nat → Bool) (h : ∀ l, l < 32 → f l = false) : maskOf f = 0 := by
  unfold maskOf
  have : ∀ (l : List Nat) (m : LaneMask), (∀ x ∈ l, f x = false) →
      l.foldl (fun m i => if f i then m ||| BitVec.ofNat 32 (2 ^ i) else m) m = m := by
    intro l
    induction l with
    | nil => intro m _; rfl
    | cons x l ih => intro m hx; simp only [List.foldl_cons, hx x (by simp)]; exact ih m fun y hy => hx y (by simp [hy])
  exact this _ _ fun x hx => h x (List.mem_range.1 hx)

theorem lanesOf_zero : lanesOf 0 = [] := by decide

theorem mem_lanesOf (m : LaneMask) (l : Nat) : l ∈ lanesOf m ↔ l < 32 ∧ m.getLsbD l = true := by
  simp [lanesOf]

/-- Sources that are readable, and destinations that are full, pass the check of R51 and R52. -/
theorem readyCheck_ok (w : Warp) (i : Instr) (xs : List Src) (vd kd : Option Nat) (m : LaneMask)
    (h : Readable w m xs = true) (hv : ∀ r, vd = some r → w.vIsEmpty r = false)
    (hk : ∀ r, kd = some r → w.kIsEmpty r = false) : readyCheck w i xs vd kd = .ok () := by
  simp only [Readable, List.all_eq_true, Bool.and_eq_true, Bool.not_eq_true'] at h
  unfold readyCheck
  have h1 : xs.find? (fun x => x.trap && x.isEmpty w) = none := by
    rw [List.find?_eq_none]; intro x hx; simp [(h x hx).1]
  have h2 : xs.any (fun x => x.isEmpty w) = false := by
    rw [List.any_eq_false]; intro x hx; simp [(h x hx).1]
  rw [h1]
  cases vd <;> cases kd <;> simp_all

/-- Readable sources pass the check for poison (R394). -/
theorem poisonCheck_ok (w : Warp) (u : Bool) (m : LaneMask) (xs : List Src) (h : Readable w m xs = true) :
    poisonCheck w u m xs = .ok () := by
  simp only [Readable, List.all_eq_true, Bool.and_eq_true, Bool.not_eq_true'] at h
  unfold poisonCheck
  simp only
  rw [maskOf_false, lanesOf_zero]
  · rfl
  · intro l hl
    cases hm : m.getLsbD l with
    | false => rfl
    | true =>
      simp only [Bool.true_and, Option.isSome_eq_false_iff, Option.isNone_iff_eq_none, List.findSome?_eq_none_iff]
      intro x hx
      have := (h x hx).2 l ((mem_lanesOf m l).2 ⟨hl, hm⟩)
      simp [Option.isNone_iff_eq_none.1 this]

theorem kCheck_ok (w : Warp) (i : Instr) (ks : List Nat) (kd : Option Nat) (h : ReadableK w ks = true)
    (hk : ∀ r, kd = some r → w.kIsEmpty r = false) : kCheck w i ks kd = .ok () :=
  readyCheck_ok w i _ none kd 1 h (by simp) hk

theorem kPoisonCheck_ok (w : Warp) (ks : List Nat) (h : ReadableK w ks = true) : kPoisonCheck w ks = .ok () :=
  poisonCheck_ok w true 1 _ h

theorem Readable_append (w : Warp) (m : LaneMask) (xs ys : List Src) :
    Readable w m (xs ++ ys) = (Readable w m xs && Readable w m ys) := by simp [Readable]

theorem Readable_nil (w : Warp) (m : LaneMask) : Readable w m [] = true := rfl

/-! ## The frames of lane instructions -/

theorem Lanes.merge_congr (m : LaneMask) (x y o : Lanes) (h : ∀ l, l < 32 → m.getLsbD l = true → x.getD l 0 = y.getD l 0) :
    Lanes.merge m x o = Lanes.merge m y o := by
  unfold Lanes.merge
  apply List.map_congr_left
  intro l hl
  split
  · exact h l (List.mem_range.1 hl) ‹_›
  · rfl

theorem Lanes.of_getD (f : Nat → Word) (l : Nat) (h : l < 32) : (Lanes.of f).getD l 0 = f l := by
  simp [Lanes.of, h]

theorem foldl_flags (m : LaneMask) (f : Nat → Word × FFlags) (l : List Nat) (a : FFlags) :
    (l.map fun l => (if m.getLsbD l then f l else (0, 0)).2).foldl (· ||| ·) a =
      l.foldl (fun a l => if m.getLsbD l then a ||| (f l).2 else a) a := by
  induction l generalizing a with
  | nil => rfl
  | cons x l ih =>
    simp only [List.map_cons, List.foldl_cons]
    rw [ih]
    split <;> simp

/-- A lane instruction in which no lane acts does nothing (R89). -/
theorem laneWrite_none (i : Instr) (lw : LaneW) (srcs : Warp → List Src) (rd : Bool)
    (f : Warp → LaneMask → Nat → Word × FFlags) (s : State) (h : s.w.acts lw = 0) :
    laneWrite i lw srcs rd f s = .ok (s.finish (s.nextPc i)) := by
  unfold laneWrite; simp [h]

/-- A lane instruction whose sources are readable writes its value in the acting lanes (R89, R101, R118). -/
theorem laneWrite_ok (i : Instr) (lw : LaneW) (srcs : Warp → List Src) (rd : Bool)
    (f : Warp → LaneMask → Nat → Word × FFlags) (s : State) (ha : s.w.acts lw ≠ 0)
    (hs : Readable s.w (s.w.acts lw) (srcs s.w) = true) (hd : s.w.vIsEmpty lw.vd.toNat = false)
    (ho : rd = true → Readable s.w (s.w.acts lw) [vSrc lw.vd.toNat false 0] = true) :
    laneWrite i lw srcs rd f s =
      .ok (s.wroteV i lw (fun l => (f s.w (s.w.acts lw) l).1) fun l => (f s.w (s.w.acts lw) l).2) := by
  unfold laneWrite
  simp only
  rw [if_neg ha, readyCheck_ok s.w i _ _ _ (s.w.acts lw) hs (by intro r hr; cases hr; exact hd) (by simp)]
  simp only
  rw [poisonCheck_ok]
  · simp only [State.wroteV, laneFlags, Warp.putV, Warp.setV, Warp.setOff]
    congr 2
    simp only [List.map_map, Function.comp_def, foldl_flags]
    congr 2
    apply Lanes.merge_congr
    intro l hl hm
    rw [Lanes.of_getD _ _ hl]
    simp [hl, hm]
  · rw [Readable_append, hs]
    cases rd with
    | false => rfl
    | true => simpa using ho rfl

theorem getLsbD_two_pow (i j : Nat) (hi : i < 32) : (BitVec.ofNat 32 (2 ^ j)).getLsbD i = decide (j = i) := by
  rw [BitVec.getLsbD_ofNat, Nat.testBit_two_pow, decide_eq_true hi, Bool.true_and]

/-- Lane l of a mask that a test makes. -/
theorem getLsbD_maskOf (f : Nat → Bool) (i : Nat) (hi : i < 32) : (maskOf f).getLsbD i = f i := by
  unfold maskOf
  have key : ∀ (l : List Nat) (m : LaneMask),
      (l.foldl (fun m i => if f i then m ||| BitVec.ofNat 32 (2 ^ i) else m) m).getLsbD i =
        (m.getLsbD i || l.any fun j => j == i && f j) := by
    intro l
    induction l with
    | nil => intro m; simp
    | cons j l ih =>
      intro m
      simp only [List.foldl_cons, List.any_cons, ih]
      by_cases hj : j = i
      · subst hj
        cases hf : f j with
        | false => simp only [Bool.false_eq_true, if_false, beq_self_eq_true, Bool.and_false, Bool.false_or]
        | true => simp only [if_true, BitVec.getLsbD_or, getLsbD_two_pow _ _ hi, decide_true, Bool.or_true, beq_self_eq_true, Bool.and_true, Bool.true_or]
      · have h0 : (j == i) = false := beq_eq_false_iff_ne.2 hj
        have h1 : decide (j = i) = false := decide_eq_false hj
        cases hf : f j with
        | false => simp only [Bool.false_eq_true, if_false, h0, Bool.false_and, Bool.false_or]
        | true => simp only [if_true, BitVec.getLsbD_or, getLsbD_two_pow _ _ hi, h0, h1, Bool.or_false, Bool.false_and, Bool.false_or]
  rw [key]
  simp only [show (0 : LaneMask).getLsbD i = false from by simp, Bool.false_or]
  cases hf : f i with
  | false => rw [List.any_eq_false]; intro j _; by_cases hj : j = i <;> simp [hj, hf]
  | true => rw [List.any_eq_true]; exact ⟨i, by simp [hi], by simp [hf]⟩

theorem maskOf_and_congr (m : LaneMask) (f g : Nat → Bool) (h : ∀ l, l < 32 → m.getLsbD l = true → f l = g l) :
    maskOf f &&& m = maskOf g &&& m := by
  apply BitVec.eq_of_getLsbD_eq
  intro i hi
  simp only [BitVec.getLsbD_and, getLsbD_maskOf _ _ hi]
  cases hm : m.getLsbD i with
  | false => simp
  | true => rw [h i hi hm]

theorem foldl_flagsP (m : LaneMask) (f : Nat → Bool × FFlags) (l : List Nat) (a : FFlags) :
    (l.map fun l => (if m.getLsbD l then f l else (false, 0)).2).foldl (· ||| ·) a =
      l.foldl (fun a l => if m.getLsbD l then a ||| (f l).2 else a) a := by
  induction l generalizing a with
  | nil => rfl
  | cons x l ih =>
    simp only [List.map_cons, List.foldl_cons]
    rw [ih]
    split <;> simp

/-- A predicate instruction in which no lane acts does nothing (R89). -/
theorem lanePred_none (i : Instr) (lw : LaneW) (srcs : Warp → List Src)
    (f : Warp → LaneMask → Nat → Bool × FFlags) (s : State) (h : s.w.acts lw = 0) :
    lanePred i lw srcs f s = .ok (s.finish (s.nextPc i)) := by
  unfold lanePred; simp [h]

/-- A predicate instruction whose sources are readable writes its tests in the acting lanes (R124, R138). -/
theorem lanePred_ok (i : Instr) (lw : LaneW) (srcs : Warp → List Src)
    (f : Warp → LaneMask → Nat → Bool × FFlags) (s : State) (ha : s.w.acts lw ≠ 0)
    (hs : Readable s.w (s.w.acts lw) (srcs s.w) = true) :
    lanePred i lw srcs f s =
      .ok (s.wroteP i lw (fun l => (f s.w (s.w.acts lw) l).1) fun l => (f s.w (s.w.acts lw) l).2) := by
  unfold lanePred
  simp only
  rw [if_neg ha, readyCheck_ok s.w i _ _ _ (s.w.acts lw) hs (by simp) (by simp), poisonCheck_ok _ _ _ _ hs]
  have hp : ∀ g : Nat → Bool, (∀ l, l < 32 → (s.w.acts lw).getLsbD l = true → g l = (f s.w (s.w.acts lw) l).1) →
      s.w.setP (lw.vd.toNat % 8) (s.w.acts lw) (maskOf g) =
        s.w.setP (lw.vd.toNat % 8) (s.w.acts lw) (maskOf fun l => (f s.w (s.w.acts lw) l).1) := by
    intro g hg
    unfold Warp.setP
    rw [maskOf_and_congr _ _ _ hg]
  simp only [State.wroteP, laneFlags, List.map_map, Function.comp_def, foldl_flagsP]
  rw [hp]
  intro l hl hm
  simp [hl, hm]

/-! ## Operations on sub-elements -/

/-- An integer operation on sub-elements (R119): its value, and no flag. -/
theorem elemwiseI_ok (i : Instr) (lw : LaneW) (a b c : Bool) (g : Nat → Nat → Nat → Nat) (s : State)
    (ha : s.w.acts lw ≠ 0) (hs : Readable s.w (s.w.acts lw) (arithSrcs s.w lw a b c) = true)
    (hd : s.w.vIsEmpty lw.vd.toNat = false) :
    elemwiseI i lw a b c g s = .ok (s.wroteV i lw (laneOf s.w lw a b c g) fun _ => 0) := by
  unfold elemwiseI elemwise
  rw [laneWrite_ok i lw _ false _ s ha hs hd (by simp)]
  congr 2
  · funext l; simp [laneOf, packElems, elems3, List.map_map, Function.comp_def]
  · funext l
    simp only [List.map_map, Function.comp_def]
    have : ∀ (l : List Nat) (z : FFlags), (l.map fun _ => (0 : FFlags)).foldl (· ||| ·) z = z := by
      intro l; induction l with
      | nil => intro z; rfl
      | cons x l ih => intro z; simp only [List.map_cons, List.foldl_cons]; rw [show z ||| (0 : FFlags) = z by simp, ih]
    exact this _ 0

/-- An operation on sub-elements with flags (R77, R119). -/
theorem elemwise_ok (i : Instr) (lw : LaneW) (a b c : Bool) (g : Nat → Nat → Nat → Nat × FFlags) (s : State)
    (ha : s.w.acts lw ≠ 0) (hs : Readable s.w (s.w.acts lw) (arithSrcs s.w lw a b c) = true)
    (hd : s.w.vIsEmpty lw.vd.toNat = false) :
    elemwise i lw a b c g s =
      .ok (s.wroteV i lw (laneOf s.w lw a b c fun x y z => (g x y z).1) (laneFlagsOf s.w lw a b c fun x y z => (g x y z).2)) := by
  unfold elemwise
  rw [laneWrite_ok i lw _ false _ s ha hs hd (by simp)]
  congr 2
  · funext l; simp [laneOf, packElems, elems3, List.map_map, Function.comp_def]
  · funext l; simp [laneFlagsOf, elems3, List.map_map, Function.comp_def]

/-! ## The frames of uniform instructions -/

/-- A uniform instruction whose sources are readable writes kd (R157). -/
theorem uniWrite_ok (i : Instr) (u : UniW) (a b rd : Bool) (f : Warp → Word) (s : State)
    (hs : ReadableK s.w (uSrcs u a b ++ if rd then [u.kd.toNat] else []) = true) (hd : s.w.kIsEmpty u.kd.toNat = false) :
    uniWrite i u a b rd f s = .ok (s.wroteK i u.kd.toNat (f s.w)) := by
  unfold uniWrite
  simp only
  rw [kCheck_ok _ _ _ _ hs (by intro r hr; cases hr; exact hd), kPoisonCheck_ok _ _ hs]
  rfl

/-- A uniform instruction without destination does its body (R157). -/
theorem uniDo_ok (i : Instr) (ks : List Nat) (body : State → Except Stop State) (s : State)
    (hs : ReadableK s.w ks = true) : uniDo i ks body s = body s := by
  unfold uniDo
  rw [kCheck_ok _ _ _ _ hs (by simp), kPoisonCheck_ok _ _ hs]

/-- A control transfer away from a loop's end does its body (R368). -/
theorem control_ok (i : Instr) (ks : List Nat) (body : State → Except Stop State) (s : State)
    (hs : ReadableK s.w ks = true) (hl : NoLoopEnd s.w = true) : control i ks body s = body s := by
  unfold control loopCheck
  rw [kCheck_ok _ _ _ _ hs (by simp)]
  simp only [NoLoopEnd, Option.isNone_iff_eq_none] at hl
  simp [hl]

end Sys2Proof.Machine
end

