-- ==== Sys2Proof/Laws/Control.lean ====
section
/-! SUPPORT. Completing an instruction away from a loop's end, offsets, and the entry of a handler. -/
namespace Sys2Proof.Machine

theorem toSigned_eq (n : Nat) (x : BitVec n) : toSigned n x.toNat = x.toInt := by
  unfold toSigned; rw [BitVec.toInt_eq_toNat_cond]; split <;> simp_all

/-- Sign extension of a field, as the operations compute it. -/
theorem signExt_eq (n : Nat) (x : BitVec n) : signExt n x.toNat = x.signExtend 64 := by
  unfold signExt
  rw [Nat.mod_eq_of_lt x.isLt, toSigned_eq]; rfl

theorem offsetPc_eq (n : Nat) (a : Word) (x : BitVec n) : offsetPc a n x.toNat = wordsFrom a x := by
  unfold offsetPc wordsFrom; rw [signExt_eq]

/-- Where no loop frame ends, none is processed (R169). -/
theorem loopFrames_none (x : Word) (l : List LoopFrame) (h : l.find? (fun f => f.last == x) = none) : loopFrames x l = (l, none) := by
  cases l with
  | nil => rfl
  | cons f fs =>
    have : f.last ≠ x := by
      intro e; simp [List.find?, e] at h
    simp [loopFrames, this]

/-- Completing an instruction outside a REP and away from a loop's end (R56, R169). -/
theorem complete_goTo (w : Warp) (next : Word) (h : NoLoopEnd w = true) (hr : w.rep = none) : w.complete next = w.goTo next := by
  simp only [NoLoopEnd, Option.isNone_iff_eq_none] at h
  unfold Warp.complete Warp.advance Warp.goTo
  rw [loopFrames_none _ _ h, hr]
  rfl

theorem finish_goTo (s : State) (next : Word) (h : NoLoopEnd s.w = true) (hr : s.w.rep = none) :
    s.finish next = s.setW (s.w.goTo next) := by
  unfold State.finish; rw [complete_goTo _ _ h hr]

theorem finishW_goTo (s : State) (w : Warp) (next : Word) (h : NoLoopEnd w = true) (hr : w.rep = none) :
    s.finishW w next = s.setW (w.goTo next) := by
  unfold State.finishW; rw [complete_goTo _ _ h hr]

theorem loopCheck_ok (i : Instr) (s : State) (n : Nat) (h : NoLoopEnd s.w = true) : loopCheck i s n = .ok () := by
  simp only [NoLoopEnd, Option.isNone_iff_eq_none] at h
  unfold loopCheck; rw [h]

/-- A register target within the address space and aligned (R380). -/
theorem targetCheck_ok (a : Nat) (h : a % 4 = 0) (h2 : a < 2 ^ 52) : targetCheck a = .ok () := by
  unfold targetCheck; rw [if_neg (by omega), if_neg (by omega)]

theorem vecMask_bit : ∀ i : Fin 64, (0x000FFFFFFFFFFFFC#64).getLsbD i.val = decide (2 ≤ i.val ∧ i.val < 52) := by decide

theorem vecMask_eq (x : Word) : x &&& 0x000FFFFFFFFFFFFC#64 = (x.extractLsb' 2 50).setWidth 64 <<< 2 := by
  apply BitVec.eq_of_getLsbD_eq
  intro i hi
  rw [BitVec.getLsbD_and, vecMask_bit ⟨i, hi⟩]
  simp only [BitVec.getLsbD_shiftLeft, BitVec.getLsbD_setWidth, BitVec.getLsbD_extractLsb', hi, decide_true, Bool.true_and]
  by_cases h : i < 2
  · have h9 : ¬(2 ≤ i ∧ i < 52) := by omega
    simp only [h, h9, decide_true, decide_false, Bool.and_false, Bool.not_true, Bool.false_and]
  · have e : 2 + (i - 2) = i := by omega
    have e2 : i - 2 < 64 := by omega
    simp only [h, decide_false, Bool.not_false, Bool.true_and, e, e2, decide_true]
    by_cases h3 : i < 52
    · have h5 : i - 2 < 50 := by omega
      have h4 : 2 ≤ i := by omega
      simp [h3, h4, h5]
    · have h5 : ¬ i - 2 < 50 := by omega
      simp [h3, h5]

/-- The handler's address, as the trap entry computes it (R355). -/
theorem handler_eq (w : Warp) (g : Nat) : w.handler g = handlerOf w.tvec g := by
  unfold Warp.handler handlerOf
  rw [← vecMask_eq]
  rfl

end Sys2Proof.Machine
end

