-- ==== Sys2Proof/Laws/Mail.lean ====
section
/-! SUPPORT. What sending a packet, and the delivery of ready tasks, can change: the dies, and what launches have ready. -/
namespace Sys2Proof.Machine

/-- A request for a place, its withdrawal and a packet that sets out change the dies only. -/
theorem State.askPlace_dies (s : State) (die : Nat) (req : PlaceReq) : ∃ ds, s.askPlace die req = { s with dies := ds } := by
  simp only [State.askPlace]
  split <;> exact ⟨_, rfl⟩

theorem State.dropPlace_dies (s : State) (die : Nat) (req : PlaceReq) : ∃ ds, s.dropPlace die req = { s with dies := ds } := by
  simp only [State.dropPlace]
  split <;> exact ⟨_, rfl⟩

theorem State.sendMail_dies (s : State) (src die launch sender : Nat) (req : PlaceReq) (p : Packet) :
    ∃ ds, s.sendMail src die launch sender req p = { s with dies := ds } := by
  obtain ⟨ds, e⟩ := s.dropPlace_dies die req
  unfold State.sendMail
  rw [e]
  exact ⟨_, rfl⟩

/-- A state differs from another by nothing but the dies and what its launches have ready. -/
def State.onlyDelivers (s t : State) : Prop :=
  (∃ ds ls, t = { s with dies := ds, launches := ls }) ∧ (∀ n, s.launch? n = none → t.launch? n = none) ∧
    ∀ n l, s.launch? n = some l → ∃ y, t.launch? n = some { l with ready := y }

theorem State.onlyDelivers_dies (s : State) (ds : AMap Die) : s.onlyDelivers { s with dies := ds } :=
  ⟨⟨ds, _, rfl⟩, fun _ h => h, fun _ l h => ⟨l.ready, h⟩⟩

theorem State.onlyDelivers_trans {s t u : State} (h : s.onlyDelivers t) (k : t.onlyDelivers u) : s.onlyDelivers u := by
  refine ⟨?_, fun n e => k.2.1 n (h.2.1 n e), fun n l e => ?_⟩
  · obtain ⟨⟨ds, ls, rfl⟩, -⟩ := h
    obtain ⟨⟨es, ms, rfl⟩, -⟩ := k
    exact ⟨es, ms, rfl⟩
  · obtain ⟨y, e⟩ := h.2.2 n l e
    obtain ⟨z, f⟩ := k.2.2 n _ e
    exact ⟨z, f⟩

/-- What taking one task out of a launch's ready ones can do. -/
theorem State.onlyDelivers_setReady (s : State) (n : Nat) (l : Launch) (y : List (BitVec 32)) (h : s.launch? n = some l) :
    s.onlyDelivers (s.setLaunch n { l with ready := y }) := by
  refine ⟨⟨_, _, rfl⟩, fun m e => ?_, fun m x e => ?_⟩ <;> rw [State.launch?_setLaunch]
  · rw [if_neg (fun k => by simp [k, h] at e), e]
  · by_cases k : m = n
    · subst k
      rw [h] at e
      cases e
      exact ⟨y, if_pos rfl⟩
    · exact ⟨x.ready, by rw [if_neg k, e]⟩

/-- What delivering the ready tasks of a die can do. -/
theorem State.deliverReady_onlyDelivers (die fuel : Nat) (s : State) : s.onlyDelivers (s.deliverReady die fuel) := by
  have drop : s.onlyDelivers (s.dropPlace die .unit) := by
    obtain ⟨ds, e⟩ := s.dropPlace_dies die .unit
    exact e ▸ s.onlyDelivers_dies ds
  induction fuel generalizing s with
  | zero => exact drop
  | succ k ih =>
    simp only [State.deliverReady]
    split
    · exact drop
    · split
      · rename_i n t _ _ _ l _ hl
        obtain ⟨ds, e⟩ := State.sendMail_dies (s.setLaunch n { l with ready := l.ready.erase t.handle }) die die n 1 .unit t.packet
        have sent := State.onlyDelivers_trans (s.onlyDelivers_setReady n l _ hl) (e ▸ State.onlyDelivers_dies _ ds)
        refine State.onlyDelivers_trans sent (ih _ ?_)
        obtain ⟨es, f⟩ := State.dropPlace_dies (State.sendMail _ die die n 1 .unit t.packet) die .unit
        exact f ▸ State.onlyDelivers_dies _ es
      · obtain ⟨ds, e⟩ := s.askPlace_dies die .unit
        exact e ▸ s.onlyDelivers_dies ds

theorem State.deliverOn_onlyDelivers (s : State) (die : Nat) : s.onlyDelivers (s.deliverOn die) := s.deliverReady_onlyDelivers die _

/-- What delivering the ready tasks of every die can do. -/
theorem State.deliverAll_onlyDelivers (s : State) : s.onlyDelivers s.deliverAll := by
  unfold State.deliverAll
  generalize List.range 8 = l
  induction l generalizing s with
  | nil => exact s.onlyDelivers_dies s.dies
  | cons d ds ih => exact State.onlyDelivers_trans (s.deliverOn_onlyDelivers d) (ih _)

end Sys2Proof.Machine
end

