-- ==== Sys2Proof/Laws/PerInstr.lean ====
section
/-! SUPPORT. One lemma per instruction: the opcode maps of R103, R111 and R112 name it at the opcode of its form; a row
of the table that is another agent's step has no words. -/
namespace Sys2Proof.Laws.Coding
open Sys2Proof Sys2Proof.Machine

/-- The opcode fits its field, and the map of the form names the instruction there, with the same fields. -/
def Statement (i : Instr) : Prop :=
  match i.form with
  | .lane opc w => opc < 128 ∧ (AMap.find? laneTable opc).map (· w) = some i
  | .uni opc w => opc < 128 ∧ (AMap.find? uniTable opc).map (· w) = some i
  | .br opc w => opc < 128 ∧ AMap.find? uniTable opc = none ∧ (AMap.find? brTable opc).map (· w) = some i
  | .brk opc w => opc < 128 ∧ AMap.find? uniTable opc = none ∧ AMap.find? brTable opc = none ∧
      (AMap.find? brkTable opc).map (· w) = some i
  | .csr opc w => opc < 128 ∧ AMap.find? uniTable opc = none ∧ AMap.find? brTable opc = none ∧ AMap.find? brkTable opc = none ∧
      (AMap.find? csrTable opc).map (· w) = some i
  | .rep w => i = .rep w
  | .step => encode i = []

theorem ill (w : LaneW) : Statement (.ill w) := ⟨by decide, rfl⟩
theorem iadd (w : LaneW) : Statement (.iadd w) := ⟨by decide, rfl⟩
theorem isub (w : LaneW) : Statement (.isub w) := ⟨by decide, rfl⟩
theorem imul (w : LaneW) : Statement (.imul w) := ⟨by decide, rfl⟩
theorem imulh (w : LaneW) : Statement (.imulh w) := ⟨by decide, rfl⟩
theorem imad (w : LaneW) : Statement (.imad w) := ⟨by decide, rfl⟩
theorem imin (w : LaneW) : Statement (.imin w) := ⟨by decide, rfl⟩
theorem imax (w : LaneW) : Statement (.imax w) := ⟨by decide, rfl⟩
theorem iabs (w : LaneW) : Statement (.iabs w) := ⟨by decide, rfl⟩
theorem ineg (w : LaneW) : Statement (.ineg w) := ⟨by decide, rfl⟩
theorem and (w : LaneW) : Statement (.and w) := ⟨by decide, rfl⟩
theorem or (w : LaneW) : Statement (.or w) := ⟨by decide, rfl⟩
theorem xor (w : LaneW) : Statement (.xor w) := ⟨by decide, rfl⟩
theorem andn (w : LaneW) : Statement (.andn w) := ⟨by decide, rfl⟩
theorem shl (w : LaneW) : Statement (.shl w) := ⟨by decide, rfl⟩
theorem shr (w : LaneW) : Statement (.shr w) := ⟨by decide, rfl⟩
theorem sar (w : LaneW) : Statement (.sar w) := ⟨by decide, rfl⟩
theorem rol (w : LaneW) : Statement (.rol w) := ⟨by decide, rfl⟩
theorem clz (w : LaneW) : Statement (.clz w) := ⟨by decide, rfl⟩
theorem popc (w : LaneW) : Statement (.popc w) := ⟨by decide, rfl⟩
theorem brev (w : LaneW) : Statement (.brev w) := ⟨by decide, rfl⟩
theorem bfx (w : LaneW) : Statement (.bfx w) := ⟨by decide, rfl⟩
theorem bfi (w : LaneW) : Statement (.bfi w) := ⟨by decide, rfl⟩
theorem sel (w : LaneW) : Statement (.sel w) := ⟨by decide, rfl⟩
theorem isetp (w : LaneW) : Statement (.isetp w) := ⟨by decide, rfl⟩
theorem mov (w : LaneW) : Statement (.mov w) := ⟨by decide, rfl⟩
theorem movlo (w : LaneW) : Statement (.movlo w) := ⟨by decide, rfl⟩
theorem movhi (w : LaneW) : Statement (.movhi w) := ⟨by decide, rfl⟩
theorem idot4 (w : LaneW) : Statement (.idot4 w) := ⟨by decide, rfl⟩
theorem isat (w : LaneW) : Statement (.isat w) := ⟨by decide, rfl⟩
theorem fadd (w : LaneW) : Statement (.fadd w) := ⟨by decide, rfl⟩
theorem fsub (w : LaneW) : Statement (.fsub w) := ⟨by decide, rfl⟩
theorem fmul (w : LaneW) : Statement (.fmul w) := ⟨by decide, rfl⟩
theorem ffma (w : LaneW) : Statement (.ffma w) := ⟨by decide, rfl⟩
theorem fmin (w : LaneW) : Statement (.fmin w) := ⟨by decide, rfl⟩
theorem fmax (w : LaneW) : Statement (.fmax w) := ⟨by decide, rfl⟩
theorem fsetp (w : LaneW) : Statement (.fsetp w) := ⟨by decide, rfl⟩
theorem fclass (w : LaneW) : Statement (.fclass w) := ⟨by decide, rfl⟩
theorem frcp (w : LaneW) : Statement (.frcp w) := ⟨by decide, rfl⟩
theorem frsq (w : LaneW) : Statement (.frsq w) := ⟨by decide, rfl⟩
theorem fsqrt (w : LaneW) : Statement (.fsqrt w) := ⟨by decide, rfl⟩
theorem fexp2 (w : LaneW) : Statement (.fexp2 w) := ⟨by decide, rfl⟩
theorem flog2 (w : LaneW) : Statement (.flog2 w) := ⟨by decide, rfl⟩
theorem ftab (w : LaneW) : Statement (.ftab w) := ⟨by decide, rfl⟩
theorem fcvt (w : LaneW) : Statement (.fcvt w) := ⟨by decide, rfl⟩
theorem i2f (w : LaneW) : Statement (.i2f w) := ⟨by decide, rfl⟩
theorem f2i (w : LaneW) : Statement (.f2i w) := ⟨by decide, rfl⟩
theorem frnd (w : LaneW) : Statement (.frnd w) := ⟨by decide, rfl⟩
theorem fdot2 (w : LaneW) : Statement (.fdot2 w) := ⟨by decide, rfl⟩
theorem fldexp (w : LaneW) : Statement (.fldexp w) := ⟨by decide, rfl⟩
theorem lperm (w : LaneW) : Statement (.lperm w) := ⟨by decide, rfl⟩
theorem benes (w : LaneW) : Statement (.benes w) := ⟨by decide, rfl⟩
theorem vote (w : LaneW) : Statement (.vote w) := ⟨by decide, rfl⟩
theorem lscan (w : LaneW) : Statement (.lscan w) := ⟨by decide, rfl⟩
theorem lred (w : LaneW) : Statement (.lred w) := ⟨by decide, rfl⟩
theorem subx (w : LaneW) : Statement (.subx w) := ⟨by decide, rfl⟩
theorem pack (w : LaneW) : Statement (.pack w) := ⟨by decide, rfl⟩
theorem unpack (w : LaneW) : Statement (.unpack w) := ⟨by decide, rfl⟩
theorem elect (w : LaneW) : Statement (.elect w) := ⟨by decide, rfl⟩
theorem lsr (w : LaneW) : Statement (.lsr w) := ⟨by decide, rfl⟩
theorem ld (w : LaneW) : Statement (.ld w) := ⟨by decide, rfl⟩
theorem st (w : LaneW) : Statement (.st w) := ⟨by decide, rfl⟩
theorem lds (w : LaneW) : Statement (.lds w) := ⟨by decide, rfl⟩
theorem sts (w : LaneW) : Statement (.sts w) := ⟨by decide, rfl⟩
theorem ldc (w : LaneW) : Statement (.ldc w) := ⟨by decide, rfl⟩
theorem stc (w : LaneW) : Statement (.stc w) := ⟨by decide, rfl⟩
theorem atom (w : LaneW) : Statement (.atom w) := ⟨by decide, rfl⟩
theorem cas (w : LaneW) : Statement (.cas w) := ⟨by decide, rfl⟩
theorem faddo (w : LaneW) : Statement (.faddo w) := ⟨by decide, rfl⟩
theorem fadda (w : LaneW) : Statement (.fadda w) := ⟨by decide, rfl⟩
theorem pfetch (w : LaneW) : Statement (.pfetch w) := ⟨by decide, rfl⟩
theorem tlook (w : LaneW) : Statement (.tlook w) := ⟨by decide, rfl⟩
theorem tins (w : LaneW) : Statement (.tins w) := ⟨by decide, rfl⟩
theorem tinv (w : LaneW) : Statement (.tinv w) := ⟨by decide, rfl⟩
theorem rcnt (w : LaneW) : Statement (.rcnt w) := ⟨by decide, rfl⟩
theorem brd (w : LaneW) : Statement (.brd w) := ⟨by decide, rfl⟩
theorem spawn (w : LaneW) : Statement (.spawn w) := ⟨by decide, rfl⟩
theorem spawnt (w : LaneW) : Statement (.spawnt w) := ⟨by decide, rfl⟩
theorem exitl (w : LaneW) : Statement (.exitl w) := ⟨by decide, rfl⟩
theorem nop (w : UniW) : Statement (.nop w) := ⟨by decide, rfl⟩
theorem uadd (w : UniW) : Statement (.uadd w) := ⟨by decide, rfl⟩
theorem usub (w : UniW) : Statement (.usub w) := ⟨by decide, rfl⟩
theorem umul (w : UniW) : Statement (.umul w) := ⟨by decide, rfl⟩
theorem umulh (w : UniW) : Statement (.umulh w) := ⟨by decide, rfl⟩
theorem umin (w : UniW) : Statement (.umin w) := ⟨by decide, rfl⟩
theorem umax (w : UniW) : Statement (.umax w) := ⟨by decide, rfl⟩
theorem uand (w : UniW) : Statement (.uand w) := ⟨by decide, rfl⟩
theorem uor (w : UniW) : Statement (.uor w) := ⟨by decide, rfl⟩
theorem uxor (w : UniW) : Statement (.uxor w) := ⟨by decide, rfl⟩
theorem ushl (w : UniW) : Statement (.ushl w) := ⟨by decide, rfl⟩
theorem ushr (w : UniW) : Statement (.ushr w) := ⟨by decide, rfl⟩
theorem usar (w : UniW) : Statement (.usar w) := ⟨by decide, rfl⟩
theorem uclz (w : UniW) : Statement (.uclz w) := ⟨by decide, rfl⟩
theorem upopc (w : UniW) : Statement (.upopc w) := ⟨by decide, rfl⟩
theorem ubfx (w : UniW) : Statement (.ubfx w) := ⟨by decide, rfl⟩
theorem ubfi (w : UniW) : Statement (.ubfi w) := ⟨by decide, rfl⟩
theorem umov (w : UniW) : Statement (.umov w) := ⟨by decide, rfl⟩
theorem umovlo (w : UniW) : Statement (.umovlo w) := ⟨by decide, rfl⟩
theorem umovhi (w : UniW) : Statement (.umovhi w) := ⟨by decide, rfl⟩
theorem ucmp (w : UniW) : Statement (.ucmp w) := ⟨by decide, rfl⟩
theorem udiv (w : UniW) : Statement (.udiv w) := ⟨by decide, rfl⟩
theorem urem (w : UniW) : Statement (.urem w) := ⟨by decide, rfl⟩
theorem widf (w : UniW) : Statement (.widf w) := ⟨by decide, rfl⟩
theorem uld (w : UniW) : Statement (.uld w) := ⟨by decide, rfl⟩
theorem ust (w : UniW) : Statement (.ust w) := ⟨by decide, rfl⟩
theorem uatom (w : UniW) : Statement (.uatom w) := ⟨by decide, rfl⟩
theorem bra (w : BrW) : Statement (.bra w) := ⟨by decide, rfl, rfl⟩
theorem brz (w : BrkW) : Statement (.brz w) := ⟨by decide, rfl, rfl, rfl⟩
theorem brnz (w : BrkW) : Statement (.brnz w) := ⟨by decide, rfl, rfl, rfl⟩
theorem call (w : BrkW) : Statement (.call w) := ⟨by decide, rfl, rfl, rfl⟩
theorem callr (w : UniW) : Statement (.callr w) := ⟨by decide, rfl⟩
theorem ret (w : UniW) : Statement (.ret w) := ⟨by decide, rfl⟩
theorem enter (w : UniW) : Statement (.enter w) := ⟨by decide, rfl⟩
theorem loop (w : BrkW) : Statement (.loop w) := ⟨by decide, rfl, rfl, rfl⟩
theorem rep (w : RepW) : Statement (.rep w) := rfl
theorem exit (w : UniW) : Statement (.exit w) := ⟨by decide, rfl⟩
theorem brk (w : UniW) : Statement (.brk w) := ⟨by decide, rfl⟩
theorem trap (w : UniW) : Statement (.trap w) := ⟨by decide, rfl⟩
theorem tret (w : UniW) : Statement (.tret w) := ⟨by decide, rfl⟩
theorem jmpr (w : UniW) : Statement (.jmpr w) := ⟨by decide, rfl⟩
theorem bar (w : UniW) : Statement (.bar w) := ⟨by decide, rfl⟩
theorem chim (w : UniW) : Statement (.chim w) := ⟨by decide, rfl⟩
theorem fence (w : UniW) : Statement (.fence w) := ⟨by decide, rfl⟩
theorem closeb (w : UniW) : Statement (.closeb w) := ⟨by decide, rfl⟩
theorem waitb (w : UniW) : Statement (.waitb w) := ⟨by decide, rfl⟩
theorem joinw (w : UniW) : Statement (.joinw w) := ⟨by decide, rfl⟩
theorem joina (w : UniW) : Statement (.joina w) := ⟨by decide, rfl⟩
theorem welect (w : UniW) : Statement (.welect w) := ⟨by decide, rfl⟩
theorem oflush (w : UniW) : Statement (.oflush w) := ⟨by decide, rfl⟩
theorem ptok (w : UniW) : Statement (.ptok w) := ⟨by decide, rfl⟩
theorem vtok (w : UniW) : Statement (.vtok w) := ⟨by decide, rfl⟩
theorem tcopy (w : UniW) : Statement (.tcopy w) := ⟨by decide, rfl⟩
theorem tcopym (w : UniW) : Statement (.tcopym w) := ⟨by decide, rfl⟩
theorem sgather (w : UniW) : Statement (.sgather w) := ⟨by decide, rfl⟩
theorem sreduce (w : UniW) : Statement (.sreduce w) := ⟨by decide, rfl⟩
theorem scvt (w : UniW) : Statement (.scvt w) := ⟨by decide, rfl⟩
theorem wload (w : UniW) : Statement (.wload w) := ⟨by decide, rfl⟩
theorem mma (w : UniW) : Statement (.mma w) := ⟨by decide, rfl⟩
theorem mmas (w : UniW) : Statement (.mmas w) := ⟨by decide, rfl⟩
theorem accrd (w : UniW) : Statement (.accrd w) := ⟨by decide, rfl⟩
theorem accwr (w : UniW) : Statement (.accwr w) := ⟨by decide, rfl⟩
theorem accz (w : UniW) : Statement (.accz w) := ⟨by decide, rfl⟩
theorem accwait (w : UniW) : Statement (.accwait w) := ⟨by decide, rfl⟩
theorem sortld (w : UniW) : Statement (.sortld w) := ⟨by decide, rfl⟩
theorem sort (w : UniW) : Statement (.sort w) := ⟨by decide, rfl⟩
theorem sortst (w : UniW) : Statement (.sortst w) := ⟨by decide, rfl⟩
theorem sortwait (w : UniW) : Statement (.sortwait w) := ⟨by decide, rfl⟩
theorem sortstop (w : UniW) : Statement (.sortstop w) := ⟨by decide, rfl⟩
theorem tabld (w : UniW) : Statement (.tabld w) := ⟨by decide, rfl⟩
theorem tabsw (w : UniW) : Statement (.tabsw w) := ⟨by decide, rfl⟩
theorem benset (w : UniW) : Statement (.benset w) := ⟨by decide, rfl⟩
theorem rsnap (w : UniW) : Statement (.rsnap w) := ⟨by decide, rfl⟩
theorem tsubmit (w : UniW) : Statement (.tsubmit w) := ⟨by decide, rfl⟩
theorem tdone (w : UniW) : Statement (.tdone w) := ⟨by decide, rfl⟩
theorem mbrecv (w : UniW) : Statement (.mbrecv w) := ⟨by decide, rfl⟩
theorem mbfwd (w : UniW) : Statement (.mbfwd w) := ⟨by decide, rfl⟩
theorem blkgo (w : UniW) : Statement (.blkgo w) := ⟨by decide, rfl⟩
theorem csrr (w : CsrW) : Statement (.csrr w) := ⟨by decide, rfl, rfl, rfl, rfl⟩
theorem csrw (w : CsrW) : Statement (.csrw w) := ⟨by decide, rfl, rfl, rfl, rfl⟩
theorem csrs (w : CsrW) : Statement (.csrs w) := ⟨by decide, rfl, rfl, rfl, rfl⟩
theorem csrc (w : CsrW) : Statement (.csrc w) := ⟨by decide, rfl, rfl, rfl, rfl⟩
theorem xlinv (w : UniW) : Statement (.xlinv w) := ⟨by decide, rfl⟩
theorem loadComplete (core slot : Nat) : Statement (.loadComplete core slot) := rfl
theorem vtokTokenArrival (core channel : Nat) : Statement (.vtokTokenArrival core channel) := rfl
theorem joinwWake (core slot : Nat) : Statement (.joinwWake core slot) := rfl
theorem joinwPoll (core slot : Nat) : Statement (.joinwPoll core slot) := rfl
theorem childExitDecrement (core slot : Nat) : Statement (.childExitDecrement core slot) := rfl
theorem warpRelease (core slot : Nat) : Statement (.warpRelease core slot) := rfl
theorem kindlingEntryArrival (core : Nat) : Statement (.kindlingEntryArrival core) := rfl
theorem childWarpForm (core : Nat) : Statement (.childWarpForm core) := rfl
theorem warpReturn (core : Nat) : Statement (.warpReturn core) := rfl
theorem spawnDeadlock (core : Nat) : Statement (.spawnDeadlock core) := rfl
theorem copyExecute (core pos : Nat) : Statement (.copyExecute core pos) := rfl
theorem tabldExecute (core pos : Nat) : Statement (.tabldExecute core pos) := rfl
theorem sgatherExecute (core pos : Nat) : Statement (.sgatherExecute core pos) := rfl
theorem sreduceExecute (core pos : Nat) : Statement (.sreduceExecute core pos) := rfl
theorem scvtExecute (core pos : Nat) : Statement (.scvtExecute core pos) := rfl
theorem wloadExecute (core : Nat) : Statement (.wloadExecute core) := rfl
theorem mmaExecute (core : Nat) : Statement (.mmaExecute core) := rfl
theorem mmasExecute (core : Nat) : Statement (.mmasExecute core) := rfl
theorem accrdExecute (core : Nat) : Statement (.accrdExecute core) := rfl
theorem accwrExecute (core : Nat) : Statement (.accwrExecute core) := rfl
theorem acczExecute (core : Nat) : Statement (.acczExecute core) := rfl
theorem sortldExecute (core : Nat) : Statement (.sortldExecute core) := rfl
theorem sortStart (core : Nat) : Statement (.sortStart core) := rfl
theorem sortStep (core : Nat) : Statement (.sortStep core) := rfl
theorem sortstExecute (core : Nat) : Statement (.sortstExecute core) := rfl
theorem orderedAddEpochApply (launch : Nat) : Statement (.orderedAddEpochApply launch) := rfl
theorem mailboxPacketArrival (die : Nat) : Statement (.mailboxPacketArrival die) := rfl
theorem walkRecord (die launch : Nat) : Statement (.walkRecord die launch) := rfl
theorem walkerRetryPass (die launch : Nat) : Statement (.walkerRetryPass die launch) := rfl
theorem tileDone (die launch : Nat) : Statement (.tileDone die launch) := rfl
theorem hwerrTileDiscard (launch : Nat) : Statement (.hwerrTileDiscard launch) := rfl
theorem walkfault (launch : Nat) : Statement (.walkfault launch) := rfl
theorem doorbellWrite (queue : Nat) (offset : BitVec 32) : Statement (.doorbellWrite queue offset) := rfl
theorem eventReadOffsetWrite (queue : Nat) (offset : BitVec 32) : Statement (.eventReadOffsetWrite queue offset) := rfl
theorem restart (queue : Nat) : Statement (.restart queue) := rfl
theorem restartApply (queue : Nat) : Statement (.restartApply queue) := rfl
theorem abort (queue : Nat) : Statement (.abort queue) := rfl
theorem doorbellRegisterWrite (queue offset : Nat) (value : Word) : Statement (.doorbellRegisterWrite queue offset value) := rfl
theorem nopPacket (queue : Nat) : Statement (.nopPacket queue) := rfl
theorem launch (queue : Nat) : Statement (.launch queue) := rfl
theorem launchCommit (launch : Nat) : Statement (.launchCommit launch) := rfl
theorem gangStart (launch die : Nat) : Statement (.gangStart launch die) := rfl
theorem launchComplete (launch : Nat) : Statement (.launchComplete launch) := rfl
theorem reserveTimeout (launch die : Nat) : Statement (.reserveTimeout launch die) := rfl
theorem inval (queue : Nat) : Statement (.inval queue) := rfl
theorem invalidationComplete (c : Confirmation) : Statement (.invalidationComplete c) := rfl
theorem signal (queue : Nat) : Statement (.signal queue) := rfl
theorem waitv (queue : Nat) : Statement (.waitv queue) := rfl
theorem queueCreate (queue : Nat) : Statement (.queueCreate queue) := rfl
theorem queueDestroy (queue : Nat) : Statement (.queueDestroy queue) := rfl
theorem genadv (queue : Nat) : Statement (.genadv queue) := rfl
theorem xfer (queue : Nat) : Statement (.xfer queue) := rfl
theorem eslynInboundWrite (asid : Nat) (va : Word) (data : List Byte) : Statement (.eslynInboundWrite asid va data) := rfl
theorem aspaceCreate (queue : Nat) : Statement (.aspaceCreate queue) := rfl
theorem aspaceSetRoot (queue : Nat) : Statement (.aspaceSetRoot queue) := rfl
theorem aspaceDestroy (queue : Nat) : Statement (.aspaceDestroy queue) := rfl
theorem window (queue : Nat) : Statement (.window queue) := rfl
theorem firmwareStage (queue : Nat) : Statement (.firmwareStage queue) := rfl
theorem firmwareActivate (queue : Nat) : Statement (.firmwareActivate queue) := rfl
theorem queueAging (queue : Nat) : Statement (.queueAging queue) := rfl
theorem preemptSave (launch : Nat) : Statement (.preemptSave launch) := rfl
theorem launchResume (launch : Nat) : Statement (.launchResume launch) := rfl
theorem launchTrapStop (launch : Nat) : Statement (.launchTrapStop launch) := rfl
theorem flitReplay (direction : Nat) (flit : FailedFlit) : Statement (.flitReplay direction flit) := rfl
theorem flueLaneCalibration (direction : Nat) (failing : List Nat) : Statement (.flueLaneCalibration direction failing) := rfl
theorem flueLinkLoss (direction : Nat) : Statement (.flueLinkLoss direction) := rfl
theorem hbmRefresh (die group channel : Nat) : Statement (.hbmRefresh die group channel) := rfl
theorem patrolScrub (pa : Nat) (bad : Bool) : Statement (.patrolScrub pa bad) := rfl
theorem memorySideRequest (asid gen pa : Nat) (write : Option (List Byte)) : Statement (.memorySideRequest asid gen pa write) := rfl
theorem uncorrectableError (place : StoragePlace) : Statement (.uncorrectableError place) := rfl
theorem hostWindowAccess (port offset n : Nat) (op : HostOp) : Statement (.hostWindowAccess port offset n op) := rfl
theorem spdmRequest (port : Nat) (request : List Byte) : Statement (.spdmRequest port request) := rfl
theorem coreFailure (core : Nat) : Statement (.coreFailure core) := rfl
theorem dieIsolation (die : Nat) : Statement (.dieIsolation die) := rfl
theorem eslynPortLoss (port : Nat) : Statement (.eslynPortLoss port) := rfl
theorem dieReset (die : Nat) : Statement (.dieReset die) := rfl
theorem xferComplete (queue : Nat) : Statement (.xferComplete queue) := rfl
theorem firmwareStageComplete (queue : Nat) : Statement (.firmwareStageComplete queue) := rfl
theorem waitvSatisfied (queue : Nat) : Statement (.waitvSatisfied queue) := rfl
theorem flueFrame : Statement .flueFrame := rfl
theorem chimneyTick : Statement .chimneyTick := rfl
theorem stokerRoleExchange : Statement .stokerRoleExchange := rfl
theorem schedulingRotation : Statement .schedulingRotation := rfl
theorem telemetrySampling : Statement .telemetrySampling := rfl
theorem powerStepDown : Statement .powerStepDown := rfl
theorem powerStepUp : Statement .powerStepUp := rfl
theorem moduleReset : Statement .moduleReset := rfl
theorem meshSplit : Statement .meshSplit := rfl
theorem stokerFailover : Statement .stokerFailover := rfl
theorem flashWearManagement : Statement .flashWearManagement := rfl

end Sys2Proof.Laws.Coding
end

