-- ==== Sys2Proof/Laws/Turn.lean ====
section
/-! SUPPORT. What the passing of time and the turn of a warp leave as they were: one lemma per field. -/
namespace Sys2Proof.Machine

/-! ### State.turnTo -/
@[simp] theorem State.turnTo_schedule (s : State) (c k : Nat) : (s.turnTo c k).schedule = s.schedule := rfl
@[simp] theorem State.turnTo_freeCtr (s : State) (c k : Nat) : (s.turnTo c k).freeCtr = s.freeCtr := rfl
@[simp] theorem State.turnTo_steps (s : State) (c k : Nat) : (s.turnTo c k).steps = s.steps := rfl
@[simp] theorem State.turnTo_clock (s : State) (c k : Nat) : (s.turnTo c k).clock = s.clock := rfl
@[simp] theorem State.turnTo_time (s : State) (c k : Nat) : (s.turnTo c k).time = s.time := rfl
@[simp] theorem State.turnTo_mem (s : State) (c k : Nat) : (s.turnTo c k).mem = s.mem := rfl
@[simp] theorem State.turnTo_memPoison (s : State) (c k : Nat) : (s.turnTo c k).memPoison = s.memPoison := rfl
@[simp] theorem State.turnTo_dirtyPoison (s : State) (c k : Nat) : (s.turnTo c k).dirtyPoison = s.dirtyPoison := rfl
@[simp] theorem State.turnTo_busWrites (s : State) (c k : Nat) : (s.turnTo c k).busWrites = s.busWrites := rfl
@[simp] theorem State.turnTo_cores (s : State) (c k : Nat) : (s.turnTo c k).cores = s.cores := rfl
@[simp] theorem State.turnTo_dies (s : State) (c k : Nat) : (s.turnTo c k).dies = s.dies := rfl
@[simp] theorem State.turnTo_travel (s : State) (c k : Nat) : (s.turnTo c k).travel = s.travel := rfl
@[simp] theorem State.turnTo_launches (s : State) (c k : Nat) : (s.turnTo c k).launches = s.launches := rfl
@[simp] theorem State.turnTo_nextLaunch (s : State) (c k : Nat) : (s.turnTo c k).nextLaunch = s.nextLaunch := rfl
@[simp] theorem State.turnTo_nextOrder (s : State) (c k : Nat) : (s.turnTo c k).nextOrder = s.nextOrder := rfl
@[simp] theorem State.turnTo_nextStamp (s : State) (c k : Nat) : (s.turnTo c k).nextStamp = s.nextStamp := rfl
@[simp] theorem State.turnTo_queues (s : State) (c k : Nat) : (s.turnTo c k).queues = s.queues := rfl
@[simp] theorem State.turnTo_rrobin (s : State) (c k : Nat) : (s.turnTo c k).rrobin = s.rrobin := rfl
@[simp] theorem State.turnTo_aspaces (s : State) (c k : Nat) : (s.turnTo c k).aspaces = s.aspaces := rfl
@[simp] theorem State.turnTo_genDue (s : State) (c k : Nat) : (s.turnTo c k).genDue = s.genDue := rfl
@[simp] theorem State.turnTo_stokerB (s : State) (c k : Nat) : (s.turnTo c k).stokerB = s.stokerB := rfl
@[simp] theorem State.turnTo_standbyLive (s : State) (c k : Nat) : (s.turnTo c k).standbyLive = s.standbyLive := rfl
@[simp] theorem State.turnTo_standbyReady (s : State) (c k : Nat) : (s.turnTo c k).standbyReady = s.standbyReady := rfl
@[simp] theorem State.turnTo_verActive (s : State) (c k : Nat) : (s.turnTo c k).verActive = s.verActive := rfl
@[simp] theorem State.turnTo_verStandby (s : State) (c k : Nat) : (s.turnTo c k).verStandby = s.verStandby := rfl
@[simp] theorem State.turnTo_window0 (s : State) (c k : Nat) : (s.turnTo c k).window0 = s.window0 := rfl
@[simp] theorem State.turnTo_window1 (s : State) (c k : Nat) : (s.turnTo c k).window1 = s.window1 := rfl
@[simp] theorem State.turnTo_flue (s : State) (c k : Nat) : (s.turnTo c k).flue = s.flue := rfl
@[simp] theorem State.turnTo_routes (s : State) (c k : Nat) : (s.turnTo c k).routes = s.routes := rfl
@[simp] theorem State.turnTo_streams (s : State) (c k : Nat) : (s.turnTo c k).streams = s.streams := rfl
@[simp] theorem State.turnTo_flash (s : State) (c k : Nat) : (s.turnTo c k).flash = s.flash := rfl
@[simp] theorem State.turnTo_journal (s : State) (c k : Nat) : (s.turnTo c k).journal = s.journal := rfl
@[simp] theorem State.turnTo_activateDue (s : State) (c k : Nat) : (s.turnTo c k).activateDue = s.activateDue := rfl
@[simp] theorem State.turnTo_recordsDue (s : State) (c k : Nat) : (s.turnTo c k).recordsDue = s.recordsDue := rfl
@[simp] theorem State.turnTo_records (s : State) (c k : Nat) : (s.turnTo c k).records = s.records := rfl
@[simp] theorem State.turnTo_measured (s : State) (c k : Nat) : (s.turnTo c k).measured = s.measured := rfl
@[simp] theorem State.turnTo_eslynLost (s : State) (c k : Nat) : (s.turnTo c k).eslynLost = s.eslynLost := rfl
@[simp] theorem State.turnTo_domain (s : State) (c k : Nat) : (s.turnTo c k).domain = s.domain := rfl
@[simp] theorem State.turnTo_eslynOut (s : State) (c k : Nat) : (s.turnTo c k).eslynOut = s.eslynOut := rfl
@[simp] theorem State.turnTo_mhz (s : State) (c k : Nat) : (s.turnTo c k).mhz = s.mhz := rfl
@[simp] theorem State.turnTo_mhzNext (s : State) (c k : Nat) : (s.turnTo c k).mhzNext = s.mhzNext := rfl
@[simp] theorem State.turnTo_power (s : State) (c k : Nat) : (s.turnTo c k).power = s.power := rfl
@[simp] theorem State.turnTo_lowSince (s : State) (c k : Nat) : (s.turnTo c k).lowSince = s.lowSince := rfl
@[simp] theorem State.turnTo_stepAt (s : State) (c k : Nat) : (s.turnTo c k).stepAt = s.stepAt := rfl
@[simp] theorem State.turnTo_upAt (s : State) (c k : Nat) : (s.turnTo c k).upAt = s.upAt := rfl
@[simp] theorem State.turnTo_msix (s : State) (c k : Nat) : (s.turnTo c k).msix = s.msix := rfl
@[simp] theorem State.turnTo_spdmOut (s : State) (c k : Nat) : (s.turnTo c k).spdmOut = s.spdmOut := rfl
@[simp] theorem State.turnTo_hostReads (s : State) (c k : Nat) : (s.turnTo c k).hostReads = s.hostReads := rfl
@[simp] theorem State.turnTo_ticks (s : State) (c k : Nat) : (s.turnTo c k).ticks = s.ticks := rfl
@[simp] theorem State.turnTo_frames (s : State) (c k : Nat) : (s.turnTo c k).frames = s.frames := rfl
@[simp] theorem State.turnTo_rotatedAt (s : State) (c k : Nat) : (s.turnTo c k).rotatedAt = s.rotatedAt := rfl

/-! ### State.waitAll -/
@[simp] theorem State.waitAll_schedule (s : State) (a n : Nat) : (s.waitAll a n).schedule = s.schedule := rfl
@[simp] theorem State.waitAll_curCore (s : State) (a n : Nat) : (s.waitAll a n).curCore = s.curCore := rfl
@[simp] theorem State.waitAll_curSlot (s : State) (a n : Nat) : (s.waitAll a n).curSlot = s.curSlot := rfl
@[simp] theorem State.waitAll_stalled (s : State) (a n : Nat) : (s.waitAll a n).stalled = s.stalled := rfl
@[simp] theorem State.waitAll_freeCtr (s : State) (a n : Nat) : (s.waitAll a n).freeCtr = s.freeCtr := rfl
@[simp] theorem State.waitAll_steps (s : State) (a n : Nat) : (s.waitAll a n).steps = s.steps := rfl
@[simp] theorem State.waitAll_clock (s : State) (a n : Nat) : (s.waitAll a n).clock = s.clock := rfl
@[simp] theorem State.waitAll_time (s : State) (a n : Nat) : (s.waitAll a n).time = s.time := rfl
@[simp] theorem State.waitAll_mem (s : State) (a n : Nat) : (s.waitAll a n).mem = s.mem := rfl
@[simp] theorem State.waitAll_memPoison (s : State) (a n : Nat) : (s.waitAll a n).memPoison = s.memPoison := rfl
@[simp] theorem State.waitAll_dirtyPoison (s : State) (a n : Nat) : (s.waitAll a n).dirtyPoison = s.dirtyPoison := rfl
@[simp] theorem State.waitAll_busWrites (s : State) (a n : Nat) : (s.waitAll a n).busWrites = s.busWrites := rfl
@[simp] theorem State.waitAll_dies (s : State) (a n : Nat) : (s.waitAll a n).dies = s.dies := rfl
@[simp] theorem State.waitAll_travel (s : State) (a n : Nat) : (s.waitAll a n).travel = s.travel := rfl
@[simp] theorem State.waitAll_launches (s : State) (a n : Nat) : (s.waitAll a n).launches = s.launches := rfl
@[simp] theorem State.waitAll_nextLaunch (s : State) (a n : Nat) : (s.waitAll a n).nextLaunch = s.nextLaunch := rfl
@[simp] theorem State.waitAll_nextOrder (s : State) (a n : Nat) : (s.waitAll a n).nextOrder = s.nextOrder := rfl
@[simp] theorem State.waitAll_nextStamp (s : State) (a n : Nat) : (s.waitAll a n).nextStamp = s.nextStamp := rfl
@[simp] theorem State.waitAll_queues (s : State) (a n : Nat) : (s.waitAll a n).queues = s.queues := rfl
@[simp] theorem State.waitAll_rrobin (s : State) (a n : Nat) : (s.waitAll a n).rrobin = s.rrobin := rfl
@[simp] theorem State.waitAll_aspaces (s : State) (a n : Nat) : (s.waitAll a n).aspaces = s.aspaces := rfl
@[simp] theorem State.waitAll_genDue (s : State) (a n : Nat) : (s.waitAll a n).genDue = s.genDue := rfl
@[simp] theorem State.waitAll_stokerB (s : State) (a n : Nat) : (s.waitAll a n).stokerB = s.stokerB := rfl
@[simp] theorem State.waitAll_standbyLive (s : State) (a n : Nat) : (s.waitAll a n).standbyLive = s.standbyLive := rfl
@[simp] theorem State.waitAll_standbyReady (s : State) (a n : Nat) : (s.waitAll a n).standbyReady = s.standbyReady := rfl
@[simp] theorem State.waitAll_verActive (s : State) (a n : Nat) : (s.waitAll a n).verActive = s.verActive := rfl
@[simp] theorem State.waitAll_verStandby (s : State) (a n : Nat) : (s.waitAll a n).verStandby = s.verStandby := rfl
@[simp] theorem State.waitAll_window0 (s : State) (a n : Nat) : (s.waitAll a n).window0 = s.window0 := rfl
@[simp] theorem State.waitAll_window1 (s : State) (a n : Nat) : (s.waitAll a n).window1 = s.window1 := rfl
@[simp] theorem State.waitAll_flue (s : State) (a n : Nat) : (s.waitAll a n).flue = s.flue := rfl
@[simp] theorem State.waitAll_routes (s : State) (a n : Nat) : (s.waitAll a n).routes = s.routes := rfl
@[simp] theorem State.waitAll_streams (s : State) (a n : Nat) : (s.waitAll a n).streams = s.streams := rfl
@[simp] theorem State.waitAll_flash (s : State) (a n : Nat) : (s.waitAll a n).flash = s.flash := rfl
@[simp] theorem State.waitAll_journal (s : State) (a n : Nat) : (s.waitAll a n).journal = s.journal := rfl
@[simp] theorem State.waitAll_activateDue (s : State) (a n : Nat) : (s.waitAll a n).activateDue = s.activateDue := rfl
@[simp] theorem State.waitAll_recordsDue (s : State) (a n : Nat) : (s.waitAll a n).recordsDue = s.recordsDue := rfl
@[simp] theorem State.waitAll_records (s : State) (a n : Nat) : (s.waitAll a n).records = s.records := rfl
@[simp] theorem State.waitAll_measured (s : State) (a n : Nat) : (s.waitAll a n).measured = s.measured := rfl
@[simp] theorem State.waitAll_eslynLost (s : State) (a n : Nat) : (s.waitAll a n).eslynLost = s.eslynLost := rfl
@[simp] theorem State.waitAll_domain (s : State) (a n : Nat) : (s.waitAll a n).domain = s.domain := rfl
@[simp] theorem State.waitAll_eslynOut (s : State) (a n : Nat) : (s.waitAll a n).eslynOut = s.eslynOut := rfl
@[simp] theorem State.waitAll_mhz (s : State) (a n : Nat) : (s.waitAll a n).mhz = s.mhz := rfl
@[simp] theorem State.waitAll_mhzNext (s : State) (a n : Nat) : (s.waitAll a n).mhzNext = s.mhzNext := rfl
@[simp] theorem State.waitAll_power (s : State) (a n : Nat) : (s.waitAll a n).power = s.power := rfl
@[simp] theorem State.waitAll_lowSince (s : State) (a n : Nat) : (s.waitAll a n).lowSince = s.lowSince := rfl
@[simp] theorem State.waitAll_stepAt (s : State) (a n : Nat) : (s.waitAll a n).stepAt = s.stepAt := rfl
@[simp] theorem State.waitAll_upAt (s : State) (a n : Nat) : (s.waitAll a n).upAt = s.upAt := rfl
@[simp] theorem State.waitAll_msix (s : State) (a n : Nat) : (s.waitAll a n).msix = s.msix := rfl
@[simp] theorem State.waitAll_spdmOut (s : State) (a n : Nat) : (s.waitAll a n).spdmOut = s.spdmOut := rfl
@[simp] theorem State.waitAll_hostReads (s : State) (a n : Nat) : (s.waitAll a n).hostReads = s.hostReads := rfl
@[simp] theorem State.waitAll_ticks (s : State) (a n : Nat) : (s.waitAll a n).ticks = s.ticks := rfl
@[simp] theorem State.waitAll_frames (s : State) (a n : Nat) : (s.waitAll a n).frames = s.frames := rfl
@[simp] theorem State.waitAll_rotatedAt (s : State) (a n : Nat) : (s.waitAll a n).rotatedAt = s.rotatedAt := rfl

/-! ### State.pass -/
@[simp] theorem State.pass_schedule (s : State) : (s.pass).schedule = s.schedule := rfl
@[simp] theorem State.pass_curCore (s : State) : (s.pass).curCore = s.curCore := rfl
@[simp] theorem State.pass_curSlot (s : State) : (s.pass).curSlot = s.curSlot := rfl
@[simp] theorem State.pass_stalled (s : State) : (s.pass).stalled = s.stalled := rfl
@[simp] theorem State.pass_freeCtr (s : State) : (s.pass).freeCtr = s.freeCtr := rfl
@[simp] theorem State.pass_mem (s : State) : (s.pass).mem = s.mem := rfl
@[simp] theorem State.pass_memPoison (s : State) : (s.pass).memPoison = s.memPoison := rfl
@[simp] theorem State.pass_dirtyPoison (s : State) : (s.pass).dirtyPoison = s.dirtyPoison := rfl
@[simp] theorem State.pass_busWrites (s : State) : (s.pass).busWrites = s.busWrites := rfl
@[simp] theorem State.pass_dies (s : State) : (s.pass).dies = s.dies := rfl
@[simp] theorem State.pass_travel (s : State) : (s.pass).travel = s.travel := rfl
@[simp] theorem State.pass_launches (s : State) : (s.pass).launches = s.launches := rfl
@[simp] theorem State.pass_nextLaunch (s : State) : (s.pass).nextLaunch = s.nextLaunch := rfl
@[simp] theorem State.pass_nextOrder (s : State) : (s.pass).nextOrder = s.nextOrder := rfl
@[simp] theorem State.pass_nextStamp (s : State) : (s.pass).nextStamp = s.nextStamp := rfl
@[simp] theorem State.pass_queues (s : State) : (s.pass).queues = s.queues := rfl
@[simp] theorem State.pass_rrobin (s : State) : (s.pass).rrobin = s.rrobin := rfl
@[simp] theorem State.pass_aspaces (s : State) : (s.pass).aspaces = s.aspaces := rfl
@[simp] theorem State.pass_genDue (s : State) : (s.pass).genDue = s.genDue := rfl
@[simp] theorem State.pass_stokerB (s : State) : (s.pass).stokerB = s.stokerB := rfl
@[simp] theorem State.pass_standbyLive (s : State) : (s.pass).standbyLive = s.standbyLive := rfl
@[simp] theorem State.pass_standbyReady (s : State) : (s.pass).standbyReady = s.standbyReady := rfl
@[simp] theorem State.pass_verActive (s : State) : (s.pass).verActive = s.verActive := rfl
@[simp] theorem State.pass_verStandby (s : State) : (s.pass).verStandby = s.verStandby := rfl
@[simp] theorem State.pass_window0 (s : State) : (s.pass).window0 = s.window0 := rfl
@[simp] theorem State.pass_window1 (s : State) : (s.pass).window1 = s.window1 := rfl
@[simp] theorem State.pass_flue (s : State) : (s.pass).flue = s.flue := rfl
@[simp] theorem State.pass_routes (s : State) : (s.pass).routes = s.routes := rfl
@[simp] theorem State.pass_streams (s : State) : (s.pass).streams = s.streams := rfl
@[simp] theorem State.pass_flash (s : State) : (s.pass).flash = s.flash := rfl
@[simp] theorem State.pass_journal (s : State) : (s.pass).journal = s.journal := rfl
@[simp] theorem State.pass_activateDue (s : State) : (s.pass).activateDue = s.activateDue := rfl
@[simp] theorem State.pass_recordsDue (s : State) : (s.pass).recordsDue = s.recordsDue := rfl
@[simp] theorem State.pass_records (s : State) : (s.pass).records = s.records := rfl
@[simp] theorem State.pass_measured (s : State) : (s.pass).measured = s.measured := rfl
@[simp] theorem State.pass_eslynLost (s : State) : (s.pass).eslynLost = s.eslynLost := rfl
@[simp] theorem State.pass_domain (s : State) : (s.pass).domain = s.domain := rfl
@[simp] theorem State.pass_eslynOut (s : State) : (s.pass).eslynOut = s.eslynOut := rfl
@[simp] theorem State.pass_mhz (s : State) : (s.pass).mhz = s.mhz := rfl
@[simp] theorem State.pass_mhzNext (s : State) : (s.pass).mhzNext = s.mhzNext := rfl
@[simp] theorem State.pass_power (s : State) : (s.pass).power = s.power := rfl
@[simp] theorem State.pass_lowSince (s : State) : (s.pass).lowSince = s.lowSince := rfl
@[simp] theorem State.pass_stepAt (s : State) : (s.pass).stepAt = s.stepAt := rfl
@[simp] theorem State.pass_upAt (s : State) : (s.pass).upAt = s.upAt := rfl
@[simp] theorem State.pass_msix (s : State) : (s.pass).msix = s.msix := rfl
@[simp] theorem State.pass_spdmOut (s : State) : (s.pass).spdmOut = s.spdmOut := rfl
@[simp] theorem State.pass_hostReads (s : State) : (s.pass).hostReads = s.hostReads := rfl
@[simp] theorem State.pass_ticks (s : State) : (s.pass).ticks = s.ticks := rfl
@[simp] theorem State.pass_frames (s : State) : (s.pass).frames = s.frames := rfl
@[simp] theorem State.pass_rotatedAt (s : State) : (s.pass).rotatedAt = s.rotatedAt := rfl

end Sys2Proof.Machine
end

