-- ==== Sys2Proof/Tests/Slice0.lean ====
section
/-! SUPPORT. Tests: ill-formed words refused, one word of the spec's encoding for every instruction, and for every
statement a state that meets the hypotheses of each of its clauses. Words and results are worked out by hand from
the rules named. -/
namespace Sys2Proof.Tests
open Sys2Proof Sys2Proof.Machine

/-! ## Ill-formed words -/

/-- The lane word with fields, guarded by p7. -/
def lane (ty : BitVec 4) (vd va vb : BitVec 5) (tail : Option IWord) : LaneW := ⟨false, 7, ty, vd, va, vb, tail⟩

/-- Every word is ill formed with its reason (R370: the lowest). -/
def Refused (l : List (Instr × Nat)) : Bool :=
  l.all fun x => !WellFormed x.1 && illegalReason x.1 == some x.2

/-- Every word is well formed. -/
def Accepted (l : List Instr) : Bool := l.all WellFormed

/-- R113, R116, R370: the arithmetic class. -/
theorem test_illegal_arith : Refused
    [(.ill (lane 2 0 0 0 none), 1), (.iadd ⟨true, 7, 2, 1, 2, 3, none⟩, 2), (.iadd (lane 12 1 2 3 none), 3),
     (.fadd (lane 2 1 2 3 none), 3), (.iadd (lane 2 1 2 3 (some 0xA001)), 5), (.fadd (lane 12 1 2 3 (some 0x71)), 6),
     (.fadd (lane 12 1 2 3 (some 0xF)), 6), (.fadd (lane 12 1 2 3 (some 0x6D)), 6), (.iadd (lane 2 1 2 3 (some 0x10001)), 4),
     (.iadd (lane 2 1 2 3 (some 0x08000001)), 4), (.iabs (lane 2 1 2 3 none), 4), (.mov (lane 2 1 2 3 none), 4),
     (.imin (lane 2 1 2 3 (some 0x401)), 4), (.isetp (lane 2 8 2 3 none), 4), (.iabs (lane 2 1 2 0 (some 0)), 12)] := by decide

/-- R374: the operand limits of the arithmetic class. -/
theorem test_illegal_arithLimits : Refused
    [(.isat (lane 2 1 2 0 (some 0x80001)), 12), (.sel (lane 15 1 2 3 (some 0xF0001)), 12), (.isetp (lane 2 1 2 3 (some 0x60001)), 12),
     (.fdot2 (lane 12 1 2 3 (some 0x80001)), 3), (.fcvt (lane 12 1 2 0 (some 0x20001)), 12), (.i2f (lane 12 1 2 0 (some 0xA0001)), 12),
     (.f2i (lane 2 1 2 0 (some 0x20001)), 12), (.fcvt (lane 12 1 2 0 (some 0x2A0001)), 12),
     (.iadd (lane 2 1 2 3 (some 0x80)), 4), (.fadd (lane 8 1 2 0 (some 0x01000000)), 4), (.iadd (lane 2 1 2 3 (some 0)), 6)] := by decide

/-- R98, R133, R134, R374: the cross-lane class. -/
theorem test_illegal_crossLane : Refused
    [(.lperm (lane 14 1 2 3 none), 3), (.lred (lane 12 1 2 0 (some 0xA001)), 5), (.lperm (lane 2 1 2 3 (some 0)), 12),
     (.lperm (lane 2 1 2 3 (some 0x41)), 4), (.lred (lane 2 1 2 3 none), 4), (.lred (lane 2 1 2 0 (some 0x2001)), 4),
     (.lred (lane 2 1 2 0 (some 0xD)), 12), (.lred (lane 15 1 2 0 (some 1)), 3), (.lred (lane 12 1 2 0 (some 7)), 3),
     (.pack (lane 12 1 2 3 (some 0x20001)), 3), (.unpack (lane 12 1 2 0 (some 0x20001)), 3), (.subx (lane 2 1 2 3 (some 9)), 4),
     (.subx (lane 2 1 2 0 (some 0x15)), 12), (.vote (lane 15 8 2 0 none), 4), (.vote (lane 15 1 8 0 (some 7)), 4),
     (.lsr (lane 2 1 0 0 (some 15)), 12)] := by decide

/-- R96, R143, R146, R376: the memory class. -/
theorem test_illegal_memory : Refused
    [(.ld (lane 14 1 2 0 none), 3), (.ld (lane 2 1 2 0 (some 0x6001)), 7), (.ld (lane 2 1 2 0 (some 0x3401)), 7),
     (.ld (lane 2 1 2 0 (some 0x401)), 7), (.st (lane 2 0 2 3 (some 0x2041)), 7), (.lds (lane 2 1 2 0 (some 0x11)), 7),
     (.ld (lane 2 1 2 0 (some 3)), 4), (.st (lane 2 1 2 3 none), 4), (.ld (lane 2 1 2 3 none), 4),
     (.ld (lane 2 1 2 0 (some 0x81)), 4), (.ld (lane 2 1 2 0 (some 0x08000001)), 4), (.atom (lane 2 1 2 3 (some 0x2000)), 12),
     (.atom (lane 2 0 2 3 (some 0x70002001)), 12), (.atom (lane 2 1 2 3 (some 0x40002001)), 4), (.atom (lane 15 1 2 3 (some 0x2001)), 3),
     (.cas (lane 12 1 2 3 (some 0x2001)), 3)] := by decide

/-- R98, R152, R378: the lane control class. -/
theorem test_illegal_laneControl : Refused
    [(.brd (lane 2 0 0 0 (some 0)), 3), (.brd (lane 15 0 0 0 none), 4), (.brd (lane 15 0 0 0 (some 0x200)), 4),
     (.brd (lane 15 0 0 0 (some 2)), 4), (.exitl (lane 15 0 0 0 (some 1)), 4), (.exitl (lane 15 1 0 0 none), 4),
     (.spawn (lane 15 1 2 3 none), 4), (.spawnt (lane 15 1 2 3 (some 0x400001)), 4), (.spawn (lane 15 1 2 8 (some 0)), 4),
     (.spawn (lane 15 1 2 5 (some 0)), 12)] := by decide

/-- R104, R112, R157, R158, R165, R173, R188: the uniform words in UREG. -/
theorem test_illegal_uniform : Refused
    [(.nop ⟨0, 0, 0, 1, none⟩, 1), (.nop ⟨0, 0, 0, 0, some 0⟩, 1), (.uclz ⟨1, 2, 0, 0, some 0⟩, 8), (.uadd ⟨1, 2, 3, 0, some 0⟩, 8),
     (.uclz ⟨1, 2, 3, 0, none⟩, 4), (.umov ⟨1, 2, 3, 0, none⟩, 4), (.jmpr ⟨1, 2, 0, 0, none⟩, 4), (.uadd ⟨1, 2, 3, 1, none⟩, 4),
     (.ucmp ⟨1, 2, 3, 6, none⟩, 12), (.widf ⟨1, 0, 0, 6, none⟩, 12), (.callr ⟨33, 2, 0, 0, none⟩, 12), (.enter ⟨6, 0, 0, 0, none⟩, 12),
     (.enter ⟨36, 0, 0, 0, none⟩, 12), (.fence ⟨0, 0, 0, 5, none⟩, 12), (.fence ⟨0, 0, 0, 24, none⟩, 12)] := by decide

/-- R163, R188, R190, R198, R202, R207, R379: operand limits of the uniform words. -/
theorem test_illegal_uniformLimits : Refused
    [(.uatom ⟨1, 2, 3, 14, some 0x2000⟩, 4), (.uatom ⟨0, 2, 3, 14, some 0x2000⟩, 12), (.uatom ⟨0, 2, 3, 0, none⟩, 7),
     (.uld ⟨1, 2, 0, 0, some 0x400⟩, 7), (.uld ⟨1, 2, 0, 0, some 0x40⟩, 7), (.ust ⟨1, 2, 0, 0, some 0x4000⟩, 7),
     (.uld ⟨1, 2, 0, 0, some 0xC⟩, 12), (.uld ⟨1, 2, 0, 0, some 1⟩, 4), (.tcopym ⟨0, 1, 2, 1, none⟩, 12), (.accrd ⟨32, 0, 1, 8, none⟩, 4),
     (.sort ⟨0, 0, 0, 0, some 1⟩, 8), (.sort ⟨0, 0, 1, 0, none⟩, 4), (.mbrecv ⟨0, 0, 0, 0, none⟩, 12), (.mbfwd ⟨57, 0, 1, 0, none⟩, 12),
     (.blkgo ⟨1, 0, 1, 0, none⟩, 12), (.xlinv ⟨0, 1, 2, 3, none⟩, 12)] := by decide

/-- R103, R104, R106, R113, R165, R185: the other formats. -/
theorem test_illegal_formats : Refused
    [(.bra ⟨0, some 0⟩, 8), (.brz ⟨0, 0, some 0⟩, 8), (.loop ⟨1, 5, some 3⟩, 8), (.call ⟨33, 0, none⟩, 12), (.loop ⟨1, 0, none⟩, 12),
     (.loop ⟨0, 1, some 3⟩, 12), (.rep ⟨1, 0, 0, 0, 0, 1, none⟩, 9), (.rep ⟨1, 0, 0, 0, 0, 0, some 0⟩, 9), (.csrr ⟨1, 0x10, 1, none⟩, 4),
     (.csrr ⟨0, 0x10, 0, some 0⟩, 8), (.csrw ⟨1, 0x10, 0, some 0⟩, 8), (.csrr ⟨1, 0x009, 0, none⟩, 10), (.csrw ⟨1, 0x000, 0, none⟩, 10)] := by
  decide

/-- The same words without the fault are well formed, and so is a step. -/
theorem test_wellFormed : Accepted
    [.iadd (lane 2 1 2 3 none), .fadd (lane 12 1 2 3 (some 0x8001)), .isetp (lane 2 7 2 3 (some 0x50001)), .lperm (lane 2 1 2 3 none),
     .pack (lane 10 1 2 3 (some 0xC0001)), .ld (lane 2 1 2 0 (some 0x4441)), .atom (lane 2 0 2 3 (some 0x40002001)),
     .brd (lane 15 0 0 0 (some 0x50000)), .spawn (lane 15 1 2 4 (some 0x50000)), .exitl (lane 15 0 0 0 none), .nop ⟨0, 0, 0, 0, none⟩,
     .uadd ⟨1, 2, 0, 0, some 9⟩, .uatom ⟨0, 2, 3, 8, some 0x2000⟩, .fence ⟨0, 0, 0, 20, none⟩, .sort ⟨0, 0, 0, 4, some 9⟩,
     .loop ⟨0, 2, some 3⟩, .rep ⟨1, 0, 0, 0, 0, 0, none⟩, .csrw ⟨0, 0x10, 0, some 9⟩, .mbfwd ⟨56, 0, 1, 0, none⟩, .moduleReset] := by decide

/-! ## Decoding -/

/-- Each row: the bits of a first word, and the instruction that they stand for. -/
def DecodesTo (l : List (Nat × Instr)) : Bool := l.all fun x => decodeTableWord 32 x.1 == some x.2

/-- R88, R111, R118 to R124: the lane integer instructions. -/
theorem test_decode_laneInteger : DecodesTo [(0b0_0_0000000_0_101_1010_01011_01001_01011, .ill ⟨false, 5, 10, 11, 9, 11, none⟩),
    (0b0_0_0000001_1_011_0000_01000_10110_11110, .iadd ⟨true, 3, 0, 8, 22, 30, none⟩),
    (0b0_0_0000010_0_000_1000_11101_01111_01011, .isub ⟨false, 0, 8, 29, 15, 11, none⟩),
    (0b0_0_0000011_1_001_0111_11101_11110_10010, .imul ⟨true, 1, 7, 29, 30, 18, none⟩),
    (0b0_0_0000100_0_000_0010_00010_10010_11011, .imulh ⟨false, 0, 2, 2, 18, 27, none⟩),
    (0b0_0_0000101_1_001_0111_11111_00001_10111, .imad ⟨true, 1, 7, 31, 1, 23, none⟩),
    (0b0_0_0000110_0_100_0010_01010_11000_01100, .imin ⟨false, 4, 2, 10, 24, 12, none⟩),
    (0b0_0_0000111_0_001_1011_00111_01001_10101, .imax ⟨false, 1, 11, 7, 9, 21, none⟩),
    (0b0_0_0001000_1_001_0010_11110_11000_00000, .iabs ⟨true, 1, 2, 30, 24, 0, none⟩),
    (0b0_0_0001001_0_110_0110_01110_01111_00000, .ineg ⟨false, 6, 6, 14, 15, 0, none⟩),
    (0b0_0_0001010_1_101_0011_10011_10101_00011, .and ⟨true, 5, 3, 19, 21, 3, none⟩),
    (0b0_0_0001011_0_000_1110_00110_01100_10000, .or ⟨false, 0, 14, 6, 12, 16, none⟩),
    (0b0_0_0001100_0_101_0111_10011_00101_01001, .xor ⟨false, 5, 7, 19, 5, 9, none⟩),
    (0b0_0_0001101_1_101_0110_01010_10100_11000, .andn ⟨true, 5, 6, 10, 20, 24, none⟩),
    (0b0_0_0001110_0_010_1010_10011_01001_01001, .shl ⟨false, 2, 10, 19, 9, 9, none⟩),
    (0b0_0_0001111_1_111_1001_11111_11100_01100, .shr ⟨true, 7, 9, 31, 28, 12, none⟩),
    (0b0_0_0010000_0_010_0000_00100_11100_11001, .sar ⟨false, 2, 0, 4, 28, 25, none⟩),
    (0b0_0_0010001_1_111_0001_11101_00011_10001, .rol ⟨true, 7, 1, 29, 3, 17, none⟩),
    (0b0_0_0010010_0_110_0000_10100_11110_00000, .clz ⟨false, 6, 0, 20, 30, 0, none⟩),
    (0b0_0_0010011_0_110_0111_10101_00101_00000, .popc ⟨false, 6, 7, 21, 5, 0, none⟩),
    (0b0_0_0010100_1_011_1101_01011_00000_00000, .brev ⟨true, 3, 13, 11, 0, 0, none⟩),
    (0b0_0_0010101_0_110_1110_10100_01000_01000, .bfx ⟨false, 6, 14, 20, 8, 8, none⟩),
    (0b0_0_0010110_1_111_1011_01101_10001_10111, .bfi ⟨true, 7, 11, 13, 17, 23, none⟩),
    (0b0_0_0010111_1_110_1111_00010_11100_00000, .sel ⟨true, 6, 15, 2, 28, 0, none⟩),
    (0b0_0_0011000_0_010_0010_00011_00001_10001, .isetp ⟨false, 2, 2, 3, 1, 17, none⟩),
    (0b0_0_0011001_1_111_0001_00111_00000_10100, .mov ⟨true, 7, 1, 7, 0, 20, none⟩),
    (0b0_0_0011010_0_010_1010_01000_11100_00100, .movlo ⟨false, 2, 10, 8, 28, 4, none⟩),
    (0b0_0_0011011_1_011_0111_11001_00101_11011, .movhi ⟨true, 3, 7, 25, 5, 27, none⟩),
    (0b0_0_0011100_1_010_1110_01000_11100_00110, .idot4 ⟨true, 2, 14, 8, 28, 6, none⟩),
    (0b0_0_0011101_0_110_1111_01101_01101_00000, .isat ⟨false, 6, 15, 13, 13, 0, none⟩)] := by decide

/-- R88, R111, R125 to R132: the lane float instructions. -/
theorem test_decode_laneFloat : DecodesTo [(0b0_0_0100000_1_011_0101_10011_11000_10000, .fadd ⟨true, 3, 5, 19, 24, 16, none⟩),
    (0b0_0_0100001_0_110_1100_00000_10000_00101, .fsub ⟨false, 6, 12, 0, 16, 5, none⟩),
    (0b0_0_0100010_1_011_0101_11001_01111_10101, .fmul ⟨true, 3, 5, 25, 15, 21, none⟩),
    (0b0_0_0100011_0_010_0100_01000_11010_01010, .ffma ⟨false, 2, 4, 8, 26, 10, none⟩),
    (0b0_0_0100100_0_011_1001_11001_01111_10111, .fmin ⟨false, 3, 9, 25, 15, 23, none⟩),
    (0b0_0_0100101_1_111_1100_11100_11010_00010, .fmax ⟨true, 7, 12, 28, 26, 2, none⟩),
    (0b0_0_0100110_0_100_1100_00001_00011_11111, .fsetp ⟨false, 4, 12, 1, 3, 31, none⟩),
    (0b0_0_0100111_1_101_0011_00001_01010_00000, .fclass ⟨true, 5, 3, 1, 10, 0, none⟩),
    (0b0_0_0101000_0_000_0100_01110_11110_00000, .frcp ⟨false, 0, 4, 14, 30, 0, none⟩),
    (0b0_0_0101001_0_111_0101_10101_11011_00000, .frsq ⟨false, 7, 5, 21, 27, 0, none⟩),
    (0b0_0_0101010_1_101_1011_10000_01000_00000, .fsqrt ⟨true, 5, 11, 16, 8, 0, none⟩),
    (0b0_0_0101011_0_110_0100_11000_11000_00000, .fexp2 ⟨false, 6, 4, 24, 24, 0, none⟩),
    (0b0_0_0101100_1_111_1011_11101_00001_00000, .flog2 ⟨true, 7, 11, 29, 1, 0, none⟩),
    (0b0_0_0101101_1_101_1110_10010_01100_00000, .ftab ⟨true, 5, 14, 18, 12, 0, none⟩),
    (0b0_0_0101111_0_010_0010_10010_11011_00000, .i2f ⟨false, 2, 2, 18, 27, 0, none⟩),
    (0b0_0_0110001_1_001_0111_11111_00001_00000, .frnd ⟨true, 1, 7, 31, 1, 0, none⟩),
    (0b0_0_0110011_1_100_0100_00010_01010_11000, .fldexp ⟨true, 4, 4, 2, 10, 24, none⟩)] := by decide

/-- R88, R111, R134: the cross-lane instructions. -/
theorem test_decode_crossLane : DecodesTo [(0b0_0_1000000_0_100_0001_11011_00111_01001, .lperm ⟨false, 4, 1, 27, 7, 9, none⟩),
    (0b0_0_1000001_1_011_1111_01001_00010_00000, .benes ⟨true, 3, 15, 9, 2, 0, none⟩),
    (0b0_0_1000010_0_000_1111_01100_00110_00000, .vote ⟨false, 0, 15, 12, 6, 0, none⟩),
    (0b0_0_1000011_0_110_1111_11101_11101_00000, .lscan ⟨false, 6, 15, 29, 29, 0, none⟩),
    (0b0_0_1000100_1_011_0101_00011_01000_00000, .lred ⟨true, 3, 5, 3, 8, 0, none⟩),
    (0b0_0_1000101_0_110_0110_01100_10000_00000, .subx ⟨false, 6, 6, 12, 16, 0, none⟩),
    (0b0_0_1000110_1_111_0011_00101_01001_11111, .pack ⟨true, 7, 3, 5, 9, 31, none⟩),
    (0b0_0_1000111_1_110_1010_10100_11000_00000, .unpack ⟨true, 6, 10, 20, 24, 0, none⟩),
    (0b0_0_1001000_0_010_1111_00010_00000_00000, .elect ⟨false, 2, 15, 2, 0, 0, none⟩),
    (0b0_0_1001001_1_001_1001_11111_00000_00000, .lsr ⟨true, 1, 9, 31, 0, 0, none⟩)] := by decide

/-- R88, R111, R143: the lane memory instructions. -/
theorem test_decode_laneMemory : DecodesTo [(0b0_0_1010000_1_001_1111_11100_01100_00000, .ld ⟨true, 1, 15, 28, 12, 0, none⟩),
    (0b0_0_1010001_0_010_0000_00000_00100_11100, .st ⟨false, 2, 0, 0, 4, 28, none⟩),
    (0b0_0_1010010_1_011_1111_10001_11101_00000, .lds ⟨true, 3, 15, 17, 29, 0, none⟩),
    (0b0_0_1010011_1_001_1010_00000_10110_00000, .sts ⟨true, 1, 10, 0, 22, 0, none⟩),
    (0b0_0_1010100_0_110_1110_10110_00111_00000, .ldc ⟨false, 6, 14, 22, 7, 0, none⟩),
    (0b0_0_1010101_1_101_1011_00000_11011_01101, .stc ⟨true, 5, 11, 0, 27, 13, none⟩),
    (0b0_0_1011010_1_000_1111_00000_11000_00000, .pfetch ⟨true, 0, 15, 0, 24, 0, none⟩),
    (0b0_0_1011011_0_110_1111_10100_01000_00000, .tlook ⟨false, 6, 15, 20, 8, 0, none⟩),
    (0b0_0_1011100_0_101_1111_00000_11111_11011, .tins ⟨false, 5, 15, 0, 31, 27, none⟩),
    (0b0_0_1011101_1_001_1111_00000_10111_00000, .tinv ⟨true, 1, 15, 0, 23, 0, none⟩),
    (0b0_0_1011110_1_110_1111_00000_00010_00000, .rcnt ⟨true, 6, 15, 0, 2, 0, none⟩)] := by decide

/-- R88, R111, R152: the lane control instructions. -/
theorem test_decode_laneControl : DecodesTo [(0b0_0_1100011_0_000_1111_00000_00000_00000, .exitl ⟨false, 0, 15, 0, 0, 0, none⟩)] := by decide

/-- R102, R112, R158: NOP and the uniform integer and memory instructions. -/
theorem test_decode_uniform : DecodesTo [(0b1_0_0000000_000000_000000_000000_00000, .nop ⟨0, 0, 0, 0, none⟩),
    (0b1_0_0000001_010010_010010_000010_00000, .uadd ⟨18, 18, 2, 0, none⟩),
    (0b1_0_0000010_101011_000001_110001_00000, .usub ⟨43, 1, 49, 0, none⟩),
    (0b1_0_0000011_000111_001111_110001_00000, .umul ⟨7, 15, 49, 0, none⟩),
    (0b1_0_0000100_100111_010100_100100_00000, .umulh ⟨39, 20, 36, 0, none⟩),
    (0b1_0_0000101_011010_101000_011100_00000, .umin ⟨26, 40, 28, 0, none⟩),
    (0b1_0_0000110_110001_001011_110111_00001, .umax ⟨49, 11, 55, 1, none⟩),
    (0b1_0_0000111_000101_111011_111001_00000, .uand ⟨5, 59, 57, 0, none⟩),
    (0b1_0_0001000_010010_101110_101000_00000, .uor ⟨18, 46, 40, 0, none⟩),
    (0b1_0_0001001_011100_100110_000110_00000, .uxor ⟨28, 38, 6, 0, none⟩),
    (0b1_0_0001010_011110_111111_001101_00000, .ushl ⟨30, 63, 13, 0, none⟩),
    (0b1_0_0001011_001101_110011_000011_00000, .ushr ⟨13, 51, 3, 0, none⟩),
    (0b1_0_0001100_100101_110011_011000_00000, .usar ⟨37, 51, 24, 0, none⟩),
    (0b1_0_0001101_010000_101110_000000_00000, .uclz ⟨16, 46, 0, 0, none⟩),
    (0b1_0_0001110_010110_111100_000000_00000, .upopc ⟨22, 60, 0, 0, none⟩),
    (0b1_0_0001111_000000_010000_000101_00001, .ubfx ⟨0, 16, 5, 1, none⟩),
    (0b1_0_0010000_000011_110101_011001_00000, .ubfi ⟨3, 53, 25, 0, none⟩),
    (0b1_0_0010001_101111_000000_110101_00000, .umov ⟨47, 0, 53, 0, none⟩),
    (0b1_0_0010010_100110_011010_100100_00000, .umovlo ⟨38, 26, 36, 0, none⟩),
    (0b1_0_0010011_001000_111010_001010_00000, .umovhi ⟨8, 58, 10, 0, none⟩),
    (0b1_0_0010100_101010_000011_111001_01111, .ucmp ⟨42, 3, 57, 15, none⟩),
    (0b1_0_0010101_010111_101001_001111_00000, .udiv ⟨23, 41, 15, 0, none⟩),
    (0b1_0_0010110_011100_111010_000010_00000, .urem ⟨28, 58, 2, 0, none⟩),
    (0b1_0_0010111_110100_000000_000000_01100, .widf ⟨52, 0, 0, 12, none⟩),
    (0b1_0_0011000_001001_100011_011111_00000, .uld ⟨9, 35, 31, 0, none⟩),
    (0b1_0_0011001_100001_101101_010011_00000, .ust ⟨33, 45, 19, 0, none⟩)] := by decide

/-- R103, R106, R112, R165: the control instructions. -/
theorem test_decode_control : DecodesTo [(0b1_0_0100000_00010110100001111000001, .bra ⟨738241, none⟩),
    (0b1_0_0100001_101010_01101101001000110, .brz ⟨42, 55878, none⟩),
    (0b1_0_0100010_110000_00101001011000100, .brnz ⟨48, 21188, none⟩),
    (0b1_0_0100011_001110_01001111000111110, .call ⟨14, 40510, none⟩),
    (0b1_0_0100100_100110_010111_000000_00000, .callr ⟨38, 23, 0, 0, none⟩),
    (0b1_0_0100101_000000_000000_000000_00000, .ret ⟨0, 0, 0, 0, none⟩),
    (0b1_0_0100110_100101_000000_000000_00000, .enter ⟨37, 0, 0, 0, none⟩),
    (0b1_0_0100111_010101_00101001010011011, .loop ⟨21, 21147, none⟩),
    (0b1_0_0101000_101011_01_11_00_00_000000000, .rep ⟨43, 1, 3, 0, 0, 0, none⟩),
    (0b1_0_0101001_000000_000000_000000_00000, .exit ⟨0, 0, 0, 0, none⟩),
    (0b1_0_0101010_000000_000000_000000_10110, .brk ⟨0, 0, 0, 22, none⟩),
    (0b1_0_0101011_000000_000000_000000_11110, .trap ⟨0, 0, 0, 30, none⟩),
    (0b1_0_0101100_000000_000000_000000_00000, .tret ⟨0, 0, 0, 0, none⟩),
    (0b1_0_0101101_000000_000100_000000_00000, .jmpr ⟨0, 4, 0, 0, none⟩)] := by decide

/-- R102, R112, R173: the synchronisation instructions. -/
theorem test_decode_sync : DecodesTo [(0b1_0_0110000_000000_000000_000000_00000, .bar ⟨0, 0, 0, 0, none⟩),
    (0b1_0_0110001_000000_000000_000000_01000, .chim ⟨0, 0, 0, 8, none⟩),
    (0b1_0_0110010_000000_000000_000000_01111, .fence ⟨0, 0, 0, 15, none⟩),
    (0b1_0_0110011_101011_000000_000000_00000, .closeb ⟨43, 0, 0, 0, none⟩),
    (0b1_0_0110100_000000_000000_011101_00000, .waitb ⟨0, 0, 29, 0, none⟩),
    (0b1_0_0110101_000000_100001_000000_00000, .joinw ⟨0, 33, 0, 0, none⟩),
    (0b1_0_0110110_000000_000111_011101_00000, .joina ⟨0, 7, 29, 0, none⟩),
    (0b1_0_0110111_111110_000000_000000_00000, .welect ⟨62, 0, 0, 0, none⟩),
    (0b1_0_0111000_000000_000000_000000_00000, .oflush ⟨0, 0, 0, 0, none⟩),
    (0b1_0_0111001_000000_001100_000000_00000, .ptok ⟨0, 12, 0, 0, none⟩),
    (0b1_0_0111010_000010_000000_000000_00010, .vtok ⟨2, 0, 0, 2, none⟩)] := by decide

/-- R102, R112, R188: the engine and Hearth instructions. -/
theorem test_decode_engine : DecodesTo [(0b1_0_1000000_000000_110010_011011_00001, .tcopy ⟨0, 50, 27, 1, none⟩),
    (0b1_0_1000001_000000_100001_010111_00010, .tcopym ⟨0, 33, 23, 2, none⟩),
    (0b1_0_1000010_000000_000001_000000_00000, .sgather ⟨0, 1, 0, 0, none⟩),
    (0b1_0_1000011_000000_010111_000000_00000, .sreduce ⟨0, 23, 0, 0, none⟩),
    (0b1_0_1000100_000000_000100_000000_00000, .scvt ⟨0, 4, 0, 0, none⟩),
    (0b1_0_1000101_110100_000010_101010_00000, .wload ⟨52, 2, 42, 0, none⟩),
    (0b1_0_1000110_011000_101100_110100_00001, .mma ⟨24, 44, 52, 1, none⟩),
    (0b1_0_1000111_011011_100111_001001_00101, .mmas ⟨27, 39, 9, 5, none⟩),
    (0b1_0_1001000_001011_101001_000010_00000, .accrd ⟨11, 41, 2, 0, none⟩),
    (0b1_0_1001001_101100_010110_010110_00111, .accwr ⟨44, 22, 22, 7, none⟩),
    (0b1_0_1001010_011101_000000_111101_00011, .accz ⟨29, 0, 61, 3, none⟩),
    (0b1_0_1001011_000000_000000_110011_00000, .accwait ⟨0, 0, 51, 0, none⟩),
    (0b1_0_1001100_000000_110101_100011_00000, .sortld ⟨0, 53, 35, 0, none⟩),
    (0b1_0_1001101_000000_000000_100000_00000, .sort ⟨0, 0, 32, 0, none⟩),
    (0b1_0_1001110_000000_010000_000000_00001, .sortst ⟨0, 16, 0, 1, none⟩),
    (0b1_0_1001111_000000_000000_000000_00000, .sortwait ⟨0, 0, 0, 0, none⟩),
    (0b1_0_1010000_000000_000000_000000_00000, .sortstop ⟨0, 0, 0, 0, none⟩),
    (0b1_0_1010001_000000_000111_110011_00000, .tabld ⟨0, 7, 51, 0, none⟩),
    (0b1_0_1010010_000000_000000_000000_00000, .tabsw ⟨0, 0, 0, 0, none⟩),
    (0b1_0_1010011_000101_001001_111111_00101, .benset ⟨5, 9, 63, 5, none⟩),
    (0b1_0_1010100_000000_010110_000000_00000, .rsnap ⟨0, 22, 0, 0, none⟩),
    (0b1_0_1010101_101010_010100_000000_00000, .tsubmit ⟨42, 20, 0, 0, none⟩),
    (0b1_0_1010110_000000_011000_000000_00000, .tdone ⟨0, 24, 0, 0, none⟩),
    (0b1_0_1010111_101010_000000_000000_00000, .mbrecv ⟨42, 0, 0, 0, none⟩),
    (0b1_0_1011000_011010_000000_011010_00000, .mbfwd ⟨26, 0, 26, 0, none⟩),
    (0b1_0_1011001_110011_001001_001001_00000, .blkgo ⟨51, 9, 9, 0, none⟩)] := by decide

/-- R103, R112, R185, R186: the CSR instructions and XLINV. -/
theorem test_decode_csr : DecodesTo [(0b1_0_1100000_111111_011101000111_00000, .csrr ⟨63, 1863, 0, none⟩),
    (0b1_0_1100001_111001_000100111111_00000, .csrw ⟨57, 319, 0, none⟩),
    (0b1_0_1100010_011100_100010101100_00000, .csrs ⟨28, 2220, 0, none⟩),
    (0b1_0_1100011_101010_000011010010_00000, .csrc ⟨42, 210, 0, none⟩),
    (0b1_0_1100100_000000_100000_000100_00000, .xlinv ⟨0, 32, 4, 0, none⟩)] := by decide

/-- R91, R96, R152, R153, R163: the instructions that always have a second word, written before the first. -/
theorem test_decode_tails : [
    (0b00000_00000001010_000_0_0_0_0_0_0_000_000_1__0_1_0101110_0_111_1100_00011_00100_00000, .fcvt ⟨false, 7, 12, 3, 4, 0, some 0xA0001⟩),
    (0b00000_00000001100_001_0_0_0_0_0_0_000_000_1__0_1_0110000_0_111_0010_00011_00100_00000, .f2i ⟨false, 7, 2, 3, 4, 0, some 0xC2001⟩),
    (0b00110_00000001010_000_0_0_0_0_0_0_000_000_1__0_1_0110010_0_111_1100_00011_00100_00101, .fdot2 ⟨false, 7, 12, 3, 4, 5, some 0x300A0001⟩),
    (0b01011_00000000000_100_001_0_0_0_0_00_000_1__0_1_1010110_1_010_0010_00000_00100_00101, .atom ⟨true, 2, 2, 0, 4, 5, some 0x58008401⟩),
    (0b00110_00000000000_100_010_0_0_0_1_00_000_1__0_1_1010111_0_111_0011_00011_00100_00101, .cas ⟨false, 7, 3, 3, 4, 5, some 0x30008841⟩),
    (0b00000_00000000000_001_000_0_0_0_0_00_000_1__0_1_1011000_0_111_1100_00000_00100_00101, .faddo ⟨false, 7, 12, 0, 4, 5, some 0x2001⟩),
    (0b00000_00000000000_011_001_0_0_0_0_01_000_1__0_1_1011001_0_111_1010_00000_00100_00101, .fadda ⟨false, 7, 10, 0, 4, 5, some 0x6411⟩),
    (0b1111111111111110_0000000000000000__0_1_1100000_1_011_1111_00000_00001_00010, .brd ⟨true, 3, 15, 0, 1, 2, some 0xFFFE0000⟩),
    (0b0000000000001000_0000000000000000__0_1_1100001_0_111_1111_00011_00100_00010, .spawn ⟨false, 7, 15, 3, 4, 2, some 0x80000⟩),
    (0b00110_00000001000_0000000000000001__0_1_1100010_0_111_1111_00011_00100_00010, .spawnt ⟨false, 7, 15, 3, 4, 2, some 0x30080001⟩),
    (0b0000000000000000_100_001_11_0_0_00_00_00__1_1_0011010_000011_000100_000101_00001, .uatom ⟨3, 4, 5, 1, some 0x8700⟩),
    (0b10000000000000000000000000001111__1_1_0000001_000011_000100_000000_00000, .uadd ⟨3, 4, 0, 0, some 0x8000000F⟩)].all
      (fun x => decodeTableWord 64 x.1 == some x.2) = true := by decide

/-- R113: reserved opcodes decode to nothing: ILLEGAL, never a neighbour. -/
theorem test_decode_reserved : [0b0_0_0011110_0_111_0000_00000_00000_00000, 0b0_0_0110100_0_111_0000_00000_00000_00000,
    0b0_0_1001010_0_111_0000_00000_00000_00000, 0b0_0_1011111_0_111_0000_00000_00000_00000, 0b0_0_1100100_0_111_0000_00000_00000_00000,
    0b1_0_0011011_000000_000000_000000_00000, 0b1_0_0101110_000000_000000_000000_00000, 0b1_0_0111011_000000_000000_000000_00000,
    0b1_0_1011010_000000_000000_000000_00000, 0b1_0_1100101_000000_000000_000000_00000].all
      (fun x => decodeTableWord 32 x == none) = true := by decide

/-! ## Witnesses: concrete states that meet the hypotheses of the statements -/

/-! ## States that meet the hypotheses of the statements -/

/-- A module whose next step runs the one warp of a launch (log 34), and the same with a warp of ours. -/
def w0 : State := State.reset.withFetchWord 32 0
def stW (f : Warp → Warp) : State := w0.setWarpAt 0 0 (f placedWarp)
/-- A warp with a handler at 0x1000. -/
def handled (w : Warp) : Warp := { w with tvec := 0x1000 }
/-- A warp in which some k registers hold values. -/
def withK (l : AMap Word) (w : Warp) : Warp := { w with kregs := l }

/-- The words of a lane and of a uniform instruction. -/
def lOf (i : Instr) : LaneW := match i.form with | .lane _ w => w | _ => lane 0 0 0 0 none
def uOf (i : Instr) : UniW := match i.form with | .uni _ w => w | _ => ⟨0, 0, 0, 0, none⟩

/-- StepRunsDecoded: the placed warp can issue, nothing stands before its instruction, and its word is a UADD. -/
theorem witness_StepRunsDecoded :
    let s := State.reset.withFetchWord 32 0b1_0_0000001_000011_000100_000101_00000
    let r := ({ s with schedule := [] } : State).pass
    let v := r.turnTo 0 0
    s.schedule = [.issue 0 0] ∧ r.canIssue 0 0 = true ∧ r.mayGo 0 0 = true ∧ r.dispatches 0 0 = false ∧ v.w.lent = 0 ∧ v.w.residents ≠ 0 ∧ v.w.div = [] ∧ v.w.rep = none ∧
      ∃ t, v.ahead = .ok t ∧ t.w.rep = none ∧ ∃ b, t.fetchWord t.w t.w.pc.toNat = .ok b ∧
        decodeTableWord 32 (leNat b) = some (.uadd ⟨3, 4, 5, 0, none⟩) ∧ ∃ u, exec (.uadd ⟨3, 4, 5, 0, none⟩) t = .next u :=
  ⟨rfl, rfl, rfl, rfl, rfl, by decide, rfl, rfl, _, rfl, rfl, _, rfl, by decide, _, rfl⟩

/-- StepRunsDecoded: the dispatcher of die 7 with a packet in its mailbox. -/
theorem witness_StepRunsDecoded_dispatcher :
    let s := State.reset.setDie 7 { State.reset.die 7 with mailbox := [⟨1, 0, [], [], 0, none⟩] }
    let r := s.pass
    r.canIssue 1344 48 = true ∧ r.mayGo 1344 48 = true ∧ r.dispatches 1344 48 = true := ⟨rfl, rfl, rfl⟩

/-- StepRunsDecoded, an instruction of two words: a MOV of an immediate. -/
theorem witness_StepRunsDecoded_two :
    let s := State.reset.withFetchWord 64 0b0000000000000101_0000000000000000__0_1_0011001_0_111_0010_00001_00000_00000
    let r := ({ s with schedule := [] } : State).pass
    let i : Instr := .mov (lane 2 1 0 0 (some 0x50000))
    r.canIssue 0 0 = true ∧ r.mayGo 0 0 = true ∧ ∃ t, (r.turnTo 0 0).ahead = .ok t ∧ t.w.rep = none ∧ ∃ b, t.fetchWord t.w t.w.pc.toNat = .ok b ∧
      ∃ b', t.fetchWord t.w (t.w.pc + 4).toNat = .ok b' ∧ decode (b ++ b') = .ok (i, []) ∧ ∃ u, exec i t = .next u :=
  ⟨rfl, rfl, _, rfl, rfl, _, rfl, _, rfl, rfl, _, rfl⟩

/-- A warp in iteration 1 of 3 of a repeated UADD. -/
def repeating (w : Warp) : Warp :=
  { w with pc := 4, rep := some ⟨0, 3, 0, 0, 0, 0, 1, 0b1_0_0000001_000011_000100_000101_00000, 0, 8⟩ }

/-- StepRunsDecoded, a REP iteration. -/
theorem witness_StepRunsDecoded_rep :
    let s := stW repeating
    let r := ({ s with schedule := [] } : State).pass
    s.schedule = [.issue 0 0] ∧ r.canIssue 0 0 = true ∧ r.mayGo 0 0 = true ∧ ∃ t, (r.turnTo 0 0).ahead = .ok t ∧ ∃ p, t.w.rep = some p ∧ ∃ i,
      decodeWords p.word (if hasSecond p.word then some p.tail else none) = .ok i ∧ ∃ u, exec (p.stepped i) t = .next u :=
  ⟨rfl, rfl, rfl, _, rfl, _, rfl, _, rfl, _, rfl⟩

/-- MemoryStaysCanonical: the placed module's memories are canonical, and it steps. -/
theorem witness_MemoryStaysCanonical : w0.mem.wf = true ∧ (w0.cores.all fun c => c.2.spad.wf) = true ∧ ∃ t, step w0 = .next t :=
  ⟨by decide, by decide, _, rfl⟩

/-- The uniform integer instructions, one word each. -/
def uniWords : List Instr :=
  [.uadd ⟨63, 2, 3, 0, none⟩, .usub ⟨1, 2, 0, 0, some 0xFFFFFFFF⟩, .umul ⟨1, 2, 3, 0, none⟩, .umulh ⟨1, 2, 3, 1, none⟩,
   .umin ⟨1, 2, 3, 1, none⟩, .umax ⟨1, 2, 3, 0, none⟩, .uand ⟨1, 2, 3, 0, none⟩, .uor ⟨1, 2, 3, 0, none⟩, .uxor ⟨1, 2, 3, 0, none⟩] ++
  [.ushl ⟨1, 2, 3, 0, none⟩, .ushr ⟨1, 2, 3, 0, none⟩, .usar ⟨1, 2, 3, 0, none⟩, .uclz ⟨1, 2, 0, 0, none⟩, .upopc ⟨1, 2, 0, 0, none⟩,
   .ubfx ⟨1, 2, 3, 1, none⟩, .ubfi ⟨1, 2, 3, 0, none⟩, .umov ⟨0, 0, 3, 0, none⟩, .umovlo ⟨1, 2, 3, 0, none⟩, .umovhi ⟨1, 2, 3, 0, none⟩,
   .ucmp ⟨1, 2, 3, 13, none⟩, .udiv ⟨1, 2, 3, 1, none⟩, .urem ⟨1, 2, 3, 0, none⟩, .widf ⟨1, 0, 0, 5, none⟩]

/-- UniformResults: every instruction of the table. -/
theorem witness_UniformResults : uniWords.all (fun i => (uniResults w0.w (uOf i)).any fun x => x.1 == i && Clear i w0 &&
    ReadableK w0.w x.2.1 && !w0.w.kIsEmpty (uOf i).kd.toNat) = true := by decide

/-- The lane integer instructions of sub-elements, one word each. -/
def intWords : List Instr :=
  [.iadd (lane 0 1 2 3 none), .isub (lane 7 1 2 3 (some 0x401)), .imul (lane 2 31 2 3 none), .imulh (lane 3 1 2 3 none), .imad (lane 2 1 2 3 (some 0x20000001)),
   .imin (lane 2 1 2 3 none), .imax (lane 6 1 2 3 none), .iabs (lane 3 1 2 0 none), .ineg (lane 2 1 2 0 none), .and (lane 15 1 2 3 none),
   .or (lane 4 1 2 3 none), .xor (lane 2 1 2 3 none), .andn (lane 2 1 2 3 none)] ++
  [.shl (lane 0 1 2 3 none), .shr (lane 2 1 2 3 none), .sar (lane 3 1 2 3 none), .rol (lane 2 1 2 3 none), .clz (lane 15 1 2 0 none),
   .popc (lane 2 1 2 0 none), .brev (lane 2 1 2 0 none), .bfx (lane 2 1 2 3 none), .bfi (lane 2 1 2 3 (some 0x20000001)),
   .movlo (lane 2 1 2 3 none), .movhi (lane 6 1 2 3 none), .idot4 (lane 2 1 2 3 (some 0x20030001)), .isat (lane 2 1 2 0 (some 0x70001))]

/-- The four operands flags of a table row of lane instructions. -/
def readyV (i : Instr) (f : Bool × Bool × Bool) : Bool :=
  Clear i w0 && w0.w.acts (lOf i) != 0 && Readable w0.w (w0.w.acts (lOf i)) (arithSrcs w0.w (lOf i) f.1 f.2.1 f.2.2) &&
    !w0.w.vIsEmpty (lOf i).vd.toNat

/-- LaneIntegerResults: every instruction of both tables. -/
theorem witness_LaneIntegerResults :
    (intWords.all fun i => (intResults (lOf i)).any fun x => x.1 == i && readyV i x.2.1) = true ∧
    ([(.mov (lane 15 1 0 3 none) : Instr), .mov (lane 9 1 0 0 (some 0xFF0000)), .sel (lane 15 1 2 3 (some 0xE0001))].all fun i =>
      (moveResults w0.w (lOf i)).any fun x => x.1 == i && readyV i x.2.1) = true := by decide

/-- LaneFloatResults: every instruction of the table. -/
theorem witness_LaneFloatResults :
    ([(.fadd (lane 8 1 2 3 none) : Instr), .fsub (lane 13 1 2 3 (some 0x9C01)), .fmul (lane 10 1 2 3 none), .ffma (lane 12 1 2 3 (some 0x20000001)),
      .fmin (lane 12 1 2 3 none), .fmax (lane 9 1 2 3 none), .frcp (lane 12 1 2 0 none), .frsq (lane 12 1 2 0 none), .fsqrt (lane 11 1 2 0 none),
      .fexp2 (lane 12 1 2 0 none), .flog2 (lane 12 1 2 0 none), .frnd (lane 12 1 2 0 (some 0x10001)), .fdot2 (lane 12 1 2 3 (some 0x200A0001)),
      .fldexp (lane 12 1 2 3 none)].all fun i =>
      (floatResults (lOf i)).any fun x => x.1 == i && readyV i x.2.1) = true := by decide

/-- PredicateResults and CrossLaneResults: every instruction of both tables. -/
theorem witness_PredicateResults_CrossLaneResults :
    ([(.isetp (lane 2 7 2 3 (some 0xD0001)) : Instr), .fsetp (lane 12 0 2 3 (some 0x50001)), .fclass (lane 12 0 2 0 (some 0x3FF0001)),
      .elect (lane 15 7 0 0 none), .vote (lane 15 7 7 0 (some 5))].all fun i =>
      (predResults w0.w (lOf i)).any fun x => x.1 == i && Clear i w0 && Readable w0.w (w0.w.acts (lOf i)) x.2.1 && w0.w.acts (lOf i) != 0) = true ∧
    ([(.lperm (lane 2 1 2 3 (some 3)) : Instr), .benes (lane 15 1 2 0 (some 15)), .lsr (lane 2 1 0 0 (some 13)), .subx (lane 0 1 2 3 none),
      .pack (lane 10 1 2 3 (some 0xC0001)), .unpack (lane 12 1 2 0 (some 0xA0003)), .lscan (lane 12 1 2 0 (some 0x21)), .lred (lane 2 31 2 0 none),
      .vote (lane 15 31 7 0 (some 15))].all fun i =>
      (crossResults w0.w (lOf i)).any fun x => x.1 == i && Clear i w0 && Readable w0.w (w0.w.acts (lOf i)) x.2.1 && w0.w.acts (lOf i) != 0 &&
        !w0.w.vIsEmpty (lOf i).vd.toNat) = true := by decide

/-- CrossLaneResults and ConversionResults: folds of a row and of a column with a float and an integer type in lane 31's
last element, PACK and UNPACK of both kinds, and conversions that widen, keep the width and narrow into the last part. -/
theorem witness_CrossLaneResults_shapes :
    (let r := lane 10 1 2 0 (some 0x21)
     r.t < 14 ∧ r.xf.testBit 3 = false ∧ (31 : Nat) < 32 ∧ (3 : Nat) < tyCount r.t ∧ (w0.w.acts r).getLsbD 31 = true ∧ tyFloat r.t = true) ∧
    (let c := lane 3 1 2 0 (some 0x11)
     c.t < 14 ∧ c.xf.testBit 3 = true ∧ (0 : Nat) < tyCount c.t ∧ tyFloat c.t = false) ∧
    (let p := lane 10 1 2 3 (some 0xC0001)
     p.t < 14 ∧ p.fn % 16 < 14 ∧ tyWidth (p.fn % 16) = 2 * tyWidth p.t ∧ (3 : Nat) < 64 / tyWidth p.t) ∧
    (let u := lane 12 1 2 0 (some 0xA0003)
     u.t < 14 ∧ u.fn % 16 < 14 ∧ tyWidth u.t = 2 * tyWidth (u.fn % 16) ∧ (1 : Nat) < 64 / tyWidth u.t) ∧
    (tyWidth 8 < tyWidth 13 ∧ (7 : Nat) < tyWidth 13 / tyWidth 8) ∧ tyWidth 8 = tyWidth 9 ∧
    (tyWidth 0 < tyWidth 3 ∧ (7 : Nat) < tyWidth 3 / tyWidth 0 ∧ 7 * (64 / tyWidth 3) ≤ 7 ∧ (7 : Nat) < (7 + 1) * (64 / tyWidth 3)) := by decide

/-- CrossLaneResults and ConversionResults: PACK and UNPACK with q4x, and FCVT to it and from it. -/
theorem witness_CrossLaneResults_q4x :
    (let p := lane 14 1 2 3 (some 0x80001)
     p.t = 14 ∧ p.fn % 16 < 14 ∧ tyWidth (p.fn % 16) = 8 ∧ Clear (.pack p) w0 = true) ∧
    (let u := lane 8 1 2 0 (some 0xE0003)
     u.fn % 16 = 14 ∧ u.t < 14 ∧ tyWidth u.t = 8 ∧ Clear (.unpack u) w0 = true) ∧
    (let f := lane 14 1 2 0 (some 0x7C0001)
     f.t = 14 ∧ f.fn % 16 < 14 ∧ tyWidth (f.fn % 16) < 64 ∧ bits f.fn 6 4 < tyWidth (f.fn % 16) / 4 ∧ Clear (.fcvt f) w0 = true) ∧
    (let f := lane 12 1 2 0 (some 0x7E0001)
     f.fn % 16 = 14 ∧ f.t < 14 ∧ bits f.fn 6 4 < tyWidth f.t / 4 ∧ (1 : Nat) < 64 / tyWidth f.t ∧ Clear (.fcvt f) w0 = true) ∧
    (tyFloat 12 = true ∧ nanCode 12 0x7FC00000 = true ∧ infCode 12 0xFF800000 = true ∧ finiteCode 12 0x3F800000 = true) := by decide +kernel

/-- ConversionResults: the three conversions, one of them narrowing, and FTAB in bank 0. -/
theorem witness_ConversionResults :
    ([(.fcvt (lane 10 1 2 0 (some 0x1C0001)) : Instr), .fcvt (lane 12 1 2 0 (some 0xA0001)), .i2f (lane 12 1 2 0 (some 0x20001)),
      .f2i (lane 2 1 2 0 (some 0xC2001))].all fun i => (convertInstrs (lOf i)).any (· == i) && Clear i w0 && w0.w.acts (lOf i) != 0 &&
        Readable w0.w (w0.w.acts (lOf i)) (convertSrcs w0.w (lOf i)) && !w0.w.vIsEmpty (lOf i).vd.toNat) = true ∧
    readyV (.ftab (lane 12 1 2 0 (some 0x70001))) (true, false, false) = true ∧ w0.co.tabBank = false ∧ w0.co.bankPoison0 = false := by decide

/-- LaneFrames: a guard that no lane meets (@p0 with p0 = 0), and a live warp. -/
theorem witness_LaneFrames : let i : Instr := .iadd ⟨false, 0, 2, 1, 2, 3, none⟩
    i.form = .lane 1 ⟨false, 0, 2, 1, 2, 3, none⟩ ∧ Clear i w0 = true ∧ w0.w.acts ⟨false, 0, 2, 1, 2, 3, none⟩ = 0 ∧ w0.w.status = .live :=
  ⟨rfl, by decide, by decide, rfl⟩

/-- BranchTargets: each instruction, at both signs of its offset, and JMPR at its greatest address. -/
theorem witness_BranchTargets :
    [(.nop ⟨0, 0, 0, 0, none⟩ : Instr), .bra ⟨0x7FFFFF, none⟩, .bra ⟨0x3FFFFF, none⟩, .brz ⟨0, 0x10000, none⟩, .brnz ⟨63, 0xFFFF, none⟩].all
      (fun i => Clear i w0) = true ∧ NoLoopEnd w0.w = true ∧ ReadableK w0.w [0] = true ∧ ReadableK w0.w [63] = true ∧
    (let s := stW (withK [(1, 0xFFFFFFFFFFFFC)])
     Clear (.jmpr ⟨0, 1, 0, 0, none⟩) s = true ∧ NoLoopEnd s.w = true ∧ ReadableK s.w [1] = true ∧ (s.w.k 1).toNat % 4 = 0 ∧
       (s.w.k 1).toNat < 2 ^ 52) := by decide

/-- CallsAndReturns: a CALL with the overlap of the whole frame, a CALLR with none, and the RET behind the CALL. -/
theorem witness_CallsAndReturns :
    Clear (.call ⟨32, 8, none⟩) w0 = true ∧ NoLoopEnd w0.w = true ∧ w0.w.rep = none ∧ (32 : Nat) ≤ w0.w.m ∧
    w0.w.spilled.length ≤ w0.w.links.length ∧
    (let s := stW (withK [(1, 0x100)])
     Clear (.callr ⟨0, 1, 0, 0, none⟩) s = true ∧ ReadableK s.w [1] = true ∧ (s.w.k 1).toNat % 4 = 0 ∧ (s.w.k 1).toNat < 2 ^ 52) ∧
    ∃ t, exec (.call ⟨4, 8, none⟩) w0 = .next t ∧ Clear (.ret ⟨0, 0, 0, 0, none⟩) t = true ∧ NoLoopEnd t.w = true :=
  ⟨by decide, by decide, rfl, by decide, by decide, by decide, _, rfl, by decide, by decide⟩

/-- CallsAndReturns: a CALL and a CALLR with an overlap above the frame, and a RET in the bottom frame. -/
theorem witness_CallsAndReturns_window :
    let s := stW fun w => { w with m := 8 }
    Clear (.call ⟨9, 8, none⟩) s = true ∧ NoLoopEnd s.w = true ∧ s.w.m < 9 ∧ Clear (.callr ⟨32, 1, 0, 0, none⟩) s = true ∧
      s.w.kIsEmpty 1 = false ∧ Clear (.ret ⟨0, 0, 0, 0, none⟩) s = true ∧ s.w.links = [] := by decide

/-- A warp in a called frame. -/
def inCall (w : Warp) : Warp := { w with base := 28, m := 4, links := [⟨0x40, 32, 4, true, false⟩] }

/-- FramesReturnAndGrow: a RET from a called frame, an ENTER to the greatest frame in one, both resident. -/
theorem witness_FramesReturnAndGrow :
    let s := stW inCall
    Clear (.ret ⟨0, 0, 0, 0, none⟩) s = true ∧ NoLoopEnd s.w = true ∧ s.w.rep = none ∧ s.w.links = [⟨0x40, 32, 4, true, false⟩] ∧
      s.residentAt s.curCore s.w true 1 = .ok (s, s.w) ∧
    Clear (.enter ⟨32, 0, 0, 0, none⟩) s = true ∧ s.w.entered = false ∧ (s.w.links.head?.map Link.n).getD 0 ≤ 32 ∧
      s.w.nextRecord + spillBytes (framesToSpill s.w.budget (s.w.base + 32) s.w.below) ≤ s.w.divFloor ∧
      s.spillFrames s.curCore s.w true (framesToSpill s.w.budget (s.w.base + 32) s.w.below) = .ok (s, s.w) ∧
      s.w.base + 32 ≤ s.w.budget :=
  ⟨by decide, by decide, rfl, rfl, rfl, by decide, rfl, by decide, by decide, rfl, by decide⟩

/-- FramesReturnAndGrow: an ENTER below the frame's n, a second one in a frame, and one whose records do not fit. -/
theorem witness_FramesReturnAndGrow_window :
    (let s := stW fun w => { w with base := 24, m := 8, links := [⟨0x40, 32, 8, true, false⟩] }
     Clear (.enter ⟨4, 0, 0, 0, none⟩) s = true ∧ NoLoopEnd s.w = true ∧ (4 : Nat) < (s.w.links.head?.map Link.n).getD 0) ∧
    (let s := stW fun w => { inCall w with entered := true }
     Clear (.enter ⟨4, 0, 0, 0, none⟩) s = true ∧ (s.w.links.head?.map Link.n).getD 0 ≤ 4 ∧ s.w.entered = true) ∧
    let s := stW fun w => { inCall w with budget := 32, spillSize := 256 * 28 }
    let out := framesToSpill s.w.budget (s.w.base + 32) s.w.below
    Clear (.enter ⟨32, 0, 0, 0, none⟩) s = true ∧ s.w.entered = false ∧ out ≠ [] ∧ s.w.divFloor < s.w.nextRecord + spillBytes out := by decide

/-- FramesReturnAndGrow: a frame of two registers spilled by a Hearth, whose addresses are physical, and the fill of a record. -/
theorem witness_FramesReturnAndGrow_records :
    let r : Resident := ⟨0, 2, 0, none⟩
    let w := { placedWarp with kind := .hearth }
    let x := { w with spilled := [⟨0x100000, 2⟩] }
    let at' := fun j => ((0, .mem (0x100000 + 256 * j)) : Nat × Place)
    w0.mem.wf = true ∧ (∀ j < r.m, r.base + j ∉ w.vEmpty) ∧ (∃ t y, w0.spillFrame 0 w true r 2 = .ok (t, y)) ∧
      (∃ u, w0.resolveAll 0 w (spillReq true 256) true ((List.range 3).map fun j => (0, w.nextRecord + 256 * j)) = .ok ([at' 0, at' 1, at' 2], u)) ∧
      (∃ t y, w0.fillFrame 0 x true 0 = .ok (t, y)) ∧
      ∃ u, w0.resolveAll 0 x (spillReq false 256) true ((List.range 2).map fun j => (0, 0x100000 + 256 * (j + 1))) = .ok ([at' 1, at' 2], u) :=
  ⟨by decide, by decide, ⟨_, _, rfl⟩, ⟨_, rfl⟩, ⟨_, _, rfl⟩, _, rfl⟩

/-- LoopFrames: a LOOP from a literal and from k1, with three frames open; one of count 0 over a body that can be fetched. -/
theorem witness_LoopFrames_begin :
    let s := stW fun w => { withK [(1, 5)] w with loops := [⟨0, 8, 1⟩, ⟨0, 8, 1⟩, ⟨0, 8, 1⟩] }
    Clear (.loop ⟨0, 2, some 0xFFFFFFFF⟩) s = true ∧ Clear (.loop ⟨1, 1, none⟩) s = true ∧ NoLoopEnd s.w = true ∧ ReadableK s.w [1] = true ∧
      (s.w.k 1).setWidth 32 = 5#32 ∧ s.w.loops.length < 4 ∧ s.w.rep = none ∧
    Clear (.loop ⟨0, 2, some 0⟩) w0 = true ∧ NoLoopEnd w0.w = true ∧ ∃ b, w0.fetchWord w0.w (wordsFrom w0.w.pc (2 : BitVec 17)).toNat = .ok b :=
  ⟨by decide, by decide, by decide, by decide, by decide, by decide, rfl, by decide, by decide, _, rfl⟩

/-- LoopFrames: a NOP that ends an inner frame on its last round inside an outer frame that goes round, or that does not end here. -/
theorem witness_LoopFrames_end :
    let s := stW fun w => { w with pc := 4, loops := [⟨0, 4, 1⟩, ⟨0, 4, 0⟩] }
    let t := stW fun w => { w with pc := 4, loops := [⟨0, 4, 1⟩, ⟨0, 8, 2⟩] }
    Clear (.nop ⟨0, 0, 0, 0, none⟩) s = true ∧ s.w.rep = none ∧ s.w.loops = [⟨0, 4, 1⟩] ++ ⟨0, 4, 0⟩ :: [] ∧ s.w.pc = 4 ∧
    Clear (.nop ⟨0, 0, 0, 0, none⟩) t = true ∧ t.w.rep = none ∧ t.w.loops = [⟨0, 4, 1⟩] ++ ⟨0, 8, 2⟩ :: [] ∧ t.w.pc = 4 :=
  ⟨by decide, rfl, rfl, rfl, by decide, rfl, rfl, rfl⟩

/-- LoopFrames: the last round of the only frame, and of two that end together. -/
theorem witness_LoopFrames_last : ∀ l ∈ [[(⟨0, 4, 1⟩ : LoopFrame)], [⟨0, 4, 1⟩, ⟨4, 4, 1⟩]],
    let s := stW fun w => { w with pc := 4, loops := l }
    Clear (.nop ⟨0, 0, 0, 0, none⟩) s = true ∧ s.w.rep = none ∧ s.w.loops.all (fun g => g.last == s.w.pc && g.count == 1) = true := by decide

/-- A module whose launch's code holds a REP of 3 and a UADD. -/
def wRep : State := State.reset.withFetchWord 64 (0b1_0_0000001_000011_000100_000101_00000 * 2 ^ 32 + 0b1_0_0101000_000010_01_00_00_00_000000000)

/-- LoopFrames: a fifth LOOP, every control transfer and a REP prefix at a loop's last address. -/
theorem witness_LoopFrames_traps :
    (let s := stW fun w => { w with loops := List.replicate 4 ⟨0, 8, 1⟩ }
     Clear (.loop ⟨0, 2, some 3⟩) s = true ∧ NoLoopEnd s.w = true ∧ 4 ≤ s.w.loops.length) ∧
    (let s := stW fun w => { w with pc := 4, loops := [⟨0, 8, 1⟩, ⟨0, 4, 3⟩, ⟨4, 4, 1⟩], preds := [(1, 0xF)], tstat := 1 }
     s.w.loops.find? (fun f => f.last == s.w.pc) = some ⟨0, 4, 3⟩ ∧
     ((uniTransfers ⟨8, none⟩ ⟨2, 8, none⟩ ⟨0, 0, 0, 0, none⟩).all fun x => (Clear x.1 s || x.1 == .enter ⟨0, 0, 0, 0, none⟩) &&
       x.2.all fun k => !s.w.kIsEmpty k) = true ∧ Clear (.enter ⟨8, 0, 0, 0, none⟩) s = true ∧ Clear (.loop ⟨0, 2, some 3⟩) s = true ∧
     (let b : LaneW := ⟨false, 1, 15, 0, 0, 4, some 0xFFFF0000⟩
      (laneTransfers b).any (fun x => Clear x.1 s && x.2.all fun y => !y.isEmpty s.w) = true ∧ s.w.acts b ≠ 0) ∧
     let b : LaneW := ⟨false, 1, 15, 0, 0, 0, none⟩
     (laneTransfers b).any (fun x => Clear x.1 s && x.2.all fun y => !y.isEmpty s.w) = true ∧ s.w.acts b ≠ 0) ∧
    let s := wRep.setWarpAt 0 0 { placedWarp with loops := [⟨0, 0, 3⟩] }
    let r : RepW := ⟨2, 1, 0, 0, 0, 0, none⟩
    s.w.loops.find? (fun f => f.last == s.w.pc) = some ⟨0, 0, 3⟩ ∧ Clear (.rep r) s = true ∧ repReasons r s = [] := by decide +kernel

/-- RepIterates: the prefix at the first iteration, and the last two completions. -/
theorem witness_RepIterates :
    let r : RepW := ⟨2, 1, 0, 0, 0, 0, none⟩
    Clear (.rep r) wRep = true ∧ NoLoopEnd wRep.w = true ∧ repAllows r (.uadd ⟨3, 4, 5, 0, none⟩) = true ∧ wRep.w.repFrom ≤ r.cnt.toNat ∧
      (∃ b, wRep.fetchInstr wRep.w (wRep.w.pc + 4) = .ok (.ok (.uadd ⟨3, 4, 5, 0, none⟩), b)) ∧
    (∃ x, (stW repeating).w.rep = some x ∧ x.next + 1 < x.count) ∧ NoLoopEnd (stW repeating).w = true ∧
    ∃ x, (stW fun w => { w with pc := 4, rep := some ⟨0, 3, 0, 0, 0, 0, 2, 0, 0, 8⟩ }).w.rep = some x ∧ x.count ≤ x.next + 1 :=
  ⟨by decide, by decide, by decide, by decide, ⟨_, rfl⟩, ⟨_, rfl, by decide⟩, by decide, _, rfl, by decide⟩

/-- LanesLeave: an EXITL of some lanes of a child, and the EXIT of all. -/
theorem witness_LanesLeave :
    let i : Instr := .exitl ⟨false, 1, 15, 0, 0, 0, none⟩
    let s := stW fun w => { w with kind := .child, preds := [(1, 0xF)], div := [⟨8, 0xFF, true⟩], joins := [(0, 0x8000)] }
    Clear i s = true ∧ NoLoopEnd s.w = true ∧ s.w.acts (lOf i) = 0xF ∧ s.w.launchMask &&& ~~~0xF#32 ≠ 0 ∧ s.w.rep = none ∧ s.w.kind = .child ∧
    Clear (.exit ⟨0, 0, 0, 0, none⟩) w0 = true ∧ NoLoopEnd w0.w = true ∧ w0.w.launchMask &&& ~~~0xFFFFFFFF#32 = 0 := by decide

/-- DivergentBranch: all lanes, none, and some act. -/
theorem witness_DivergentBranch :
    let s := stW fun w => { w with preds := [(1, 0xF)], div := List.replicate 14 ⟨8, 0xFFFFFFFF, true⟩ }
    let b : BitVec 3 → LaneW := fun p => ⟨false, p, 15, 0, 0, 4, some 0xFFFF0000⟩
    Clear (.brd (b 7)) s = true ∧ NoLoopEnd s.w = true ∧ s.w.active &&& ~~~(s.w.acts (b 7)) = 0 ∧
    Clear (.brd (b 0)) s = true ∧ s.w.acts (b 0) = 0 ∧ s.w.active ≠ 0 ∧
    Clear (.brd (b 1)) s = true ∧ s.w.acts (b 1) ≠ 0 ∧ s.w.active &&& ~~~(s.w.acts (b 1)) ≠ 0 ∧ s.w.div.length ≤ 14 ∧
      s.w.nextRecord ≤ s.w.divFloor ∧ s.w.rep = none := by decide

/-- DivergentBranch: a warp at the resume address of its RECONV entry, one without active lanes, and one that neither concerns. -/
theorem witness_DivergentBranch_pops :
    let s := fun (pc : Word) (m : LaneMask) => stW fun w => { w with div := [⟨8, 0xF0, true⟩, ⟨0x40, 0xFF, false⟩], pc := pc, active := m }
    (∀ pc m, (s pc m).w.lent = 0 ∧ (s pc m).w.residents = 1 ∧ (s pc m).w.rep = none ∧ (s pc m).w.divSpilled = 0) ∧
    (∀ pc m, ((s pc m).w.div.find? fun x => !x.pending).map DivEntry.addr = some 0x40) ∧
    (s 0x40 0xF).w.pc = 0x40 ∧ (s 4 0).w.active = 0 ∧ (s 4 0).w.launchMask ≠ 0 ∧ (s 4 0xF).w.pc ≠ 0x40 ∧ (s 4 0xF).w.active ≠ 0 :=
  ⟨fun _ _ => ⟨rfl, rfl, rfl, rfl⟩, fun _ _ => rfl, rfl, rfl, by decide, by decide, by decide⟩

/-- DivergentBranch: a reload and a spill of a Hearth, whose addresses are physical. -/
theorem witness_DivergentBranch_spilled :
    (let w := { placedWarp with kind := .hearth, div := [⟨8, 0xF0, true⟩], divSpilled := 1 }
     ∃ u, w0.resolveAll 0 { w with div := [], active := 0xF0, pc := 8 } (spillReq false 16) false [(0, w.spillBase + w.spillSize - 16)] =
       .ok ([(0, .mem 0x10FFF0)], u)) ∧
    let w := { placedWarp with kind := .hearth, div := List.replicate 15 ⟨8, 0xF0, true⟩ ++ [⟨0x40, 0xFF, false⟩] }
    w.div.length = 16 ∧ w.div.getLast? = some ⟨0x40, 0xFF, false⟩ ∧ w.nextRecord + 16 ≤ w.divFloor ∧
      (∃ u, w0.resolveAll 0 w (spillReq true 16) false [(0, w.divFloor - 16)] = .ok ([(0, .mem 0x10FFF0)], u)) ∧
      regionOf 0x10FFF0 = 0 ∧ w0.mem.wf = true :=
  ⟨⟨_, rfl⟩, rfl, rfl, by decide, ⟨_, rfl⟩, by decide, by decide⟩

/-- DivergentBranch: a BRD of a Hearth whose stack has room for one of its two entries, and one with no room in the spill area. -/
theorem witness_DivergentBranch_full :
    let b : LaneW := ⟨false, 1, 15, 0, 0, 4, some 0xFFFF0000⟩
    let full := fun (n size : Nat) => stW fun w =>
      { w with kind := .hearth, preds := [(1, 0xF)], div := List.replicate n ⟨8, 0xFFFFFFFF, true⟩, spillSize := size }
    (let s := full 15 0x10000
     Clear (.brd b) s = true ∧ NoLoopEnd s.w = true ∧ s.w.acts b ≠ 0 ∧ s.w.active &&& ~~~(s.w.acts b) ≠ 0 ∧ s.w.rep = none ∧
     s.w.nextRecord + 16 * (s.w.div.length + 2 - 16) ≤ s.w.divFloor ∧
     (match s.pushDiv s.curCore s.w (.brd b) ⟨wordsFrom s.w.pc (b.vd ++ b.va ++ b.vb), s.w.active, false⟩ with
      | .ok (t, x) => (t.pushDiv t.curCore x (.brd b) ⟨s.w.pc + 8, s.w.active &&& ~~~(s.w.acts b), true⟩).isOk
      | .error _ => false) = true) ∧
    let s := full 16 31
    Clear (.brd b) s = true ∧ NoLoopEnd s.w = true ∧ s.w.acts b ≠ 0 ∧ s.w.active &&& ~~~(s.w.acts b) ≠ 0 ∧
      s.w.divFloor < s.w.nextRecord + 16 * (s.w.div.length + 2 - 16) := by decide +kernel

/-- TrapEntry: a warp with a handler, at ALIGN in a REP and at BRK and TRAP. -/
theorem witness_TrapEntry :
    let s := stW handled
    let r := stW fun w => handled (repeating w)
    s.w.handles gILLEGAL = true ∧ gILLEGAL < 25 ∧ s.w.rep = none ∧ r.w.handles gALIGN = true ∧ gALIGN < 25 ∧ gALIGN ≠ gILLEGAL ∧ gALIGN ≠ gEMPTY ∧
    NoLoopEnd s.w = true ∧ Clear (.brk ⟨0, 0, 0, 31, none⟩) s = true ∧ s.w.handles gBREAK = true ∧
    Clear (.trap ⟨0, 0, 0, 0, none⟩) s = true ∧ s.w.handles gSWTRAP = true := by decide

/-- CorrectRounding: finite values in order, both zeros, a tie of RINT, an infinity beside a zero, a negative finite value, NaNs of
both kinds, a subnormal result for FO, and FTAB of a bank of zeros. -/
theorem witness_CorrectRounding :
    (tyFloat 12 = true ∧ (4 : Nat) < 5 ∧ [0x3F800000, 0x40200000, 0xBF800000, 0, 0x80000000, 1].all (finiteCode 12) = true ∧
      ratOf 12 0x3F800000 < ratOf 12 0x40200000 ∧ ratOf 12 0 = ratOf 12 0x80000000 ∧ ratOf 12 0xBF800000 < 0) ∧
    IntegerOf 0 ((ratOf 12 0x40200000 : ℚ) : ℝ) 2 ∧
    (infCode 12 0x7F800000 = true ∧ nanCode 12 0x7FC00001 = true ∧ sigCode 12 0x7F800001 = true ∧ nanCode 8 0x80 = true ∧ sigCode 8 0x80 = false) ∧
    (expField 12 1 = 0 ∧ manField 12 1 ≠ 0) ∧
    (let y : FRes := ⟨0, 0, none⟩
     Memory.readN [] 0 4 = 0 ∧ finiteCode 12 0 = true ∧ (ratOf 12 0 - ratOf 12 0) * ratOf 12 0 = 0 ∧ ratOf 12 y.pat = 0 ∧ y.fl = 0 ∧ y.inf = none) := by
  have v : ratOf 12 0x40200000 = 5 / 2 := by decide +kernel
  refine ⟨by decide +kernel, ?_, by decide, by decide, by decide +kernel⟩
  rw [v]
  norm_num [IntegerOf, abs_of_neg]

/-- CorrectRounding: an integer and a power of two for FEXP2 and FLOG2; FDOT2 of F16 products with finite values, an infinity, a zero
beside it, and NaNs of both kinds. -/
theorem witness_CorrectRounding_more :
    ratOf 12 0x40000000 = 2 ∧ ratOf 12 0x3F000000 = 1 / 2 ∧ ratOf 12 0x40000000 = (2 : ℚ) ^ (1 : Int) ∧
    (tyFloat 10 = true ∧ 2 * tyWidth 10 = tyWidth 12 ∧ 0x3F800000 < 2 ^ tyWidth 12 ∧ finiteCode 12 0x3F800000 = true ∧ infCode 12 0x7F800000 = true ∧
      nanCode 12 0x7F800001 = true ∧ ([0x3C00, 0x0000, 0xBC00, 0x8000].all (finiteCode 10)) = true ∧ infCode 10 0x7C00 = true ∧ ratOf 10 0 = 0 ∧
      [0x3C00, 0x7C01, 0x7E00, 0].find? (nanCode 10) = some 0x7C01 ∧ sigCode 10 0x7C01 = true) := by decide +kernel

/-- TrapReturns: a TRAP and the TRET behind it; a TRET from a frame above the trap frame, to REP iteration 63. -/
theorem witness_TrapReturns :
    (let s := stW handled
     Clear (.trap ⟨0, 0, 0, 0, none⟩) s = true ∧ NoLoopEnd s.w = true ∧ s.w.rep = none ∧ s.w.handles gSWTRAP = true ∧
       s.w.spilled.length ≤ s.w.links.length ∧ s.w.pc.toNat + 4 < 2 ^ 52 ∧
       ∃ t, exec (.trap ⟨0, 0, 0, 0, none⟩) s = .next t ∧ Clear (.tret ⟨0, 0, 0, 0, none⟩) t = true ∧ NoLoopEnd t.w = true) ∧
    let s := stW fun w => { handled w with base := 32, m := 0, tstat := 0x1FF, tepc := 0x40,
                                           links := [⟨0x2000, 0, 0, false, false⟩, ⟨0x40, 32, 0, false, true⟩] }
    Clear (.tret ⟨0, 0, 0, 0, none⟩) s = true ∧ NoLoopEnd s.w = true ∧
      s.w.links = [⟨0x2000, 0, 0, false, false⟩] ++ ⟨0x40, 32, 0, false, true⟩ :: [] ∧ s.w.spilled.length ≤ 0 :=
  ⟨⟨by decide, by decide, rfl, by decide, by decide, by decide, _, rfl, by decide, by decide⟩, by decide, by decide, rfl, by decide⟩

/-- The module with a core 0 and a warp of ours. -/
def stC (g : Core → Core) (f : Warp → Warp) : State := let s := stW f; s.setCore 0 (g (s.core 0))
/-- Core 0 whose first and last scratchpad unit belong to the launch. -/
def withUnits (c : Core) : Core := { c with units := [(0, 1), (255, 1)] }
/-- A warp with p1 set in lane 31 alone. -/
def lane31 (w : Warp) : Warp := { w with preds := [(1, 0x80000000)] }
/-- A lane word guarded by p1. -/
def guarded (ty : BitVec 4) (vd va vb : BitVec 5) (tail : Option IWord) : LaneW := ⟨false, 1, ty, vd, va, vb, tail⟩

/-- DecodeTraps: ILL; a reserved opcode of each set at the pc of the next warp. -/
theorem witness_DecodeTraps_reserved :
    w0.w.status = .live ∧
    ∀ x ∈ [(0b0_0_1100100_0_111_0000_00000_00000_00000 : IWord), 0b1_0_1111111_000000_000000_000000_00000#32],
      let s := State.reset.withFetchWord 32 x.toNat
      let r := ({ s with schedule := [] } : State).pass
      s.schedule = [.issue 0 0] ∧ r.canIssue 0 0 = true ∧ r.mayGo 0 0 = true ∧ r.dispatches 0 0 = false ∧
        ∃ t, (r.turnTo 0 0).ahead = .ok t ∧ t.w.rep = none ∧
        (∃ b, t.fetchWord t.w t.w.pc.toNat = .ok b ∧ b = wordBytes x) ∧ x.getLsbD 30 = false ∧
        decodeWords x none = .error (if x.getLsbD 31 then .reservedUniform (opcOf x) else .reservedLane (opcOf x)) := by
  refine ⟨rfl, ?_⟩
  simp only [List.mem_cons, List.not_mem_nil, or_false, forall_eq_or_imp, forall_eq]
  exact ⟨⟨rfl, rfl, rfl, rfl, _, rfl, rfl, ⟨_, rfl, by decide⟩, by decide, rfl⟩, rfl, rfl, rfl, rfl, _, rfl, rfl, ⟨_, rfl, by decide⟩, by decide, rfl⟩

/-- DecodeTraps: a REP of an instruction that it may not repeat, ILLEGAL 9. -/
theorem witness_DecodeTraps_rep :
    let s := State.reset.withFetchWord 64 (0b1_0_0100000_00000000000000000000001 * 2 ^ 32 + 0b1_0_0101000_000010_01_00_00_00_000000000)
    let r : RepW := ⟨2, 1, 0, 0, 0, 0, none⟩
    s.w.status = .live ∧ (Instr.rep r).form.words.isSome = true ∧
      formReasons (Instr.rep r).form ++ stateReasons (.rep r) s ++ repReasons r s = [9] := by decide

/-- DecodeTraps: words with two reasons, the lowest 3; a Hearth command, a Stoker-privileged CSR, and breakpoint 3 at the pc. -/
theorem witness_DecodeTraps_gate :
    (let i : Instr := .iadd (lane 12 1 2 3 (some 0xA001))
     i.form.words.isSome = true ∧ formReasons i.form ++ stateReasons i w0 = [3, 5]) ∧
    (let i : Instr := .mbrecv ⟨1, 0, 0, 0, none⟩
     formReasons i.form ++ stateReasons i w0 = [] ∧ hearthOnly i.form = true ∧ w0.w.kind ≠ .hearth) ∧
    (let i : Instr := .csrr ⟨1, 0x3FF, 0, none⟩
     formReasons i.form ++ stateReasons i w0 = [] ∧ csrPriv 0x3FF = true) ∧
    let s := stW fun w => { w with bpaddr := [(0, 9), (3, 1)] }
    let i : Instr := .nop ⟨0, 0, 0, 0, none⟩
    formReasons i.form ++ stateReasons i s = [] ∧ privDetail i (s.w.kind == .hearth) = none ∧ s.w.suppress = false ∧ s.w.rep = none ∧
      s.w.repFrom = 0 ∧ s.w.active ≠ 0 ∧ s.w.pc.toNat < 2 ^ 52 ∧
      ∀ m < 4, ((AMap.get 0 s.w.bpaddr m).getLsbD 0 = true ∧ (AMap.get 0 s.w.bpaddr m).extractLsb' 2 50 = s.w.pc.extractLsb' 2 50) ↔ m = 3 := by
  decide

/-- DecodeTraps: words of every class that a row speaks of, with the lowest reason of their rows, and words that none does. -/
theorem witness_DecodeTraps_misuses :
    let least := fun (i : Instr) => (((misuses i w0).filter fun x => x.1).map fun x => x.2).min?
    ([((.iadd ⟨true, 7, 2, 1, 2, 3, none⟩ : Instr), 2), (.iadd (lane 12 1 2 3 (some 0xA001)), 3), (.fcvt (lane 12 1 2 0 (some 0x20001)), 12),
      (.fadd (lane 12 1 2 3 (some 0xF)), 6), (.lred (lane 12 1 2 0 (some 0xA001)), 5), (.pack (lane 14 1 2 3 (some 0)), 3),
      (.ld (lane 2 1 2 0 (some 0x3401)), 7), (.exitl (lane 15 1 0 0 none), 4), (.nop ⟨0, 0, 0, 1, none⟩, 1), (.uclz ⟨1, 2, 0, 0, some 0⟩, 8),
      (.loop ⟨0, 1, some 3⟩, 12), (.rep ⟨1, 0, 0, 0, 0, 1, none⟩, 9), (.csrr ⟨1, 0x009, 0, none⟩, 10), (.tret ⟨0, 0, 0, 0, none⟩, 11)].all
        fun x => x.1.form.words.isSome && least x.1 == some x.2) = true ∧
    ([(.iadd (lane 2 1 2 3 none) : Instr), .pack (lane 10 1 2 3 (some 0xC0001)), .ld (lane 2 1 2 0 (some 0x4441)), .nop ⟨0, 0, 0, 0, none⟩,
      .csrw ⟨0, 0x10, 0, some 9⟩].all fun i => i.form.words.isSome && least i == none) = true ∧ w0.w.status = .live := by decide +kernel

/-- The placed module whose leaf has other rights (R212): bits R, W and X. -/
def withLeaf (rights : Nat) : State := { w0 with mem := w0.mem.writeBytes 0x2020000 (leBytes 8 (0x4000003 + 4 * rights)) }

/-- AccessFaults: misaligned, in an absent page, in a page without R and in one without W. -/
theorem witness_AccessFaults_uniform :
    (let s := stW (withK [(1, 7)])
     Clear (.uld ⟨2, 1, 0, 0, none⟩) s = true ∧ ReadableK s.w [1, 0] = true ∧ s.w.kIsEmpty 2 = false ∧ (uniAddr s.w ⟨2, 1, 0, 0, none⟩ true).toNat % 8 ≠ 0) ∧
    (let s := stW (withK [(1, 0xFFFFFFFFFFFF8)])
     Clear (.ust ⟨2, 1, 0, 0, none⟩) s = true ∧ ReadableK s.w [1, 0, 2] = true ∧ uniAddr s.w ⟨2, 1, 0, 0, none⟩ true = 0xFFFFFFFFFFFF8 ∧
       s.w.kind ≠ .hearth ∧ watchMatch s.w (reqOf 0 1 3 true) 0xFFFFFFFFFFFF8 = none ∧
       (∃ l, s.launch? s.w.launch = some l ∧ ∃ sp, AMap.find? s.aspaces l.asid = some sp ∧ s.walk sp.root 0xFFFFFFFFFFFF8 = .absent) ∧
       s.co.tlb = [] ∧ (s.die (dieOf s.curCore)).tlb = []) ∧
    (let s := withLeaf 2
     Clear (.uld ⟨2, 0, 0, 0, none⟩) s = true ∧ ∃ p, s.walk placedRoot 0 = .leaf p ∧ p.r = false) ∧
    let s := withLeaf 1
    Clear (.ust ⟨2, 0, 0, 0, none⟩) s = true ∧ ∃ p, s.walk placedRoot 0 = .leaf p ∧ p.w = false :=
  ⟨by decide, ⟨by decide, by decide, by decide, by decide, by decide, ⟨_, rfl, _, rfl, rfl⟩, rfl, rfl⟩, ⟨by decide, _, rfl, rfl⟩, by decide, _, rfl, rfl⟩

/-- Whether the lanes of a memory instruction meet a condition, and which group comes first (R351). -/
def laneFails (s : State) (i : Instr) : Option (Nat × Nat) :=
  match (laneAccesses s.w (lOf i)).find? (fun x => x.instr == i) with
  | none => none
  | some x =>
    if Clear i s && s.w.acts (lOf i) != 0 && (memSrcs (lOf i) x.readsB x.readsC).all (fun y => !y.isEmpty s.w) then
      ((s.resolveList s.curCore s.w ((laneAddrs s.w (lOf i) (s.w.acts (lOf i))).map fun y => (y.1, x.req, y.2))).1.filterMap fun o =>
        match o.2 with | .error e => some (o.1, e.group) | .ok _ => none).head?
    else none

/-- AccessFaults: the first lane that fails and its group: LD of a misaligned place, ST under a watchpoint, LD of an absent page,
ATOM of a page without W, LDS of a unit that is not the launch's, and STC beyond the window. -/
theorem witness_AccessFaults_lanes :
    (let far := fun (a : Word) => stW fun w => { lane31 w with vregs := [(2, Lanes.of fun _ => a)] }
     laneFails (far 1) (.ld (guarded 2 1 2 0 none)) = some (31, gALIGN) ∧
     laneFails (far 0x40000000) (.ld (guarded 2 1 2 0 none)) = some (31, gXLATE) ∧
     laneFails (far 0) (.lds (guarded 2 1 2 0 none)) = some (31, gPERM) ∧
     laneFails (far 0x10000000) (.stc (guarded 2 0 2 3 none)) = some (31, gPERM)) ∧
    laneFails (stW fun w => { lane31 w with wpctl := [(0, 0x0A)] }) (.st (guarded 2 0 2 3 none)) = some (31, gWATCH) ∧
    laneFails ((withLeaf 1).setWarpAt 0 0 (lane31 placedWarp)) (.atom (guarded 2 0 2 3 (some 0x40002001))) = some (31, gPERM) := by decide +kernel

/-- AccessFaults: what a resolution meets: a watchpoint of each number, and none; a unit that is owned and one that is not; a page
of each kind, an address region that its instruction does not reach, a stale generation and a lost die. -/
theorem witness_AccessFaults_resolve :
    (let w := { placedWarp with wpctl := [(0, 0x0A), (1, 0x4D)], wpaddr := [(0, 8), (1, 16)] }
     (watchMatch w (reqOf 0 1 2 true) 8 = some 0 ∧ watchMatch w (reqOf 0 0 2 true) 8 = none ∧ watchMatch w (reqOf 1 0 2 true) 16 = some 1) ∧
     watchMatch { w with suppress := true } (reqOf 0 1 2 true) 8 = none) ∧
    (let s := stC withUnits id
     AMap.find? (s.core 0).units (0xFFFFF / 4096) = some s.w.launch ∧ AMap.find? (s.core 0).units (0x1000 / 4096) = none ∧
       s.w.kind ≠ .hearth ∧ s.w.launch ≠ 0) ∧
    ((withLeaf 3).walk placedRoot 0 = .leaf ⟨placedPage, 0x200000, true, true, false⟩ ∧ w0.walk placedRoot 0x200000 = .absent ∧
      ({ w0 with mem := w0.mem.writeBytes 0x2020000 (leBytes 8 0x23) } : State).walk placedRoot 0 = .malformed) ∧
    (regionOf (2 ^ 45 + 2 ^ 44) = 3 ∧ regionOf (2 ^ 44) = 1) ∧
    (let s := { w0 with aspaces := [(1, ⟨true, placedRoot, 1⟩)] }
     (AMap.find? s.aspaces 1).map (fun x => x.gen) = some 1 ∧ (s.launch? 1).map (fun l => l.gen) = some 0) ∧
    (w0.setDie 0 { w0.die 0 with isolated := true }).onLostDie placedPage = true ∧ w0.onLostDie placedPage = false := by decide

/-- AccessFaults: v3 empty under its trap bit, v2 empty without one, and an empty destination. -/
theorem witness_AccessFaults_empty :
    let s := stW fun w => { w with vEmpty := [2, 3] }
    let i := lane 2 1 2 3 (some 0x101)
    let j := lane 2 2 4 5 none
    Clear (.iadd i) s = true ∧ s.w.acts i ≠ 0 ∧ (intResults i).head?.map (fun x => x.1) = some (.iadd i) ∧
      ((arithSrcs s.w i true true false).find? (fun y => y.trap && y.isEmpty s.w)).map (fun y => (y.reg, y.pos)) = some (3, 1) ∧
    Clear (.iadd j) s = true ∧ ((arithSrcs s.w j true true false).all fun y => !y.trap || !y.isEmpty s.w) = true ∧ s.w.vIsEmpty 2 = true ∧
    ((arithSrcs s.w (lane 2 1 2 4 none) true true false).any fun y => y.isEmpty s.w) = true := by decide

/-- AccessFaults: uniform words with an empty source and an empty destination, and a poisoned k2 that UADD and UST read. -/
theorem witness_AccessFaults_uniformReaders :
    (let s := stW fun w => { w with kEmpty := [2] }
     ∀ x ∈ [((.uadd ⟨3, 2, 5, 0, none⟩ : Instr), [2, 5], some 3), (.uadd ⟨2, 4, 5, 0, none⟩, [4, 5], some 2)],
       Clear x.1 s = true ∧ (uniReaders s.w (uOf x.1)).contains x = true ∧ (s.w.kIsEmpty 2 = true)) ∧
    let s := stW fun w => { w with kPoison := [⟨2, 0, 2, 0, 0, 0, 0⟩] }
    (let u : UniW := ⟨3, 2, 5, 0, none⟩
     Clear (.uadd u) s = true ∧ (uniReaders s.w u).contains (.uadd u, [2, 5], some 3) = true ∧ s.w.kIsEmpty 3 = false ∧
       (firstPoison s.w ([2, 5].map kSrc) 0).isSome = true) ∧
    let u : UniW := ⟨2, 1, 0, 0, none⟩
    Clear (.ust u) s = true ∧ (∀ k ∈ [1, 0, 2], s.w.kIsEmpty k = false) ∧ (firstPoison s.w ([1, 0, 2].map kSrc) 0).isSome = true ∧
      ∃ q a, ((.ust u, [1, 0, 2], none), q, a) ∈ uniAccesses s.w u ∧ ∃ r, s.resolveOne q a = .ok r :=
  ⟨by decide +kernel, by decide +kernel, by decide, by decide, by decide, _, _, .tail _ (.head _), _, rfl⟩

/-- AccessFaults: v2 poisoned in lanes 3 and 9, read by instructions of each class; and the same instructions with v2 empty. -/
theorem witness_AccessFaults_laneReaders :
    let l : List Instr := [.iadd (lane 2 1 2 3 none), .ffma (lane 12 1 2 3 (some 0x20000001)), .sel (lane 15 1 2 3 (some 0xE0001)),
      .ftab (lane 12 1 2 0 (some 0x70001)), .fcvt (lane 12 1 2 0 (some 0xA0001)), .isetp (lane 2 7 2 3 (some 0xD0001)), .unpack (lane 12 1 2 0 (some 0xA0003)),
      .lred (lane 2 31 2 0 none), .ld (lane 2 1 2 0 none), .st (lane 2 0 2 3 none)]
    let reads := fun (s : State) (i : Instr) => (laneReaders s.w (lOf i) ++ memReaders s.w (lOf i)).find? fun x => x.1 == i && Clear i s
    (let s := stW fun w => { w with vPoison := [⟨2, 3, 2, 0, 0, 0, 0⟩, ⟨2, 9, 1, 0x40, 0, 0, 0⟩] }
     (l.all fun i => match reads s i with
      | some x => x.2.1.all (fun y => !y.isEmpty s.w) && (match x.2.2 with | some r => !s.w.vIsEmpty r | none => true) &&
          (s.w.acts (lOf i)).getLsbD 3 && (firstPoison s.w x.2.1 3).isSome && (List.range 3).all fun k => (firstPoison s.w x.2.1 k).isNone
      | none => false) = true ∧
     let s := stW fun w => { lane31 w with vPoison := [⟨2, 31, 2, 0, 0, 0, 0⟩] }
     let i := guarded 2 1 2 0 none
     Clear (.ld i) s = true ∧ s.w.acts i = 0x80000000 ∧ (firstPoison s.w (memSrcs i false false) 31).isSome = true ∧
     ((laneAccesses s.w i).filter fun x => x.instr == .ld i).map (fun x => x.req) = [reqOf 0 0 2 true] ∧
     ∃ r, s.resolveAll s.curCore s.w (reqOf 0 0 2 true) false (laneAddrs s.w i (s.w.acts i)) = .ok r) ∧
    let s := stW fun w => { w with vEmpty := [2] }
    (l.all fun i => match reads s i with
     | some x => x.2.1.any (fun y => y.isEmpty s.w) && x.2.1.all fun y => !y.trap
     | none => false) = true := ⟨⟨by decide +kernel, by decide, by decide, by decide, by decide, _, rfl⟩, by decide +kernel⟩

/-- AccessFaults: a Hearth's physical address beyond the space, in regions 0, 1 and 3, and on a lost die; a cached translation that
agrees with the walk. -/
theorem witness_AccessFaults_physical :
    (paExists 0x4000000 = true ∧ regionOf 0x4000000 = 0 ∧ paExists (2 ^ 45 + 2 ^ 44) = true ∧ regionOf (2 ^ 45 + 2 ^ 44) = 3 ∧ paExists (2 ^ 44) = true ∧
      regionOf (2 ^ 44) = 1 ∧ paExists (2 ^ 43) = false) ∧
    let s := w0.setDie 0 { w0.die 0 with tlb := [⟨1, 0, 0, 0x200000, placedPage, true, true, true⟩] }
    (s.die (dieOf 0)).tlb ≠ [] ∧ s.cachesAgree 0 1 placedRoot 0 0 :=
  ⟨by decide, by decide, fun e h _ _ _ _ => by cases h with | head => rfl | tail _ h => cases h⟩

/-- StokerTraps: an ALIGN in a warp without a handler, of a launch without and with a record. -/
theorem witness_StokerTraps :
    let t := trapOf true gALIGN 1 0 0
    t.group ≠ gXLATE ∧ w0.w.handles t.group = false ∧ w0.w.rep = none ∧ t.group < 25 ∧ t.group ≠ gGEN ∧ t.group ≠ gHWERR ∧
      (∃ l, w0.launch? w0.w.launch = some l ∧ l.trap = none) ∧ ∃ r, (((w0.takeTrap t).launch? w0.w.launch).map fun l => l.trap) = some (some r) :=
  ⟨by decide, by decide, rfl, by decide, by decide, by decide, ⟨_, rfl, rfl⟩, _, rfl⟩

/-- LaneLoads and LaneStores: LD and ST in device memory at the end of a line, LDS, STS, LDC and STC in every lane. -/
theorem witness_LaneLoads :
    (let s := stW lane31
     let i := guarded 15 1 2 0 (some 0xF80000)
     Clear (.ld i) s = true ∧ s.w.acts i ≠ 0 ∧ Readable s.w (s.w.acts i) (memSrcs i false false) = true ∧ s.w.vIsEmpty 1 = false ∧
       ∃ ps t, s.resolveAll s.curCore s.w (reqOf 0 0 (tyLog i.t) true) false (laneAddrs s.w i (s.w.acts i)) = .ok (ps, t) ∧ ps = [(31, .mem 0x40000F8)]) ∧
    let s := stC withUnits id
    let i := lane 2 1 2 0 none
    Clear (.lds i) s = true ∧ Clear (.ldc i) s = true ∧ s.w.acts i ≠ 0 ∧ Readable s.w (s.w.acts i) (memSrcs i false false) = true ∧ s.w.vIsEmpty 1 = false ∧
      (∃ ps t, s.resolveAll s.curCore s.w (reqOf 1 0 (tyLog i.t) true) false (laneAddrs s.w i (s.w.acts i)) = .ok (ps, t) ∧ ps.length = 32) ∧
      ∃ ps t, s.resolveAll s.curCore s.w (reqOf 2 0 (tyLog i.t) true) false (laneAddrs s.w i (s.w.acts i)) = .ok (ps, t) ∧ ps.length = 32 :=
  ⟨⟨by decide, by decide, by decide, by decide, _, _, rfl, by decide⟩, by decide, by decide, by decide, by decide, by decide, ⟨_, _, rfl, by decide⟩, _, _, rfl, by decide⟩

/-- LaneLoads and UniformMemory: acquiring loads at .c, and one at .w with REM. -/
theorem witness_acquiring :
    (let i := guarded 15 1 2 0 (some 0xF84800)
     Clear (.ld i) (stW lane31) = true ∧ ordAcq i.ord = true ∧ 2 ≤ i.scp) ∧
    (let i := guarded 15 1 2 0 (some 0xF84040)
     Clear (.ld i) (stW lane31) = true ∧ ordAcq i.ord = true ∧ i.rem = true) ∧
    (let u : UniW := ⟨0, 0, 0, 0, some 0x4800⟩
     Clear (.uld u) w0 = true ∧ ordAcq (bits u.cw 15 13) = true ∧ 2 ≤ bits u.cw 12 10) ∧
    let u : UniW := ⟨0, 0, 0, 0, some 0x4040⟩
    Clear (.uld u) w0 = true ∧ ordAcq (bits u.cw 15 13) = true ∧ bit u.cw 6 = true :=
  ⟨⟨by decide, by decide, by decide⟩, ⟨by decide, by decide, by decide⟩, ⟨by decide, by decide, by decide⟩, by decide, by decide, by decide⟩

/-- R228: a line of zeros whose first four bytes the core's own store has written last does not answer an atomic load of eight;
it answers one of those four, and a plain load. -/
theorem test_atomicLoad_wholeMoment :
    let x : L1Line := ⟨0x40000, [], false, [(0, 4)]⟩
    let s := (stC (fun c => { c with l1 := [x] }) id)
    x.serves 0 8 true = false ∧ x.serves 0 4 true = true ∧ x.serves 0 8 false = true ∧
      (({ s with mem := s.mem.writeBytes 0x4000000 (leBytes 8 5) } : State).loadPhys 0 0x4000000 8 0 true).1 = leBytes 8 5 := by decide

/-- R22, R162: fields of a WID of widths 4 and 8; 0 at N and in a child warp. -/
theorem test_widf_fields :
    let w := { placedWarp with wid := 0xAB5, widfmt := 2 * 2 ^ 36 + 8 * 2 ^ 6 + 4 }
    [0, 1, 2].map w.widField = [5, 0xAB, 0] ∧ ({ w with kind := .child } : Warp).widField 1 = 0 := by decide

/-- R171: EXIT empties the masks and both stacks. -/
theorem test_exit_empties :
    let s := stW fun w => { w with div := [⟨8, 0xFF, true⟩], loops := [⟨0, 8, 2⟩] }
    (match exec (.exit ⟨0, 0, 0, 0, none⟩) s with
     | .next t => t.w.status == .retired && t.w.active == 0 && t.w.launchMask == 0 && t.w.div == [] && t.w.loops == []
     | _ => false) = true := by decide +kernel

theorem witness_LaneStores :
    (let s := stW lane31
     let i := guarded 15 0 2 3 (some 0xF80000)
     Clear (.st i) s = true ∧ s.w.acts i ≠ 0 ∧ Readable s.w (s.w.acts i) (memSrcs i true false) = true ∧
       ∃ ps t, s.resolveAll s.curCore s.w (reqOf 0 1 (tyLog i.t) true) false (laneAddrs s.w i (s.w.acts i)) = .ok (ps, t) ∧ s.plain ps = true) ∧
    let s := stC withUnits id
    let i := lane 2 0 2 3 none
    Clear (.sts i) s = true ∧ Clear (.stc i) s = true ∧ s.w.acts i ≠ 0 ∧ Readable s.w (s.w.acts i) (memSrcs i true false) = true ∧
      (∃ ps t, s.resolveAll s.curCore s.w (reqOf 1 1 (tyLog i.t) true) false (laneAddrs s.w i (s.w.acts i)) = .ok (ps, t) ∧ s.plain ps = true) ∧
      ∃ ps t, s.resolveAll s.curCore s.w (reqOf 2 1 (tyLog i.t) true) false (laneAddrs s.w i (s.w.acts i)) = .ok (ps, t) ∧ s.plain ps = true :=
  ⟨⟨by decide, by decide, by decide, _, _, rfl, by decide⟩, by decide, by decide, by decide, by decide, ⟨_, _, rfl, by decide⟩, _, _, rfl, by decide⟩

/-- LaneAtomics: ATOM in device memory and in every lane of the cluster window, CAS, FADDA and FADDO in device memory. -/
theorem witness_LaneAtomics :
    (let s := stC withUnits id
     let i := lane 2 1 2 3 (some 0x80002001)
     Clear (.atom i) s = true ∧ s.w.acts i ≠ 0 ∧ Readable s.w (s.w.acts i) (memSrcs i true false) = true ∧ s.w.vIsEmpty 1 = false ∧
       ∃ ps t, s.resolveAll s.curCore s.w (reqOf 2 2 (tyLog i.t) true) false (laneAddrs s.w i (s.w.acts i)) = .ok (ps, t) ∧
         s.plain ps = true ∧ inWholes (tyWidth i.t / 8) ps = true) ∧
    ∀ x ∈ [((.atom (guarded 2 0 2 3 (some 0x48002001)) : Instr), false),
           (.cas (guarded 3 1 2 3 (some 0x20002001)), true), (.fadda (guarded 12 0 2 3 (some 0x2001)), false), (.faddo (guarded 12 0 2 3 (some 0x2001)), false)],
      let s := stW lane31
      let i := lOf x.1
      Clear x.1 s = true ∧ s.w.acts i ≠ 0 ∧
        Readable s.w (s.w.acts i) (memSrcs i true x.2) = true ∧
        ∃ ps t, s.resolveAll s.curCore s.w (reqOf 0 2 (tyLog i.t) (x.1 == .atom i && (i.atomOp == 0 || i.atomOp == 6) || x.1 == .cas i)) false
          (laneAddrs s.w i (s.w.acts i)) = .ok (ps, t) ∧ s.plain ps = true ∧ inWholes (tyWidth i.t / 8) ps = true := by
  refine ⟨⟨by decide, by decide, by decide, by decide, _, _, rfl, by decide, by decide⟩, ?_⟩
  simp only [List.mem_cons, List.not_mem_nil, or_false, forall_eq_or_imp, forall_eq]
  exact ⟨⟨by decide, by decide, by decide, _, _, rfl, by decide, by decide⟩, ⟨by decide, by decide, by decide, _, _, rfl, by decide, by decide⟩,
    ⟨by decide, by decide, by decide, _, _, rfl, by decide, by decide⟩, ⟨by decide, by decide, by decide, _, _, rfl, by decide, by decide⟩⟩

/-- TagsAndCounters: every lane, aligned; for TINS a slot of the set, lane 31 the highest; and no tag twice in a set. -/
theorem witness_TagsAndCounters :
    let s := stW fun w => { w with vregs := [(2, Lanes.of fun l => BitVec.ofNat 64 (65536 * l + 0xFF00)), (3, Lanes.of fun _ => 0x7FF)] }
    let i := lane 15 1 2 0 none
    let j := lane 15 0 2 3 none
    s.w.acts i = 0xFFFFFFFF ∧ Readable s.w (s.w.acts i) (memSrcs i false false) = true ∧ s.w.vIsEmpty 1 = false ∧
      (∀ l < 32, (laneAddr s.w i l).toNat % 8 = 0 ∧ (laneAddr s.w i l).toNat < 2 ^ 52) ∧
    Clear (.pfetch (lane 15 0 2 0 none)) s = true ∧ Clear (.tlook i) s = true ∧ Clear (.tinv (lane 15 0 2 0 none)) s = true ∧
    Clear (.rcnt (lane 15 0 2 0 none)) s = true ∧
    Clear (.tins j) s = true ∧ Readable s.w (s.w.acts j) (memSrcs j true false) = true ∧
      (∀ l < 32, bits ((s.w.v 3).getD l 0).toNat 10 3 = bits (laneAddr s.w j l).toNat 15 8) ∧ s.co.tags = [] := by decide

/-- A core whose set 255 holds lane 31's tag of `witness_TagsAndCounters` in way 0. -/
def taggedCore : State :=
  stC (fun c => { c with tags := [(2040, 31)] })
    fun w => { w with vregs := [(2, Lanes.of fun l => BitVec.ofNat 64 (65536 * l + 0xFF00)), (3, Lanes.of fun _ => 0x7FF)] }

/-- TagsAndCounters: a tag that is valid in another way of its set, and no tag twice. R377: the TINS clears that way. -/
theorem witness_TagsAndCounters_other :
    tagWay taggedCore.co.tags 255 31 = some 0 ∧ 8 * 255 + 0 ≠ 0x7FF ∧
    (∀ st tag y z, y < 8 → z < 8 → AMap.find? taggedCore.co.tags (8 * st + y) = some tag → AMap.find? taggedCore.co.tags (8 * st + z) = some tag → y = z) ∧
    tagWay (tagInsert taggedCore.co (65536 * 31 + 0xFF00) 0x7FF).tags 255 31 = some 7 := by
  refine ⟨by decide, by decide, fun st tag y z _ _ a b => ?_, by decide⟩
  have one : ∀ k, AMap.find? taggedCore.co.tags k = some tag → k = 2040 := by
    intro k h
    rw [show taggedCore.co.tags = [(2040, 31)] from rfl] at h
    simp only [AMap.find?] at h
    split at h <;> simp_all
  have := one _ a; have := one _ b; omega

/-- UniformMemory: ULD to kd = k0 of device memory, ULD of a byte of the last scratchpad unit, UST of a half word, UATOM with and without NR. -/
theorem witness_UniformMemory :
    (let u : UniW := ⟨0, 0, 0, 0, none⟩
     Clear (.uld u) w0 = true ∧ ReadableK w0.w [0, 0] = true ∧ w0.w.kIsEmpty 0 = false ∧
       ∃ p t, w0.resolveOne (reqOf (cwSpace u.cw) 0 (cwLog u.cw) true) (uniAddr w0.w u true) = .ok (p, t) ∧ p.inside = true) ∧
    (let s := stC withUnits (withK [(1, 0xFFFFF)])
     let u : UniW := ⟨2, 1, 0, 0, some 0x184⟩
     Clear (.uld u) s = true ∧ ReadableK s.w [1, 0] = true ∧ s.w.kIsEmpty 2 = false ∧
       ∃ p t, s.resolveOne (reqOf (cwSpace u.cw) 0 (cwLog u.cw) true) (uniAddr s.w u true) = .ok (p, t) ∧ p.inside = true) ∧
    (let s := stW (withK [(1, 0x1FFFFE), (2, 5)])
     let u : UniW := ⟨2, 1, 0, 0, some 0x200⟩
     Clear (.ust u) s = true ∧ ReadableK s.w [1, 0, 2] = true ∧
       ∃ p t, s.resolveOne (reqOf (cwSpace u.cw) 1 (cwLog u.cw) true) (uniAddr s.w u true) = .ok (p, t) ∧ s.plain [(0, p)] = true) ∧
    ∀ u ∈ [(⟨3, 1, 2, 7, some 0x2000⟩ : UniW), ⟨0, 1, 2, 24, some 0x2000⟩],
      Clear (.uatom u) w0 = true ∧ ReadableK w0.w [1, 2] = true ∧ w0.w.kIsEmpty u.kd.toNat = false ∧
        ∃ p t, w0.resolveOne (reqOf (cwSpace u.cw) 2 (cwLog u.cw) (u.f5.toNat % 8 == 0 || u.f5.toNat % 8 == 6)) (uniAddr w0.w u false) = .ok (p, t) ∧
          w0.plain [(0, p)] = true := by
  refine ⟨⟨by decide, by decide, by decide, _, _, rfl, by decide⟩, ⟨by decide, by decide, by decide, _, _, rfl, by decide⟩,
    ⟨by decide, by decide, _, _, rfl, by decide⟩, ?_⟩
  simp only [List.mem_cons, List.not_mem_nil, or_false, forall_eq_or_imp, forall_eq]
  exact ⟨⟨by decide, by decide, by decide, _, _, rfl, by decide⟩, by decide, by decide, by decide, _, _, rfl, by decide⟩

/-- SpawnsSetOut: SPAWN of every lane without counters, SPAWN of lane 31 with one, and SPAWNT of lane 31. -/
theorem witness_SpawnsSetOut :
    (let i := lane 15 1 2 4 (some 0x80000)
     Clear (.spawn i) w0 = true ∧ NoLoopEnd w0.w = true ∧ w0.w.acts i ≠ 0 ∧ Readable w0.w (w0.w.acts i) (spawnSrcs i false) = true ∧
       ∃ joins t, w0.resolveReqs w0.curCore w0.w false (spawnReqs w0.w i false) = .ok (joins ++ [], t) ∧ joins.length = (spawnJoiners w0.w i).length ∧
         w0.plain joins = true ∧ inWholes 8 joins = true) ∧
    (let s := stW fun w => { lane31 w with vregs := [(1, Lanes.of fun _ => 0x100)] }
     let i := guarded 15 1 2 4 (some 0xFFFF0000)
     Clear (.spawn i) s = true ∧ NoLoopEnd s.w = true ∧ s.w.acts i ≠ 0 ∧ Readable s.w (s.w.acts i) (spawnSrcs i false) = true ∧
       ∃ joins t, s.resolveReqs s.curCore s.w false (spawnReqs s.w i false) = .ok (joins ++ [], t) ∧ joins.length = (spawnJoiners s.w i).length ∧
         s.plain joins = true ∧ inWholes 8 joins = true) ∧
    let s := stW fun w => withK [(8, 0x40)] (lane31 w)
    let i := guarded 15 1 2 0 (some 0x30080001)
    Clear (.spawnt i) s = true ∧ NoLoopEnd s.w = true ∧ s.w.acts i ≠ 0 ∧ Readable s.w (s.w.acts i) (spawnSrcs i true) = true ∧
      (s.w.k (bits i.fn 5 0)).toNat = 0x40 ∧
      ∃ places t, s.resolveReqs s.curCore s.w false (spawnReqs s.w i true) = .ok ([] ++ places, t) ∧ (spawnJoiners s.w i).length = 0 ∧
        ∀ p ∈ places, ∃ pa, p.2 = .mem pa ∧ regionOf pa = 0 :=
  ⟨⟨by decide, by decide, by decide, by decide, [], _, rfl, by decide, by decide, by decide⟩,
   ⟨by decide, by decide, by decide, by decide, [(31, .mem 0x4000100)], _, rfl, by decide, by decide, by decide⟩,
   by decide, by decide, by decide, by decide, by decide, [(31, .mem 0x4000000)], _, rfl, by decide, by simp; decide⟩

/-- A core 0 with block 0 of two warps, in slots 0 and 1, some arrived and some retired. -/
def twoWarps (arrived retired : List Nat) (c : Core) : Core :=
  { c with blocks := [(0, ⟨1, 0, 0, 0, [0, 1], 0, arrived, retired, [], none⟩)] }

/-- BarrierArrivals: outside a block; the first of two warps; the last, behind one that retired. -/
theorem witness_BarrierArrivals :
    let i : Instr := .bar ⟨0, 0, 0, 0, none⟩
    (let s := stW fun w => { w with kind := .child }
     Clear i s = true ∧ s.w.kind ≠ .block) ∧
    (let s := stC (twoWarps [] []) id
     Clear i s = true ∧ s.w.kind = .block ∧ ∃ b, AMap.find? s.co.blocks s.w.block = some b ∧ 1 < b.slots.length ∧ 1 ≠ s.w.idx ∧ 1 ∉ b.arrived ∧ 1 ∉ b.retired) ∧
    ∀ x ∈ [([1], ([] : List Nat)), ([], [1])], let s := stC (twoWarps x.1 x.2) id
      Clear i s = true ∧ s.w.kind = .block ∧ ∃ b, AMap.find? s.co.blocks s.w.block = some b ∧
        (∀ j < b.slots.length, j = s.w.idx ∨ j ∈ b.arrived ∨ j ∈ b.retired) ∧ s.curSlot ∈ b.slots := by
  refine ⟨by decide, ⟨by decide, rfl, _, rfl, by decide, by decide, by decide, by decide⟩, ?_⟩
  simp only [List.mem_cons, List.not_mem_nil, or_false, forall_eq_or_imp, forall_eq]
  exact ⟨⟨by decide, rfl, _, rfl, by decide, by decide⟩, by decide, rfl, _, rfl, by decide, by decide⟩

/-- The placed module with channel 15 of die 0. -/
def withChannel (c : Channel) : State := w0.setDie 0 { w0.die 0 with chimney := [(15, c)] }

/-- ChimneyArrivals: a module channel; a die channel with an arrival to come; and the last arrival. -/
theorem witness_ChimneyArrivals :
    (Clear (.chim ⟨0, 0, 0, 31, none⟩) (withChannel ⟨1, 2, true, 0, 0⟩) = true ∧
      AMap.find? ((withChannel ⟨1, 2, true, 0, 0⟩).die (dieOf 0)).chimney 15 = some ⟨1, 2, true, 0, 0⟩) ∧
    (Clear (.chim ⟨0, 0, 0, 15, none⟩) (withChannel ⟨1, 2, false, 0, 0⟩) = true ∧ (0 : Nat) + 1 < 2 ∧
      AMap.find? ((withChannel ⟨1, 2, false, 0, 0⟩).die (dieOf 0)).chimney 15 = some ⟨1, 2, false, 0, 0⟩) ∧
    Clear (.chim ⟨0, 0, 0, 15, none⟩) (withChannel ⟨1, 2, false, 1, 9⟩) = true ∧
      AMap.find? ((withChannel ⟨1, 2, false, 1, 9⟩).die (dieOf 0)).chimney 15 = some ⟨1, 2, false, 1, 9⟩ := by decide

/-- FencesAndBatches: FENCE; CLOSEB of an open batch behind one; WAITB on nothing left, on a batch left, and on a failed copy. -/
theorem witness_FencesAndBatches :
    let s := stW fun w => { handled w with newest := 4, openLeft := 1, batches := [⟨4, 2⟩] }
    let f := stW fun w => { handled w with newest := 4, failed := [⟨0, gCOPY, 3, 0, 0, 0⟩] }
    Clear (.fence ⟨0, 0, 0, 18, none⟩) s = true ∧ Clear (.fence ⟨0, 0, 0, 2, none⟩) s = true ∧
    Clear (.closeb ⟨3, 0, 0, 0, none⟩) s = true ∧ s.w.kIsEmpty 3 = false ∧ (s.w.batches.head?.map fun b => s.w.newest - b.num + 1) = some 1 ∧
    (∀ u ∈ [(⟨0, 0, 0, 0, some 3⟩ : UniW), ⟨0, 0, 0, 0, some 4⟩], Clear (.waitb u) s = true ∧ ReadableK s.w (uSrcs u false true) = true ∧
      (s.w.newest - (uB s.w u).setWidth 16).toNat < 2 ^ 15) ∧
    s.w.failed = [] ∧ s.w.batches.all (fun b => !upTo 3 b.num) = true ∧ s.w.batches.any (fun b => upTo 4 b.num) = true ∧
    Clear (.waitb ⟨0, 0, 0, 0, some 4⟩) f = true ∧ f.w.failed.find? (fun f => upTo 4 f.num) = some ⟨0, gCOPY, 3, 0, 0, 0⟩ ∧
      f.w.handles gCOPY = true ∧ gCOPY < 25 ∧ f.w.rep = none := by decide

/-- The placed module with a join counter of value n at va 0x100. -/
def counting (n : Nat) (f : Warp → Warp) : State := let s := stW f; { s with mem := s.mem.writeBytes 0x4000100 (leBytes 8 n) }

/-- JoinCounters: a counter of 0 and of 1; an addend that leaves it at 0 and one that would take it below. -/
theorem witness_JoinCounters :
    let j : Instr := .joinw ⟨0, 1, 0, 0, none⟩
    (∀ n ∈ [0, 1], let s := counting n (withK [(1, 0x100)])
      Clear j s = true ∧ ReadableK s.w [1] = true ∧ s.mem.readN 0x4000100 8 = n ∧ ∃ t, s.resolveOne joinRead (s.w.k 1) = .ok (.mem 0x4000100, t)) ∧
    let s := counting 1 (withK [(1, 0x100)])
    (∃ t, s.resolveOne (joinReq true) (s.w.k 1) = .ok (.mem 0x4000100, t)) ∧ regionOf 0x4000100 = 0 ∧ s.mem.wf = true ∧
    ∀ u ∈ [(⟨0, 1, 0, 0, some 0xFFFFFFFF⟩ : UniW), ⟨0, 1, 0, 0, some 0xFFFFFFFE⟩], Clear (.joina u) s = true ∧ ReadableK s.w (uSrcs u true true) = true ∧
      (uB s.w u).toInt < 0 := by
  refine ⟨?_, ⟨_, rfl⟩, by decide, by decide, by decide⟩
  simp only [List.mem_cons, List.not_mem_nil, or_false, forall_eq_or_imp, forall_eq]
  exact ⟨⟨by decide, by decide, by decide, _, rfl⟩, by decide, by decide, by decide, _, rfl⟩

/-- ElectionsEpochsTokens: in a block; OFLUSH plain and .wait, with its epoch to come and done; an eighth token; VTOK to k63 and to k0. -/
theorem witness_ElectionsEpochsTokens :
    let full := stC (fun c => { c with tokens := [(15, List.replicate 7 9)] }) (withK [(1, 5)])
    let done := { w0 with launches := w0.launches.map fun x => (x.1, { x.2 with epochsDone := 1 }) }
    Clear (.welect ⟨63, 0, 0, 0, none⟩) w0 = true ∧ w0.w.kIsEmpty 63 = false ∧ Clear (.oflush ⟨0, 0, 0, 0, none⟩) w0 = true ∧
    (Clear (.oflush ⟨0, 0, 0, 1, none⟩) w0 = true ∧ w0.curLaunch?.map (fun l => decide (l.epochsDone ≤ w0.w.epoch)) = some true) ∧
    (Clear (.oflush ⟨0, 0, 0, 1, none⟩) done = true ∧ done.curLaunch?.map (fun l => decide (done.w.epoch < l.epochsDone)) = some true) ∧
    Clear (.ptok ⟨0, 1, 0, 15, none⟩) full = true ∧ ReadableK full.w [1] = true ∧ (AMap.get [] full.co.tokens 15).length < 8 ∧
    Clear (.vtok ⟨63, 0, 0, 15, none⟩) w0 = true ∧ Clear (.vtok ⟨0, 0, 0, 0, none⟩) w0 = true ∧ w0.w.kIsEmpty 0 = false := by decide

/-- ControlRegisters: every CSR of the table read, and every one of R59 written in the three ways. -/
theorem witness_ControlRegisters :
    ((csrValues w0).all fun x => Clear (.csrr ⟨63, BitVec.ofNat 12 x.1, 0, none⟩) w0 && (BitVec.ofNat 12 x.1).toNat == x.1 &&
      !w0.w.kIsEmpty 63) = true ∧
    (csrFields.all fun c => (csrUpdates ⟨1, BitVec.ofNat 12 c.1, 0, none⟩ ++ csrUpdates ⟨0, BitVec.ofNat 12 c.1, 0, some 0xFFFFFFFF⟩).all fun x =>
      Clear x.1 w0 && ReadableK w0.w [1] && (BitVec.ofNat 12 c.1).toNat == c.1) = true := by decide

/-- CachedTranslationsGo: the three scopes, at the last address. -/
theorem witness_CachedTranslationsGo :
    let s := stC (fun c => { c with tlb := [⟨1, 0, 0, 0x200000, 0x4000000, true, true, true⟩] }) (withK [(1, 0xFFFFFFFFFFFFF)])
    ∀ sc < 3, Clear (.xlinv ⟨0, 1, 0, BitVec.ofNat 5 sc, some 1⟩) s = true ∧ ReadableK s.w (uSrcs ⟨0, 1, 0, 0, some 1⟩ true true) = true ∧
      (s.w.k 1).toNat < 2 ^ 52 := by decide

/-- The placed module with a descriptor at va 0x400. -/
def described (d : List (Nat × Nat × Nat)) : State :=
  let s := stW (withK [(1, 0x400)])
  { s with mem := d.foldl (fun m x => m.writeBytes (0x4000400 + x.1) (leBytes x.2.1 x.2.2)) s.mem }

/-- Row n of the table of descriptor commands meets the hypotheses, with the reason r. -/
def Described (s : State) (u : UniW) (n : Nat) (r : Option Nat) : Prop :=
  ∃ x, (descForms s u)[n]? = some x ∧ Clear x.instr s = true ∧ ReadableK s.w x.ks = true ∧ x.full = false ∧
    ∃ t, s.resolveOne (descReq x.size) (s.w.k u.ka.toNat) = .ok (.mem 0x4000400, t) ∧ x.reason t (s.mem.bytes 0x4000400 x.size) = r

/-- DescriptorCommands, each with a descriptor of one element (R191, R261) and with one of zeros. -/
theorem witness_DescriptorCommands_copies :
    let s := described [(16, 8, 0x21), (32, 8, 1)]
    Described s ⟨0, 1, 0, 0, none⟩ 0 none ∧ Described (described []) ⟨0, 1, 0, 0, none⟩ 0 (some 2) ∧
    Described s ⟨0, 1, 0, 0, some 0x1⟩ 1 none ∧ Described (described []) ⟨0, 1, 0, 0, some 0x1⟩ 1 (some 2) :=
  ⟨⟨_, rfl, by decide, by decide, by decide, _, rfl, by decide⟩, ⟨_, rfl, by decide, by decide, by decide, _, rfl, by decide⟩,
   ⟨_, rfl, by decide, by decide, by decide, _, rfl, by decide⟩, ⟨_, rfl, by decide, by decide, by decide, _, rfl, by decide⟩⟩

theorem witness_DescriptorCommands_stacks :
    let u : UniW := ⟨0, 1, 0, 0, none⟩
    let at' := fun l => described ([(0, 8, 0x200000), (8, 8, 0x400000), (24, 4, 1)] ++ l)
    Described (at' [(16, 8, 0x600000), (28, 2, 256)]) u 2 none ∧ Described (described []) u 2 (some 2) ∧
    Described (at' [(30, 1, 12), (31, 1, 2)]) u 3 none ∧ Described (described []) u 3 (some 2) ∧
    Described (at' [(30, 1, 10), (31, 1, 12)]) u 4 none ∧ Described (described []) u 4 (some 2) :=
  ⟨⟨_, rfl, by decide, by decide, by decide, _, rfl, by decide⟩, ⟨_, rfl, by decide, by decide, by decide, _, rfl, by decide⟩,
   ⟨_, rfl, by decide, by decide, by decide, _, rfl, by decide⟩, ⟨_, rfl, by decide, by decide, by decide, _, rfl, by decide⟩,
   ⟨_, rfl, by decide, by decide, by decide, _, rfl, by decide⟩, ⟨_, rfl, by decide, by decide, by decide, _, rfl, by decide⟩⟩

/-- TablesAndSnapshots: TABLD of all eight functions, TABSW, BENSET of word 7, RSNAP into the last unit. -/
theorem witness_TablesAndSnapshots :
    Clear (.tabld ⟨0, 1, 0, 0, some 0xFF⟩) w0 = true ∧ ReadableK w0.w (uSrcs ⟨0, 1, 0, 0, some 0xFF⟩ true true) = true ∧ w0.co.copyq.length < 64 ∧
      (uB w0.w ⟨0, 1, 0, 0, some 0xFF⟩).toNat < 256 ∧
    Clear (.tabsw ⟨0, 0, 0, 0, none⟩) w0 = true ∧
    Clear (.benset ⟨3, 1, 2, 7, none⟩) w0 = true ∧ ReadableK w0.w [1, 2, 3] = true ∧
    let s := stC withUnits (withK [(1, 0xFFF00)])
    Clear (.rsnap ⟨0, 1, 0, 0, none⟩) s = true ∧ ReadableK s.w [1] = true ∧
      ∃ p t, s.resolveOne ⟨1, 1, false, true, 256, 8, false, false⟩ (s.w.k 1) = .ok (p, t) ∧ s.plain [(0, p)] = true :=
  ⟨by decide, by decide, by decide, by decide, by decide, by decide, by decide, by decide, by decide, _, _, rfl, by decide⟩

/-- A core whose governing WLOAD has f16 weights. -/
def governed (c : Core) : Core := { c with govern := some ⟨10, false, 0, [], false⟩ }

/-- MatrixCommands: the hypotheses of a command, at reason r. -/
def queued (i : Instr) (r : Option (Nat × Nat)) : Bool :=
  let s := stC governed (withK [(1, 0xFE000), (2, 0xFC000), (4, 0x80)])
  (matrixForms (uOf i)).any fun y => y.1 == i && Clear y.1 s && ReadableK s.w (uSrcs (uOf i) y.2.2 true) && !s.w.kIsEmpty 5 &&
    decide (s.co.mqueue.length < 16) &&
    matrixReason y.2.1 s.co.govern s.co.spad (if y.2.2 then (s.w.k (uOf i).ka.toNat).toNat else 0) (uB s.w (uOf i)).toNat false == r

/-- MatrixCommands: every command of the table without a reason, at its greatest offset or last row, and with one. -/
theorem witness_MatrixCommands_multiply :
    queued (.wload ⟨5, 1, 0, 0, some 10⟩) none = true ∧ queued (.wload ⟨5, 4, 0, 0, some 10⟩) (some (3, 0x80)) = true ∧
    queued (.mma ⟨5, 2, 0, 7, some 0xA007F⟩) none = true ∧ queued (.mma ⟨5, 0, 0, 7, some 0xA017F⟩) (some (2, 0)) = true ∧
    queued (.mmas ⟨5, 0, 0, 7, some 0xA0000⟩) none = true ∧ queued (.mmas ⟨5, 0, 0, 7, some 0xE0000⟩) (some (6, 0)) = true := by decide +kernel

theorem witness_MatrixCommands_rows :
    queued (.accz ⟨5, 0, 0, 7, some 0x7F00⟩) none = true ∧ queued (.accz ⟨5, 0, 0, 7, some 0x7F01⟩) (some (2, 0)) = true ∧
    queued (.accrd ⟨5, 0, 0, 7, some 0x7F00⟩) none = true ∧ queued (.accrd ⟨5, 4, 0, 7, some 0⟩) (some (3, 0x80)) = true ∧
    queued (.accwr ⟨5, 0, 0, 7, some 0x7F⟩) none = true ∧ queued (.accwr ⟨5, 4, 0, 7, some 0⟩) (some (3, 0x80)) = true := by decide

/-- AccumulatorRows: both halves of the first and the last row, free and while an MMA names the tile. -/
theorem witness_AccumulatorRows :
    let busy := stC (fun c => { c with mqueue := [⟨3, .mma, 0, 1, 7, 0, 0⟩] }) id
    ∀ x ∈ [(0, 0, (0 : IWord)), (1, 127, 0x807F)], let u : UniW := ⟨31, 0, 0, 15, some x.2.2⟩
      u.f5.getLsbD 3 = true ∧ (uB w0.w u).toNat = 32768 * x.1 + x.2.1 ∧
      (∀ s ∈ [w0, busy], Clear (.accrd u) s = true ∧ Clear (.accwr u) s = true ∧ s.w.vIsEmpty 31 = false ∧
        Readable s.w 0xFFFFFFFF ((uSrcs u false true).map kSrc ++ [vSrc 31 false 0]) = true) ∧
      w0.co.mqueue.all (fun x => x.kind == .wload || x.tile != 7) = true ∧
      (busy.co.mqueue.find? (fun x => x.kind != .wload && x.tile == 7)).map MatCmd.seq = some 3 := by decide

/-- A failed copy of batch 1, and the states of the waits: commands queued, a failed one, none. -/
def failed1 : FailedOp := ⟨0, gCOPY, 1, 0, 0, 0⟩
def waitBusy : State := stC (fun c => { c with mseq := 3, mqueue := [⟨2, .mma, 0, 1, 7, 0, 0⟩], rIssued := 2, rqueue := [⟨1, 1, 0, 1, 0, 0, 0⟩] }) handled
def waitFailed : State := stC (fun c => { c with mseq := 3, matFailed := [failed1], rIssued := 2, sortFailed := [failed1] }) handled
def waitNone : State := stC (fun c => { c with rIssued := 2 }) handled

/-- EngineWaits: ACCWAIT on a number to come, on one queued, on one done, on one that failed, and, at the edge of what it
covers, on the number 2¹⁵ behind a queued one. -/
theorem witness_EngineWaits_accwait :
    let s := waitBusy
    let covers := fun (n x : BitVec 16) => (n - x).toNat ≤ 2 ^ 15
    [(3 : IWord), 2, 1].all (fun n => Clear (.accwait ⟨0, 0, 0, 0, some n⟩) s) = true ∧ ReadableK s.w (uSrcs ⟨0, 0, 0, 0, some 1⟩ false true) = true ∧
    2 ^ 15 ≤ (s.co.mseq - 1 - 3).toNat ∧ (s.co.mseq - 1 - 2).toNat < 2 ^ 15 ∧ (s.co.mseq - 1 - 1).toNat < 2 ^ 15 ∧ s.co.matFailed = [] ∧
    (∀ x ∈ s.co.mqueue, ¬covers 1 x.seq) ∧ (∃ x ∈ s.co.mqueue, covers 2 x.seq) ∧ covers 0x8002 2 ∧ ¬covers 0x8003 2 ∧
    Clear (.accwait ⟨0, 0, 0, 0, some 2⟩) waitFailed = true ∧ waitFailed.co.matFailed.find? (fun f => decide (covers 2 f.num)) = some failed1 ∧
    waitFailed.w.handles gCOPY = true ∧ gCOPY < 25 ∧ waitFailed.w.rep = none := by decide

/-- EngineWaits: SORTWAIT on a command queued, on one that failed, on none. -/
theorem witness_EngineWaits_sortwait :
    Clear (.sortwait ⟨0, 0, 0, 0, none⟩) waitBusy = true ∧ waitBusy.co.sortFailed = [] ∧ waitBusy.co.rqueue.any (fun x => decide (x.num < waitBusy.co.rIssued)) = true ∧
    Clear (.sortwait ⟨0, 0, 0, 0, none⟩) waitNone = true ∧ waitNone.co.sortFailed = [] ∧ waitNone.co.rqueue = [] ∧
    Clear (.sortwait ⟨0, 0, 0, 0, none⟩) waitFailed = true ∧ waitFailed.co.sortFailed = [failed1] ∧ waitFailed.co.rqueue = [] := by decide

/-- RiddleCommands: the three commands without a reason (SORT plain and .resume), SORTLD with reasons 1 and 2, SORTST with 2, and
SORTSTOP of a running SORT and of none. -/
theorem witness_RiddleCommands :
    let s := stW (withK [(1, 0xFFFFC), (2, 2)])
    (∀ x ∈ [((.sortld ⟨0, 1, 0, 0, some 0x20000⟩ : Instr), none), (.sortst ⟨0, 1, 0, 1, some 0x20000⟩, none), (.sort ⟨0, 0, 0, 3, none⟩, none),
            (.sort ⟨0, 0, 0, 7, some 0x13⟩, none), (.sortld ⟨0, 1, 0, 1, some 0x20000⟩, some 1), (.sortld ⟨0, 1, 0, 0, some 0x20001⟩, some 2),
            (.sortst ⟨0, 2, 0, 0, some 0x20000⟩, some 2)],
      (sortForms s.w (uOf x.1)).any (fun y => y.1 == x.1 && Clear y.1 s && ReadableK s.w y.2.1 && y.2.2.2.2.2 == x.2) = true) ∧
    s.co.rqueue.length < 8 ∧
    Clear (.sortstop ⟨0, 0, 0, 0, none⟩) w0 = true ∧ w0.co.riddle.state ≠ 2 ∧
    let r := stC (fun c => { c with riddle := { c.riddle with state := 2 }, rqueue := [⟨1, 1, 0, 1, 0, 0, 0⟩] }) id
    Clear (.sortstop ⟨0, 0, 0, 0, none⟩) r = true ∧ r.co.riddle.state = 2 ∧ r.w.park = none ∧ r.co.sortFailed = [] := by decide

/-- The placed module with tasks. -/
def withTasks (l : List Task) : State := { w0 with launches := w0.launches.map fun x => (x.1, { x.2 with tasks := l }) }

/-- TaskTable: a record without ranges; TDONE of a task that another waits for, and of none. -/
theorem witness_TaskTable :
    (let s := described []
     Clear (.tsubmit ⟨2, 1, 0, 0, none⟩) s = true ∧ ReadableK s.w [1] = true ∧ s.w.kIsEmpty 2 = false ∧ badRecord (s.mem.bytes 0x4000400 64) = false ∧
       ∃ l, s.curLaunch? = some l ∧ ∃ t, s.resolveOne (descReq 64) (s.w.k 1) = .ok (.mem 0x4000400, t) ∧
         (t.rangePas s.curCore l (recRanges (s.mem.bytes 0x4000400 64))).1 = some [] ∧ l.taskReason (some []) = none ∧ s.unitLoad (l.holder []).1 < 4096) ∧
    let s := withTasks [⟨0, [], [], [], 0, 0⟩, ⟨1, [], [0], [], 0, 0⟩]
    Clear (.tdone ⟨0, 1, 0, 0, none⟩) s = true ∧ ReadableK s.w [1] = true ∧
      s.curLaunch?.map (fun l => decide ((s.w.k 1).setWidth 32 ∈ l.tasks.map Task.handle)) = some true ∧
      w0.curLaunch?.map (fun l => decide ((w0.w.k 1).setWidth 32 ∉ l.tasks.map Task.handle)) = some true :=
  ⟨⟨by decide, by decide, by decide, by decide, _, rfl, _, rfl, rfl, by decide, by decide⟩, by decide⟩

/-- A Hearth in place of the placed warp. -/
def hearth (l : AMap Word) (w : Warp) : Warp := { withK l w with kind := .hearth }
/-- The same over a mailbox. -/
def mailed (m : List Mail) (l : AMap Word) : State := let s := stW (hearth l); s.setDie 0 { s.die 0 with mailbox := m }

/-- HearthCommands: MBRECV to the last registers, of an empty mailbox and of one packet; MBFWD with and without a place; BLKGO of no
launch and of one that core 191 takes. -/
theorem witness_HearthCommands :
    let p : AMap Word := [(9, 0x1000000000000000)]
    (∀ m ∈ [[], [(⟨1, 0, [7], [], 0, none⟩ : Mail)]], let s := mailed m []
      Clear (.mbrecv ⟨56, 0, 0, 0, none⟩) s = true ∧ (∀ j < 8, s.w.kIsEmpty (56 + j) = false) ∧ (s.die (dieOf s.curCore)).mailbox = m) ∧
    (∀ x ∈ [(([] : List Mail), true), (List.replicate 192 ⟨1, 2, [], [], 0, none⟩, false)], let s := mailed x.1 p
      Clear (.mbfwd ⟨8, 0, 0, 0, some 0⟩) s = true ∧ ReadableK s.w (packetRegs 8) = true ∧ (s.die 0).hasPlace 2 (.hearth 0 1) = x.2 ∧
        (s.packetLaunch 0 ((packetRegs 8).map s.w.k)).map (fun y => (y.1, y.2.dies)) = some (1, [0])) ∧
    (let s := mailed [] []
     Clear (.blkgo ⟨1, 8, 2, 0, none⟩) s = true ∧ ReadableK s.w (packetRegs 8 ++ [2]) = true ∧ s.w.kIsEmpty 1 = false ∧
       (s.startPacket 0 ((packetRegs 8).map s.w.k)).isNone = true) ∧
    let s := mailed [] ((2, 191) :: p)
    Clear (.blkgo ⟨1, 8, 2, 0, none⟩) s = true ∧ (s.w.k 2).toNat = 191 ∧ (((packetRegs 8).map s.w.k).getD 1 0).extractLsb' 39 7 = 0 ∧
      (s.startPacket 191 ((packetRegs 8).map s.w.k)).isSome = true ∧ (s.packetLaunch 0 ((packetRegs 8).map s.w.k)).isSome = true := by decide +kernel

/-- The placed module in whose Hearth area die 0 holds a packet of the placed launch, with blocks of u units. -/
def holding (u : Nat) : State :=
  let s : State := { w0 with launches := w0.launches.map fun x => (x.1, { x.2 with hdr := { x.2.hdr with spad := u } }) }
  s.setDie 0 { s.die 0 with pending := [⟨⟨1, 0, [0, 0x1000000000000000], [], 0, none⟩, false⟩] }

/-- HearthCommands: the dispatcher's turn with a packet in the mailbox; with one that cores of its group take, and with one that none
takes. -/
theorem witness_HearthCommands_dispatch :
    (let s := mailed [⟨1, 0, [], [], 0, none⟩] []
     (s.die 0).mailbox = [⟨1, 0, [], [], 0, none⟩] ∧ s.mayHold 0 1 = true) ∧
    ∀ x ∈ [(0, true), (257, false)], let s := holding x.1
      (s.die 0).mailbox = [] ∧ s.nextDispatch 0 = some ⟨⟨1, 0, [0, 0x1000000000000000], [], 0, none⟩, false⟩ ∧ packetGroup [0, 0x1000000000000000] = 0 ∧
        ((s.launch? 1).map fun l => (List.range 12).any fun j => (s.startFor j 1 l [0, 0x1000000000000000]).isSome) = some x.2 := by decide +kernel

/-- HearthCommands: a full Hearth area, which keeps the packet in the mailbox; a forwarded packet that has not left its die. -/
theorem witness_HearthCommands_held :
    (let m : Mail := ⟨1, 0, [0, 0x1000000000000000], [], 0, none⟩
     let s := w0.setDie 0 { w0.die 0 with mailbox := [m], pending := List.replicate 16384 ⟨m, false⟩ }
     (s.die 0).mailbox = [m] ∧ s.mayHold 0 m.launch = false) ∧
    let s := State.reset.setDie 7 { State.reset.die 7 with incoming := [⟨1, 2, [], [18], 0, some 0⟩] }
    (s.warpAt (192 * 0) 48).kind = .hearth ∧ ∃ e m, m ∈ (s.die e).incoming ∧ m.fwd = some 0 :=
  ⟨by decide +kernel, rfl, 7, _, .head _, rfl⟩

/-- WarpsWakeAndEnd: loads to v31 and to k63; a token; a JOINW that was told and one that polls, at 0 and at 1. -/
theorem witness_WarpsWakeAndEnd :
    (∀ f ∈ [(⟨false, 31, 0xFFFFFFFF, zeroLanes, []⟩ : InFlight), ⟨true, 63, 1, zeroLanes, []⟩],
      ((stW fun w => { w with inflight := [f] }).warpAt 0 0).inflight = [f]) ∧
    (let s := stC (fun c => { c with tokens := [(15, [7])], vtoks := [(15, [(0, 0)])] }) fun w => { w with vtokWaits := 1 }
     AMap.get [] (s.core 0).tokens 15 = [7] ∧ AMap.get [] (s.core 0).vtoks 15 = [(0, 0)]) ∧
    (∀ n ∈ [0, 1], ∀ reg ∈ [true, false], let s := counting n fun w => { w with park := some (.join 0x100 0x4000100 reg reg) }
      let w := s.warpAt 0 0
      s.onLostDie 0x4000100 = false ∧
      w.park = some (.join 0x100 0x4000100 reg reg) ∧ w.status = .live ∧ w.lent = 0 ∧ 0 < w.residents ∧ s.mem.readN 0x4000100 8 = n) ∧
    (let s := stW fun w => { w with status := .retired }
     (s.warpAt 0 0).status = .retired ∧ s.drained 0 0 = true ∧ (s.warpAt 0 0).failed = [] ∧ (s.warpAt 0 0).kind = .block ∧
       ((s.core 0).matFailed ++ (s.core 0).sortFailed).all (fun f => f.slot != 0) = true ∧ (AMap.find? (s.core 0).blocks (s.warpAt 0 0).block).isSome = true) := by
  decide

/-- WarpsWakeAndEnd: the exit decrement of a child, at 1 and at 0. -/
theorem witness_WarpsWakeAndEnd_exit : ∀ n ∈ [0, 1],
    let d : ExitDec := ⟨0, 0, 0x100, 0, 1, true, 0, 0, 0, 0, false⟩
    let s := counting n fun w => { w with kind := .child, status := .retired, exitDecs := [d] }
    (s.warpAt 0 0).exitDecs = [d] ∧ d.waiting = false ∧ d.ready (s.core 0) 0 (s.warpAt 0 0) = true ∧ s.mem.wf = true ∧ s.mem.readN 0x4000100 8 = n ∧
      ∃ u, s.engAddr 0 (s.warpAt 0 0).launch d.join.toNat true false = (.ok 0x4000100, u) := by
  simp only [List.mem_cons, List.not_mem_nil, or_false, forall_eq_or_imp, forall_eq]
  exact ⟨⟨by decide, by decide, by decide, by decide, by decide, _, rfl⟩, by decide, by decide, by decide, by decide, by decide, _, rfl⟩

/-- ChildrenFormAndReturn: an entry arrives; a group of one that has waited 64 cycles forms; an evicted warp returns; a group that
no core can serve, at first and 1 ms later. -/
theorem witness_ChildrenFormAndReturn :
    let e : Kindle := ⟨1, 0x40, 0, [1, 2, 3, 4], 4, 32, 0, 0, 0, 0⟩
    let big : Kindle := { e with budget := 1537 }
    let at64 := fun (g : Core → Core) => ({ stC g id with clock := 64, time := 1000000 } : State)
    (let s : State := { w0 with travel := [⟨0, e, [], 0, 0⟩] }
     firstArrival 0 [] s.travel = some ⟨0, e, [], 0, 0⟩ ∧ (s.launch? e.launch).isSome = true ∧ (s.core 0).kindling.length < 2048 ∧ (s.core 0).overflow = []) ∧
    (let s := at64 fun c => { c with kindling := [e] }
     s.formable 0 = [e] ∧ s.canReturn 0 = false ∧ s.childRoom 0 e = true ∧ (s.core 0).formedAt ≠ some s.clock) ∧
    (let w := { placedWarp with status := .evicted }
     let s := at64 fun c => { c with warps := c.warps.set 64 w }
     s.returning 0 = some (64, w)) ∧
    (let c := fun (e : Kindle) (h : List Nat) => (⟨0, e, h, 0, 7⟩ : Child)
     let s : State := { w0 with travel := [c e [3], c e [], c { e with launch := 2 } []] }
     firstArrival 0 [] s.travel = some (c { e with launch := 2 } []) ∧ firstArrival 0 [] [c e [3], c e []] = none) ∧
    (let s := stC (fun c => { c with formedAt := some 0 }) fun w => { w with kind := .child, since := 5 }
     (s.core 0).formedAt = some s.clock ∧ (s.warpAt 0 0).kind = .child ∧ s.clock ≤ (s.warpAt 0 0).since) ∧
    ∀ a ∈ [none, some 0], let s := at64 fun c => { c with warps := [], kindling := [big], deadlockSince := a }
      s.spawnStuck 0 = some big ∧ (s.core 0).deadlockSince = a ∧ (0 : Nat) + 1000000 ≤ s.time ∧ (s.launch? big.launch).map Launch.trap = some none := by decide +kernel

/-- The bytes of a descriptor with fields. -/
def descOf (n : Nat) (l : List (Nat × Nat × Nat)) : List Byte :=
  (l.foldl (fun (m : Memory) x => m.writeBytes x.1 (leBytes x.2.1 x.2.2)) []).bytes 0 n

/-- A copy of two bytes, the second out of bounds, to offset 0xFFFFE, and the core that has it queued. -/
def twoBytes : CopyCmd := ⟨0, 1, 0, 0, 0, descOf 256 [(8, 8, 0xFFFFE), (16, 8, 1), (32, 8, 0x100000002)], [0], false, [], [], none, false⟩
/-- A TABLD of function 7 to bank 1, at a physical address. -/
def oneTable : CopyCmd := ⟨0, 0, 0, 4, 0x5000000, [], [0x80], true, [], [], none, false⟩

/-- EnginesExecute: the copy and the TABLD. -/
theorem witness_EnginesExecute_copies :
    (let s := stC (fun c => { withUnits c with copyq := [twoBytes] }) id
     let r := s.startCopy 0 0
     let x := { twoBytes with started := true }
     let l := (x.checks r 0 x.elems).1
     (r.core 0).copyq[0]? = some x ∧ (s.warpAt 0 0).failed = [] ∧ (s.core 0).spad.wf = true ∧ l.map (fun y => y.1.inb) = [true, false] ∧
       (l.all fun y => match y.2 with | .ok ps => ps.all (fun p => regionOf p.1 == 0) | .error _ => false) = true) ∧
    let r := (stC (fun c => { c with copyq := [oneTable] }) id).startCopy 0 0
    let x := { oneTable with started := true }
    (r.core 0).copyq[0]? = some x ∧ (r.core 0).bank1.wf = true ∧
      ((x.tabChecks r 0 x.tabPieces).1.all fun y => match y.2 with | .ok [(pa, n)] => n == 16 && regionOf pa == 0 | _ => false) = true := by decide +kernel

/-- Copies of one element of two bytes: a reduction to global memory, one to a scale memory, and one to core 1's window. -/
def oneReduced : CopyCmd := ⟨0, 1, 0, 1, 0, descOf 256 [(8, 8, 0xFFFFE), (16, 8, 0x121), (32, 8, 0x100000001)], [0], false, [], [], none, false⟩
def oneScaled : CopyCmd := ⟨0, 1, 0, 2, 0, descOf 256 [(16, 8, 1), (32, 8, 0x100000001)], [0], false, [], [], none, false⟩
def oneSent : CopyCmd := ⟨0, 1, 0, 3, 0x1FFFFE, descOf 256 [(8, 8, 0xFFFFE), (16, 8, 1), (32, 8, 0x100000001)], [0], false, [], [], none, false⟩

/-- EnginesExecute: a copy in each of the other directions. -/
theorem witness_EnginesExecute_directions : ∀ z ∈ [oneReduced, oneScaled, oneSent],
    let s := (stC (fun c => { withUnits c with copyq := [z] }) id).setCore 1 { w0.core 1 with units := [(255, 1)] }
    let r := s.startCopy 0 0
    let x := { z with started := true }
    let l := (x.checks r 0 x.elems).1
    (r.core 0).copyq[0]? = some x ∧ x.waiting = none ∧ (s.warpAt 0 0).failed = [] ∧ s.stopping 0 x.launch [x.owed] = false ∧ s.mem.wf = true ∧
      (s.core 0).spad.wf = true ∧ (s.core 0).scale.wf = true ∧ l.map (fun y => y.1.inb) = [true] ∧
      (l.all fun y => match y.2 with
        | .ok [] => x.dir == 3
        | .ok [(pa, n)] => x.dir != 3 && n == copySize x.desc && regionOf pa == 0
        | _ => false) = true := by decide +kernel

/-- A stack command of one element of four bytes at physical addresses, and its descriptor's format bytes. -/
def oneElement (kind : Nat) (l : List (Nat × Nat × Nat)) : StackCmd :=
  ⟨0, 0, 0, kind, descOf 64 ([(0, 8, 0x5000000), (8, 8, 0x5100000), (24, 4, 1)] ++ l), 0, none, false⟩
def oneGather : StackCmd := oneElement 0 [(16, 8, 0x5200000), (28, 2, 4)]
def oneReduce : StackCmd := oneElement 1 [(30, 1, 12)]
def oneConvert : StackCmd := oneElement 2 [(30, 1, 2), (31, 1, 12)]

/-- EnginesExecute: SGATHER, SREDUCE and SCVT run to their end. -/
theorem witness_EnginesExecute_stacks : ∀ z ∈ [oneGather, oneReduce, oneConvert],
    let s := stC (fun c => { c with stackq := [z] }) id
    let q := s.startStack 0 0
    let x := { z with started := true }
    (q.core 0).stackq[0]? = some x ∧ x.waiting = none ∧ s.stopping 0 x.launch [x.owed] = false ∧ (s.warpAt 0 x.slot).failed = [] ∧
      (x.steps 0 (stepCount x.kind x.desc - x.next) x.next q []).2.2.err = none := by decide +kernel

/-- EnginesExecute: the accesses of one element of each. -/
theorem witness_EnginesExecute_one :
    (let d := oneGather.desc; let st := w0.cmdStack 0 oneGather
     oneGather.kind = 0 ∧ w0.mem.wf = true ∧ w0.mem.readN 0x5200000 4 = 0 ∧ ∃ t u v, w0.stackRange 0 0 st (stAux d + 4 * 0) 4 false = (.ok [(0x5200000, 4)], t) ∧
       t.stackRange 0 0 st ((stSrc d + 0 * stEs d) % 2 ^ 64) (stEs d) false = (.ok [(0x5100000, stEs d)], u) ∧
       u.stackRange 0 0 st (stDst d + 0 * stEs d) (stEs d) true = (.ok [(0x5000000, stEs d)], v)) ∧
    (let d := oneReduce.desc; let st := w0.cmdStack 0 oneReduce
     oneReduce.kind = 1 ∧ ∃ t u, w0.stackRange 0 0 st (stSrc d + 0 * 4) 4 false = (.ok [(0x5100000, 4)], t) ∧
       t.stackRange 0 0 st (stDst d + 0 * 4) 4 true = (.ok [(0x5000000, 4)], u)) ∧
    let d := oneConvert.desc; let st := w0.cmdStack 0 oneConvert
    oneConvert.kind = 2 ∧ scvtPair (stFa d) (stFb d) = true ∧ stQ4 d = false ∧ stSc d = false ∧ ∃ t u v, w0.stackRange 0 0 st (stSrc d + 0 * 4) 4 false = (.ok [(0x5100000, 4)], t) ∧
      t.stackRange 0 0 st (stAux d + 0 / 32) 0 false = (.ok [], u) ∧ u.stackRange 0 0 st (stDst d + 0 * 4) 4 true = (.ok [(0x5000000, 4)], v) :=
  ⟨⟨by decide, by decide, by decide, _, _, _, rfl, rfl, rfl⟩, ⟨by decide, _, _, rfl, rfl⟩, by decide, by decide, by decide, by decide, _, _, _, rfl, rfl, rfl⟩

/-- EnginesExecute: scaled conversions that encode to F8A and to q4x and that decode from q4x: their pieces, and what the statement
asks of the descriptor, the elements and the scale. -/
theorem witness_EnginesExecute_scaled :
    let c := fun (fa fb : Nat) => oneElement 2 [(16, 8, 0x5200000), (24, 4, 2), (30, 1, fa), (31, 1, fb), (33, 1, 1)]
    (∀ x ∈ [(12, 8, false), (12, 14, true), (14, 12, true)], let d := (c x.1 x.2.1).desc
      stFa d = x.1 ∧ stFb d = x.2.1 ∧ scvtPair x.1 x.2.1 = true ∧ stRmc d < 5 ∧ stSc d = true ∧ stQ4 d = x.2.2 ∧ (255 : Nat) < 256 ∧
        0x3F800000 < 2 ^ tyWidth 12 ∧ tyWidth 8 < tyWidth 12 ∧ tyWidth 14 < tyWidth 12) ∧
    (let d := (c 12 14).desc; let st := w0.cmdStack 0 (c 12 14)
     ∃ t u v, w0.stackRange 0 0 st (stSrc d + 0 * 8) 8 false = (.ok [(0x5100000, 8)], t) ∧
       t.stackRange 0 0 st (stAux d + 2 * 0 / 32) 1 false = (.ok [(0x5200000, 1)], u) ∧ u.stackRange 0 0 st (stDst d + 0 * 1) 1 true = (.ok [(0x5000000, 1)], v)) ∧
    let d := (c 14 12).desc; let st := w0.cmdStack 0 (c 14 12)
    ∃ t u v, w0.stackRange 0 0 st (stSrc d + 0 * 1) 1 false = (.ok [(0x5100000, 1)], t) ∧
      t.stackRange 0 0 st (stAux d + 2 * 0 / 32) 1 false = (.ok [(0x5200000, 1)], u) ∧ u.stackRange 0 0 st (stDst d + 0 * 8) 8 true = (.ok [(0x5000000, 8)], v) :=
  ⟨by decide, ⟨_, _, _, rfl, rfl, rfl⟩, _, _, _, rfl, rfl, rfl⟩

/-- A core that owns its first five units, with weights in the shadow latch and a command queued. -/
def commanded (x : MatCmd) : State :=
  stC (fun c => { c with units := [(0, 1), (1, 1), (2, 1), (3, 1), (4, 1)], latchS := some ⟨10, false, 0, [], false⟩, mqueue := [x] }) id

/-- MatrixExecutes: each of the six commands, at the last row of a tile. -/
theorem witness_MatrixExecutes :
    (let x : MatCmd := ⟨0, .wload, 0, 1, 0, 0, 10⟩; let s := commanded x
     (s.core 0).mqueue = [x] ∧ (s.core 0).matFailed = [] ∧ (s.core 0).spad.wf = true ∧ s.stopping 0 x.launch ((s.core 0).mqueue.map MatCmd.owed) = false ∧ x.owns s 0 0 (weightBytes 10) = true) ∧
    (∀ k ∈ [MatKind.mma, .mmas], let x : MatCmd := ⟨0, k, 0, 1, 7, 0, 0xA7F00⟩; let s := commanded x
     let n := if k = .mmas then 16 * mmaM 0xA7F00 + packedBytes (s.core 0).spad 0 (mmaM 0xA7F00) (mmaSfmt 0xA7F00) 64 else 128 * mmaM 0xA7F00
     (s.core 0).mqueue = [x] ∧ s.stopping 0 x.launch ((s.core 0).mqueue.map MatCmd.owed) = false ∧ (s.core 0).exchange.latchA = some ⟨10, false, 0, [], false⟩ ∧ mx16 10 = mx16 (mmaSfmt 0xA7F00) ∧
       mmaRow0 0xA7F00 + mmaM 0xA7F00 ≤ 128 ∧ x.owns s 0 0 n = true) ∧
    ∀ k ∈ [MatKind.accrd, .accwr, .accz], let x : MatCmd := ⟨0, k, 0, 1, 7, 0x4E00, 0x7F⟩; let s := commanded x
      (s.core 0).mqueue = [x] ∧ x.owns s 0 x.off (512 * rcCount 0x7F) = true ∧ rcRow0 0x7F + rcCount 0x7F ≤ 128 := by decide +kernel

/-- A core that owns its first unit, with a Riddle and a command queued. -/
def sorting (r : Riddle → Riddle) (x : SortCmd) : State :=
  stC (fun c => { c with units := [(0, 1)], riddle := r c.riddle, rqueue := [x] }) id

/-- RiddleExecutes: SORTLD and .raw of two keys, SORT from the first step and at the last phase, a step, and SORTST. -/
theorem witness_RiddleExecutes :
    let two : Riddle → Riddle := fun r => { r with rows := 1, cols := 2, fmt := 2, cells := [⟨5, 0, 0⟩, ⟨4, 0, 1⟩], state := 1 }
    (∀ x ∈ [(⟨0, 0, 0, 1, 0, 0x20100, 0⟩ : SortCmd), ⟨0, 0, 0, 1, 0, 0x220100, 1⟩], let s := sorting id x
      (s.core 0).rqueue = [x] ∧ s.sortHeld 0 = false ∧ (s.core 0).sortFailed = [] ∧ (s.core 0).spad.wf = true ∧ x.owns s 0 = true ∧ scRows x.ctl.toNat * scCols x.ctl.toNat = 2 ∧
        ∀ e < 2, (s.core 0).spad.readN (scOoff x.ctl.toNat + 2 * e) 2 < 2 ^ 14) ∧
    (∀ x ∈ [((⟨0, 1, 0, 1, 0, 0, 0⟩ : SortCmd), 0), (⟨0, 1, 0, 1, 0, 1, 4⟩, 1)], let s := sorting two x.1
      (s.core 0).rqueue = [x.1] ∧ (s.core 0).riddle.state = 1 ∧ (s.core 0).riddle.validPoint x.2 0 = true ∧ (s.core 0).riddle.np = 1 ∧
        x.2 = (if x.1.flags.getLsbD 2 then x.1.ctl.toNat % 16 else 0) ∧ (0 : Nat) = if x.1.flags.getLsbD 2 then bits x.1.ctl.toNat 11 4 else 0) ∧
    (let s := sorting (fun r => { two r with state := 2 }) ⟨0, 1, 0, 1, 0, 0, 0⟩
     (s.core 0).riddle.state = 2 ∧ (s.core 0).rqueue = [⟨0, 1, 0, 1, 0, 0, 0⟩]) ∧
    let x : SortCmd := ⟨0, 2, 0, 1, 0, 0x20100, 0⟩; let s := sorting two x
    (s.core 0).rqueue = [x] ∧ scRows x.ctl.toNat = 1 ∧ scCols x.ctl.toNat = 2 ∧ scFmt x.ctl.toNat = 2 ∧ x.owns s 0 = true := by decide

/-- The leaf that maps the placed page, and its entry in a translation cache. -/
def pageLeaf : Leaf := ⟨placedPage, 0x200000, true, true, true⟩
def pageEntry : TlbEntry := ⟨1, 0, 0, 0x200000, placedPage, true, true, true⟩

/-- A state in which launch l of the placed space runs, and whose caches hold at most the placed page's entry. -/
structure Placed (s : State) (l : Launch) (va : Nat) : Prop where
  asid : l.asid = 1
  gen : l.gen = 0
  launch : s.launch? 1 = some l
  space : AMap.find? s.aspaces 1 = some ⟨true, placedRoot, 0⟩
  walk : s.walk placedRoot va = .leaf pageLeaf
  low : va < 0x200000
  core : ∀ x ∈ (s.core 0).tlb, x = pageEntry
  die : ∀ x ∈ (s.die 0).tlb, x = pageEntry
  live : (s.die 0).isolated = false
  whole : (s.die 0).fenced = false

theorem Placed.lookup {s : State} {l : Launch} {va : Nat} (h : Placed s l va) :
    ∃ t, s.lookup 0 1 0 placedRoot va = (.leaf pageLeaf, t) ∧ SameButTlb s t ∧ Placed t l va := by
  obtain ⟨a, b⟩ := State.lookup_cases s 0 1 0 placedRoot va
  refine ⟨_, Prod.ext ?_ rfl, a, ?_⟩
  · rcases b with ⟨b, -, -⟩ | ⟨e, he, b, -, -⟩
    · rw [b]; exact h.walk
    · rw [b, he.elim (h.core e) (h.die e)]; rfl
  · have ent : entryOf 1 0 va pageLeaf = pageEntry := by
      have := h.low; simp only [entryOf, pageLeaf, pageEntry]; rw [Nat.mod_eq_of_lt this, Nat.sub_self]
    refine ⟨h.asid, h.gen, by rw [State.launch?, a.launches]; exact h.launch, by rw [a.aspaces]; exact h.space,
      by rw [State.walk, a.mem]; exact h.walk, h.low, fun x hx => ?_, fun x hx => ?_, by rw [a.isolated]; exact h.live,
      by rw [a.fenced]; exact h.whole⟩
    · rcases b with ⟨b, c, -⟩ | ⟨e, he, -, c, -⟩
      · rcases c x hx with c | ⟨m, c, d⟩
        · exact h.core x c
        · rw [b, h.walk] at c; cases c; rw [d, ent]
      · rcases c x hx with c | c
        · exact h.core x c
        · rw [c]; exact he.elim (h.core e) (h.die e)
    · rcases b with ⟨b, -, c⟩ | ⟨e, -, -, -, c⟩
      · rcases c x hx with c | ⟨m, c, d⟩
        · exact h.die x c
        · rw [b, h.walk] at c; cases c; rw [d, ent]
      · exact h.die x (c ▸ hx)

theorem Placed.engAddr {s : State} {l : Launch} {va : Nat} (h : Placed s l va) (wr : Bool) :
    ∃ t, s.engAddr 0 1 va wr false = (.ok (placedPage + va), t) ∧ SameButTlb s t ∧ Placed t l va := by
  obtain ⟨t, a, b, c⟩ := h.lookup
  have low := h.low
  refine ⟨t, ?_, b, c⟩
  have leaf : t.engLeaf pageLeaf ⟨true, placedRoot, 0⟩ l va wr false = .ok (placedPage + va) := by
    have r : ∀ v < 0x200000, regionOf (placedPage + v) = 0 ∧ paDie (placedPage + v) = 0 := by
      intro v hv; simp only [regionOf, paDie, bits, placedPage]; constructor <;> omega
    simp only [State.engLeaf, pageLeaf, Nat.mod_eq_of_lt low, State.onLostDie, r va low, h.gen, c.live, c.whole]
    cases wr <;> simp
  have : ¬2 ^ 52 ≤ va := by omega
  simp only [State.engAddr, this, h.launch, h.asid, h.gen, h.space, a, leaf, if_false]
  rfl

theorem Placed.itemPa {s : State} {l : Launch} {va : Nat} (h : Placed s l va) :
    ∃ t, s.itemPa 0 1 va 2 = (.ok (placedPage + va), t) ∧ SameButTlb s t ∧ Placed t l va := by
  obtain ⟨t, a, b, c⟩ := h.engAddr false
  obtain ⟨u, d, e, f⟩ := c.engAddr true
  exact ⟨u, by simp [State.itemPa, a, d], b.trans e, f⟩

/-- The placed module with its launch changed, and a walker of ours at die 0. -/
def withL (f : Launch → Launch) (s : State) : State := { s with launches := s.launches.map fun x => (x.1, f x.2) }
def aWalker (next : Nat) (retry : List Nat) : Walker :=
  { Walker.fresh 0 with ready := true, ptab := 0x1000, stop := 4, next := next, retry := retry }

/-- A tensor launch whose walker is at record 3, whose state word is given. -/
def walking (sword : Nat) : State :=
  withL (fun l => { l with hdr := { l.hdr with kind := 0, tag := 5 }, walkers := [(0, aWalker 3 [])] })
    { w0 with mem := w0.mem.writeBytes 0x40010C8 (leBytes 8 sword) }

/-- TilesAndEpochs: a closed epoch whose last warp flushes it, of two contributions; and a packet on its way to a Hearth that waits. -/
theorem witness_TilesAndEpochs_epoch :
    (let s := withL (fun l => { l with started := [0], contribs := [⟨0, 0, 0, 1, 0, 0x4000100, 12, 0x3F800000⟩, ⟨0, 0, 0, 0, 0, 0x4000100, 12, 0x3F800000⟩] })
      (stW fun w => { w with epoch := 1, park := some (.oflush 0) })
     (s.launch? 1).map (fun l => s.epochClosed 1 l l.epochsDone) = some true ∧ s.memPoison = [] ∧ s.onLostDie 0x4000100 = false ∧ s.mem.wf = true ∧ regionOf 0x4000100 = 0 ∧
       (s.warpAt 0 0).launch = 1 ∧ (s.warpAt 0 0).park = some (.oflush 0)) ∧
    let s := (w0.setDie 7 { w0.die 7 with incoming := [⟨1, 0, [], [], 0, none⟩] }).setWarpAt 1344 48 { w0.warpAt 1344 48 with park := some .mbrecv }
    (s.die 7).incoming.find? (fun m => m.hops.isEmpty) = some ⟨1, 0, [], [], 0, none⟩ ∧ (s.warpAt (192 * 7) 48).park = some .mbrecv := by decide

/-- TilesAndEpochs: the record of the walker that runs next: DONE for this launch, MIGRATING, one that can run, and FAULTED and
ABSENT. -/
theorem witness_TilesAndEpochs_walk : ∀ sword ∈ [2 ^ 48 + 2 ^ 16 * 5 + 2, 3, 2, 1, 4, 0],
    let s := walking sword
    ∃ l, s.launch? 1 = some l ∧ l.walks = true ∧ s.dieLost 0 = false ∧ ∃ w, AMap.find? l.walkers 0 = some w ∧ w.waiting = none ∧ w.ready = true ∧
      w.out = none ∧ w.listing = none ∧ w.stopKnown = false ∧ l.walkStop = false ∧ w.next < w.stop ∧ w.retry.length < 1024 ∧ s.memPoison = [] ∧ s.mem.wf = true ∧ regionOf 0x40010C0 = 0 ∧
      (∃ t, s.engRange (192 * 0) 1 (w.ptab + 64 * w.next) 64 false false = (.ok [(0x40010C0, 64)], t)) ∧
      fieldN (s.mem.bytes 0x40010C0 64) 8 8 = sword ∧ l.hdr.tag.toNat = 5 ∧ l.hdr.walkRo = false ∧ l.hdr.walkD = 0 ∧ paDie 0x4000000 ∈ l.dies ∧
      s.dieLost (paDie 0x4000000) = false ∧ (s.die (paDie 0x4000000)).hasPlace 0 (.walker 0 1) = true := by
  simp only [List.mem_cons, List.not_mem_nil, or_false, forall_eq_or_imp, forall_eq]
  refine ⟨⟨_, rfl, rfl, rfl, _, rfl, rfl, rfl, rfl, rfl, rfl, rfl, by decide, by decide, rfl, by decide, by decide, ⟨_, rfl⟩, by decide, rfl, rfl, rfl, by decide, rfl, by decide⟩,
    ⟨_, rfl, rfl, rfl, _, rfl, rfl, rfl, rfl, rfl, rfl, rfl, by decide, by decide, rfl, by decide, by decide, ⟨_, rfl⟩, by decide, rfl, rfl, rfl, by decide, rfl, by decide⟩,
    ⟨_, rfl, rfl, rfl, _, rfl, rfl, rfl, rfl, rfl, rfl, rfl, by decide, by decide, rfl, by decide, by decide, ⟨_, rfl⟩, by decide, rfl, rfl, rfl, by decide, rfl, by decide⟩,
    ⟨_, rfl, rfl, rfl, _, rfl, rfl, rfl, rfl, rfl, rfl, rfl, by decide, by decide, rfl, by decide, by decide, ⟨_, rfl⟩, by decide, rfl, rfl, rfl, by decide, rfl, by decide⟩,
    ⟨_, rfl, rfl, rfl, _, rfl, rfl, rfl, rfl, rfl, rfl, rfl, by decide, by decide, rfl, by decide, by decide, ⟨_, rfl⟩, by decide, rfl, rfl, rfl, by decide, rfl, by decide⟩,
    _, rfl, rfl, rfl, _, rfl, rfl, rfl, rfl, rfl, rfl, rfl, by decide, by decide, rfl, by decide, by decide, ⟨_, rfl⟩, by decide, rfl, rfl, rfl, by decide, rfl, by decide⟩

/-- The launch of `walking`. -/
def walkingL : Launch := ((walking 2).launch? 1).getD (placedLaunch [])

theorem walking_placed (va : Nat) (low : va < 0x200000) (h : (walking 2).walk placedRoot va = .leaf pageLeaf) : Placed (walking 2) walkingL va :=
  ⟨rfl, rfl, rfl, rfl, h, low, by decide, by decide, rfl, rfl⟩

/-- TilesAndEpochs: the state word and the copy of the record of the walker that runs next can be reached, behind its reading. -/
theorem witness_TilesAndEpochs_claim : let s := walking 2
    ∃ t u v, s.engRange (192 * 0) 1 (0x1000 + 64 * 3) 64 false false = (.ok [(0x40010C0, 64)], t) ∧
      t.itemPa 0 1 (0x1000 + 64 * 3 + 8) 2 = (.ok 0x40010C8, u) ∧ regionOf 0x40010C8 = 0 ∧
      u.placeCopy (192 * 0) walkingL (fieldN (s.mem.bytes 0x40010C0 64) 16 8) = (some 0x4000000, v) := by
  have lift : ∀ {s t : State} {a b : Nat}, SameButTlb s t → Placed t walkingL a → Placed s walkingL b → Placed t walkingL b := by
    intro s t a b h p q
    exact ⟨q.asid, q.gen, p.launch, p.space, by rw [State.walk, h.mem]; exact q.walk, q.low, p.core, p.die, p.live, p.whole⟩
  obtain ⟨t, a, b, c⟩ := (walking_placed 0x10C0 (by decide) (by decide)).engAddr false
  obtain ⟨u, d, e, f⟩ := (lift b c (walking_placed 0x10C8 (by decide) (by decide))).itemPa
  obtain ⟨v, g, -, -⟩ := (lift (b.trans e) f (walking_placed 0 (by decide) (by decide))).lookup
  refine ⟨t, u, v, ?_, d, by decide, ?_⟩
  · have cut : cut64K (64 / 65536 + 2) (0x1000 + 64 * 3) 64 = [(0x10C0, 64)] := by decide
    simp only [State.engRange, cut, State.engPieces]
    rw [show 192 * 0 = 0 from rfl, a]; rfl
  · have zero : fieldN ((walking 2).mem.bytes 0x40010C0 64) 16 8 = 0 := by decide
    have sp : AMap.find? u.aspaces walkingL.asid = some ⟨true, placedRoot, 0⟩ := f.space
    simp only [State.placeCopy, zero, sp]
    rw [show 192 * 0 = 0 from rfl, show walkingL.asid = 1 from rfl, show walkingL.gen = 0 from rfl, g]; rfl

/-- `walking` at a FAULTED record, with a fault list of `cap` entries and a policy: 0 STOP, 1 SKIP, 2 WAIT. -/
def faulted (cap policy : Nat) : State :=
  let s := walking 4
  withL (fun l => { l with hdr := { l.hdr with faultlist := 0x2000, walk := BitVec.ofNat 64 (2048 * policy) } })
    { s with mem := s.mem.writeBytes 0x4002008 (leBytes 8 cap) }
def faultedL : Launch := ((faulted 1 0).launch? 1).getD (placedLaunch [])

/-- TilesAndEpochs: COUNT, CAP and the entry of a fault list of one entry can be reached, one after the other; a list of none is full. -/
theorem witness_TilesAndEpochs_listed : let s := faulted 1 0
    ∃ t u v y, s.engRange (192 * 0) 1 (0x1000 + 64 * 3) 64 false false = (.ok [(0x40010C0, 64)], t) ∧
      t.itemPa 0 1 0x2000 2 = (.ok 0x4002000, u) ∧ s.mem.readN 0x4002000 8 = 0 ∧ 3 ∉ faultedL.listed ∧
      (let r := (u.writePhys 0x4002000 (leBytes 8 1)).setLaunch 1 { faultedL with listed := [3] }
       r.engRange (192 * 0) 1 0x2008 8 false false = (.ok [(0x4002008, 8)], v) ∧ r.mem.readN 0x4002008 8 = 1) ∧
      v.itemPa 0 1 (0x2000 + 64) 1 = (.ok 0x4002040, y) ∧ (faulted 0 0).mem.readN 0x4002008 8 = 0 := by
  have place : ∀ va, va < 0x200000 → (faulted 1 0).walk placedRoot va = .leaf pageLeaf → Placed (faulted 1 0) faultedL va :=
    fun va low h => ⟨rfl, rfl, rfl, rfl, h, low, by decide, by decide, rfl, rfl⟩
  obtain ⟨t, a, b, c⟩ := (place 0x10C0 (by decide) (by decide)).engAddr false
  have p : Placed t faultedL 0x2000 :=
    ⟨rfl, rfl, c.launch, c.space, by rw [State.walk, b.mem]; decide, by decide, c.core, c.die, c.live, c.whole⟩
  obtain ⟨u, d, e, f⟩ := p.itemPa
  have m : u.mem = (faulted 1 0).mem := (b.trans e).mem
  let r := (u.writePhys 0x4002000 (leBytes 8 1)).setLaunch 1 { faultedL with listed := [3] }
  have rm : r.mem = (faulted 1 0).mem.writeBytes 0x4002000 (leBytes 8 1) := by rw [← m]; rfl
  have q : ∀ va, va < 0x200000 → walkFrom ((faulted 1 0).mem.writeBytes 0x4002000 (leBytes 8 1)) va [0, 1, 2, 3] placedRoot = .leaf pageLeaf →
      Placed r { faultedL with listed := [3] } va := fun va low h =>
    ⟨rfl, rfl, by show AMap.find? (AMap.set _ 1 _) 1 = _; simp, f.space, by rw [State.walk, rm]; exact h, low, f.core, f.die, f.live, f.whole⟩
  obtain ⟨v, g, h, i⟩ := (q 0x2008 (by decide) (by decide)).engAddr false
  have j : Placed v { faultedL with listed := [3] } 0x2040 :=
    ⟨rfl, rfl, i.launch, i.space, by rw [State.walk, h.mem, rm]; decide, by decide, i.core, i.die, i.live, i.whole⟩
  obtain ⟨y, k, -, -⟩ := j.engAddr true
  refine ⟨t, u, v, y, ?_, d, by decide, by decide, ⟨?_, ?_⟩, ?_, by decide⟩
  · have cut : cut64K (64 / 65536 + 2) (0x1000 + 64 * 3) 64 = [(0x10C0, 64)] := by decide
    simp only [State.engRange, cut, State.engPieces]
    rw [show 192 * 0 = 0 from rfl, a]; rfl
  · have cut : cut64K (8 / 65536 + 2) 0x2008 8 = [(0x2008, 8)] := by decide
    simp only [State.engRange, cut, State.engPieces]
    rw [show 192 * 0 = 0 from rfl, g]; rfl
  · rw [show State.mem _ = r.mem from rfl, rm]; decide
  · simp [State.itemPa, k]; rfl

/-- TilesAndEpochs: a full retry list, a record listed before, and a launch without a list, under each policy. -/
theorem witness_TilesAndEpochs_policies :
    (∀ p < 3, ((faulted 1 p).launch? 1).map (fun l => l.hdr.policy) = some p) ∧ walkingL.hdr.faultlist = 0 ∧
      1024 ≤ (aWalker 3 (List.replicate 1024 2)).retry.length ∧ 3 ∈ ({ faultedL with listed := [3] } : Launch).listed := by decide +kernel

/-- A queue whose ring, status block and event ring lie in device memory. -/
def inMemory (q : Queue) : Queue := { q with ring := 0x1000000, status := 0x1001000, evring := 0x1002000 }

/-- TilesAndEpochs: a retry pass 1 us behind the last one, and WALKFAULT when COUNT has grown to 1. -/
theorem witness_TilesAndEpochs_retry :
    (let w := { aWalker 4 [2] with pausedAt := some 0 }
     let s := { withL (fun l => { l with walkers := [(0, w)] }) w0 with time := 1000 }
     (s.launch? 1).map (fun l => (l.walks, AMap.find? l.walkers 0)) = some (true, some w) ∧ w.ready = true ∧ w.stopKnown = false ∧ w.out = none ∧
       w.listing = none ∧ w.stop ≤ w.next ∧
       w.pass = [] ∧ w.retry ≠ [] ∧ (0 : Nat) + 1000 ≤ s.time) ∧
    let s := withL (fun l => { l with hdr := { l.hdr with kind := 0, walk := 0x800, faultlist := 0x2000 } })
      { w0 with mem := w0.mem.writeBytes 0x4002000 (leBytes 8 1), queues := w0.queues.map fun x => (x.1, inMemory x.2) }
    ∃ l, s.launch? 1 = some l ∧ l.hdr.kind = 0 ∧ l.hdr.policy = 1 ∧ l.hdr.faultlist ≠ 0 ∧ l.faultsPosted < s.mem.readN 0x4002000 8 ∧ l.faultsPosted = 0 ∧
      s.memPoison = [] ∧ (∃ u, s.engRange 0 1 l.hdr.faultlist.toNat 8 false false = (.ok [(0x4002000, 8)], u)) ∧
      ∃ q, AMap.find? s.queues l.queue = some q ∧ (q.evw - q.evr).toNat ≠ q.evsize ∧ (s.takesWrite (s.byLivePort q.eventPa)).1 = true :=
  ⟨by decide, _, rfl, rfl, by decide, by decide, by decide, rfl, rfl, ⟨_, rfl⟩, _, rfl, by decide, by decide⟩

/-- A launch whose die-0 walker holds the placement table of `walking`, with block 0 of core 0 its tile 3. -/
def tiled : State :=
  withL (fun l => { l with walkers := [(0, aWalker 4 [])], dones := [(3, 0)], discards := [(0, 0)], pend := [(0, 2)] })
    (stC (fun c => { c with blocks := c.blocks.map fun b => (b.1, { b.2 with tile := some 3 }) }) id)

def tiledL : Launch := (tiled.launch? 1).getD (placedLaunch [])

/-- `tiled` once the block of tile 3 is discarded. -/
def discarding : State := (tiled.setLaunch 1 { tiledL with discards := [], faulting := some ⟨3, 0, none⟩ }).discardBlock 0 0

/-- TilesAndEpochs: the walker whose range holds the tile, under WAIT, with room and without. -/
theorem witness_TilesAndEpochs_room : ∀ x ∈ [([], false), (List.replicate 1024 0, true)],
    let l := { tiledL with hdr := { tiledL.hdr with walk := 4096 }, walkers := [(0, aWalker 4 x.1)] }
    l.hdr.policy = 2 ∧ l.rangeDie 3 = some 0 ∧ AMap.find? l.walkers 0 = some (aWalker 4 x.1) ∧ (aWalker 4 x.1).stopKnown = false ∧
      decide (1024 ≤ (aWalker 4 x.1).retry.length + (aWalker 4 x.1).pass.length) = x.2 := by decide +kernel

/-- TilesAndEpochs: the state word of the tile, behind the discard of its block. -/
theorem witness_TilesAndEpochs_discard : let v := discarding
    tiledL.walks = true ∧ tiledL.waiting = none ∧ tiledL.faulting = none ∧ tiled.memPoison = [] ∧ ∃ u, v.itemPa v.stokerDie 1 (tiledL.ptab 3 + 64 * 3 + 8) 2 = (.ok 0x40010C8, u) := by
  have p : Placed discarding ((discarding.launch? 1).getD (placedLaunch [])) 0x10C8 := by
    constructor <;> decide +kernel
  obtain ⟨u, a, -, -⟩ := p.itemPa
  exact ⟨by decide +kernel, by decide +kernel, by decide +kernel, rfl, u, by rw [show discarding.stokerDie = 0 by decide +kernel]; exact a⟩

/-- TilesAndEpochs: DONE of tile 3 on die 0, and its discard. -/
theorem witness_TilesAndEpochs_done : let s := tiled
    s.launch? 1 = some tiledL ∧ tiledL.phase = .running ∧ tiledL.waiting = none ∧ (tiledL.dones.filter fun x => x.2 == 0).head? = some (3, 0) ∧
    (∃ u, s.itemPa 0 1 (tiledL.ptab 3 + 64 * 3 + 8) 2 = (.ok 0x40010C8, u)) ∧ regionOf 0x40010C8 = 0 ∧ s.mem.wf = true ∧ s.memPoison = [] ∧
    tiledL.discards = [(0, 0)] ∧ (AMap.find? (s.core 0).blocks 0).map Block.tile = some (some 3) ∧ tiledL.hdr.faultlist = 0 ∧
    (s.core 0).matFailed = [] ∧ (s.core 0).sortFailed = [] := by
  have p : Placed tiled tiledL 0x10C8 := ⟨rfl, rfl, rfl, rfl, by decide, by decide, by decide, by decide, rfl, rfl⟩
  obtain ⟨u, a, -, -⟩ := p.itemPa
  exact ⟨rfl, rfl, rfl, by decide, ⟨u, a⟩, by decide, by decide, rfl, rfl, by decide, by decide, rfl, rfl⟩

/-- The placed module with queue 0 changed, and at time t. -/
def withQ (t : Nat) (f : Queue → Queue) : State := { w0 with queues := w0.queues.map fun x => (x.1, f x.2), time := t }
/-- Queues 1 to 128, one in each hardware slot. -/
def fullSlots (s : State) : State := { s with queues := s.queues ++ (List.range 128).map fun i => (i + 1, { Queue.admin with slot := some i, state := 1, wr := 4 }) }

/-- QueueRegisters: doorbells of a mapped queue, of one that a slot takes, and of one for which there is none; event doorbells
with and without lost events. -/
theorem witness_QueueRegisters_doorbells :
    (AMap.find? (withQ 0 fun q => { q with slot := some 0, state := 1 }).queues 0).map (fun q => q.slot) = some (some 0) ∧
    (let s := withQ 0 fun q => { q with slot := none, state := 0 }
     (AMap.find? s.queues 0).map (fun q => (q.slot, q.state, q.ridx)) = some (none, 0, 0) ∧ (4 : BitVec 32) ≠ 0 ∧ s.freeHwSlots ≠ []) ∧
    (let s := fullSlots (withQ 0 fun q => { q with slot := none, state := 0 })
     (AMap.find? s.queues 0).map (fun q => (q.slot, q.state, q.ridx)) = some (none, 0, 0) ∧ s.freeHwSlots = []) ∧
    (AMap.find? w0.queues 0).map (fun q => q.evlost) = some 0 ∧
    (AMap.find? (withQ 0 fun q => { q with evlost := 1, evw := 4096 }).queues 0).map (fun q => (q.evlost, (q.evw - 32).toNat == q.evsize)) = some (1, false) := by
  decide

/-- QueueRegisters: events that a device-memory ring takes, and that no port takes; an ABORT without and with a running LAUNCH; and a
RESTART that no ABORT stands before. -/
theorem witness_QueueRegisters_events :
    (let q := { inMemory Queue.admin with evlost := 1, evw := 4096 }
     (w0.takesWrite (w0.byLivePort q.eventPa)).1 = true ∧ (w0.takesWrite (w0.byLivePort { q with evring := 3 * 2 ^ 44 }.eventPa)).1 = false ∧ q.evlost ≠ 0 ∧
       (q.evw - 32).toNat + 32 ≤ (q.evw - q.evr).toNat ∧ ¬(q.evw - q.evr).toNat + 32 ≤ (q.evw - q.evr).toNat) ∧
    (let s := withQ 0 fun q => { q with started := [⟨0, 1, false, [], 1, 0, 0, false, []⟩] }
     (AMap.find? w0.queues 0).map (fun q => (q.abort, q.started)) = some (none, []) ∧
       (AMap.find? s.queues 0).map (fun q => (q.abort.isNone, q.started.map fun x => (x.type, x.launch))) = some (true, [(1, 1)]) ∧
       (s.launch? 1).map (fun l => decide (l.phase ≠ .reserved)) = some true) := by decide

/-- QueueRegisters: RESTART behind a started packet, at a good index and at a bad one; aging; and the three cases of a rotation. -/
theorem witness_QueueRegisters_slots :
    (∀ x ∈ [([(⟨0, 1, false, [], 0, 0, 0, false, []⟩ : Started)], (0 : Nat)), ([], 0), ([], 2)],
      (AMap.find? (withQ 0 fun q => { q with state := 3, restart := true, started := x.1, newridx := BitVec.ofNat 32 x.2 }).queues 0).map
        (fun q => (q.restart, q.state, q.started == [], q.newridx.toNat % 4, decide ((q.wr - q.newridx).toNat ≤ q.size))) =
          some (true, 3, x.1.isEmpty, x.2, decide (x.2 = 0))) ∧
    (AMap.find? (withQ 1000000 fun q => { q with state := 2 }).queues 0).map
      (fun q => (q.state, decide (q.ageus ≠ 0), decide (q.waitAt + 1000 * q.ageus * (q.aged + 1) ≤ 1000000))) = some (2, true, true) ∧
    (let s := withQ 64000 fun q => { q with slot := some 0, state := 1, wr := 4, mappedAt := 1 }
     keysRise s.queues = true ∧ s.rotatedAt + 64000 ≤ s.time ∧
       (AMap.find? s.queues 0).map (fun q => (q.slot.isSome, q.hasWork, decide (s.rotatedAt < q.mappedAt))) = some (true, true, true)) ∧
    (let s := withQ 64000 fun q => { q with slot := some 0, state := 1 }
     (AMap.find? s.queues 0).map (fun q => (q.slot.isSome, q.hasWork, decide (q.state ≠ 3))) = some (true, false, true)) ∧
    let s := withQ 64000 fun q => { q with slot := none, state := 2, wr := 4 }
    (AMap.find? s.queues 0).map (fun q => (q.slot.isSome, q.hasWork)) = some (false, true) ∧ s.queues.map Prod.fst = [0] ∧ s.freeHwSlots ≠ [] := by decide

/-- A packet's words (R326): type, flags, and its fields' tags and bodies. -/
def pktWords (type flags : Nat) (fs : List (Nat × List Nat)) : List Nat :=
  let body := fs.flatMap fun f => (65536 * f.1 + f.2.length) :: f.2
  (2 ^ 20 * type + 2 ^ 8 * (body.length + 1) + flags) :: body

/-- A state with a packet published in queue 0, which is mapped and whose status block is on the bus. -/
def published (s : State) (ws : List Nat) : State :=
  { s with queues := s.queues.map fun x => (x.1, { x.2 with slot := some 0, state := 1, wr := BitVec.ofNat 32 (4 * ws.length), ring := 0x1000000, status := 2 ^ 44, asid := 1 })
           mem := s.mem.writeBytes 0x1000000 (ws.flatMap (leBytes 4)) }

/-- The next packet of queue 0 passes its checks, nothing is started before it, and P holds of it. -/
def Starts (s : State) (P : Queue → Pkt → Prop) : Prop :=
  ∃ q p u d v, s.nextPacket 0 = (some (q, p), u) ∧ u.checkValues p = (.ok d, v) ∧ q.started = [] ∧ regionOf q.status ≠ 0 ∧ P q p

/-- The placed module without its launch. -/
def noLaunch : State := { w0 with launches := [] }
/-- Whether a launch holds a space (R210, R216). -/
def holds (s : State) (a : Nat) (saved : Bool) : Bool := s.launches.any fun x => x.2.asid == a && (saved || x.2.phase != .saved)

/-- Packets: NOP, INVAL, SIGNAL, WAITV, QUEUE of both operations, WINDOW. -/
theorem witness_Packets :
    Starts (published w0 (pktWords 0 0 [])) (fun _ p => p.type = 0) ∧
    Starts (published w0 (pktWords 2 0 [(1, [1, 0, 0, 0, 0x200000, 0])])) (fun _ p => p.type = 2 ∧ p.val 0 = 1 ∧ p.val 2 = 0x200000) ∧
    Starts (published w0 (pktWords 3 0 [(1, [0x5000000, 0, 7, 0])])) (fun q p => p.type = 3 ∧ p.val 0 < 2 ^ 46 ∧ regionOf (p.val 0) = 0 ∧
      pktEvent p.word = false ∧ (p.val 0 + 8 ≤ q.status + 8 ∨ q.status + 16 ≤ p.val 0)) ∧
    Starts (published w0 (pktWords 4 0 [(1, [0x5000000, 0, 7, 0])])) (fun _ p => p.type = 4) ∧ w0.onLostDie 0x5000000 = false ∧
    Starts (published { w0 with mem := ((w0.mem.writeBytes 0x5000008 (leBytes 4 4096)).writeBytes 0x5000020 (leBytes 4 4096)) }
      (pktWords 5 0 [(1, [4095, 1, 0x5000000, 0])])) (fun _ p => p.type = 5 ∧ p.val 0 / 2 ^ 32 = 1 ∧ regionOf (p.val 1) = 0) ∧
    Starts (published { w0 with queues := w0.queues ++ [(7, Queue.admin)] } (pktWords 5 0 [(1, [7, 2, 0, 0])]))
      (fun _ p => p.type = 5 ∧ p.val 0 / 2 ^ 32 = 2 ∧ p.val 0 % 2 ^ 32 ≠ 0) ∧
    Starts (published w0 (pktWords 9 0 [(1, [1, 0, 0, 0x10])])) (fun _ p => p.type = 9 ∧ p.val 0 = 1) :=
  ⟨⟨_, _, _, _, _, rfl, rfl, rfl, by decide, by decide⟩, ⟨_, _, _, _, _, rfl, rfl, rfl, by decide, by decide⟩, ⟨_, _, _, _, _, rfl, rfl, rfl, by decide, by decide⟩,
   ⟨_, _, _, _, _, rfl, rfl, rfl, by decide, by decide⟩, by decide, ⟨_, _, _, _, _, rfl, rfl, rfl, by decide, by decide⟩, ⟨_, _, _, _, _, rfl, rfl, rfl, by decide, by decide⟩,
   ⟨_, _, _, _, _, rfl, rfl, rfl, by decide, by decide⟩⟩

/-- Packets: the packets about a space, with a launch in it and without. -/
theorem witness_Packets_spaces :
    (∀ x ∈ [(w0, true), (noLaunch, false)], Starts (published x.1 (pktWords 6 0 [(1, [1, 0])])) fun _ p => p.type = 6 ∧ p.val 0 = 1 ∧
      (AMap.find? x.1.aspaces 1).isSome = true ∧ holds x.1 1 false = x.2) ∧
    Starts (published w0 (pktWords 8 0 [(1, [2, 0, 1, 0, 0x2000000, 0])])) (fun _ p => p.type = 8 ∧ p.val 1 = 1) ∧
    (∀ x ∈ [(w0, true), (noLaunch, false)], Starts (published x.1 (pktWords 8 0 [(1, [1, 0, 2, 0, 0x2000000, 0])])) fun _ p => p.type = 8 ∧ p.val 1 = 2 ∧
      p.val 0 = 1 ∧ holds x.1 1 true = x.2) ∧
    ∀ x ∈ [(w0, true), (noLaunch, false)], Starts (published x.1 (pktWords 8 0 [(1, [1, 0, 3, 0, 0, 0])])) fun _ p => p.type = 8 ∧ p.val 1 = 3 ∧
      p.val 0 = 1 ∧ holds x.1 1 true = x.2 := by
  simp only [List.mem_cons, List.not_mem_nil, or_false, forall_eq_or_imp, forall_eq]
  exact ⟨⟨⟨_, _, _, _, _, rfl, rfl, rfl, by decide, by decide⟩, _, _, _, _, _, rfl, rfl, rfl, by decide, by decide⟩, ⟨_, _, _, _, _, rfl, rfl, rfl, by decide, by decide⟩,
    ⟨⟨_, _, _, _, _, rfl, rfl, rfl, by decide, by decide⟩, _, _, _, _, _, rfl, rfl, rfl, by decide, by decide⟩,
    ⟨_, _, _, _, _, rfl, rfl, rfl, by decide, by decide⟩, _, _, _, _, _, rfl, rfl, rfl, by decide, by decide⟩

/-- The placed module, its warp parked on an address, with packets started in queue 0. -/
def started (l : List Started) : State :=
  let s := stW fun w => { w with park := some (.xlate 0x1FFFFF) }
  { s with queues := s.queues.map fun x => (x.1, { x.2 with started := l }) }

/-- Packets: what completes an INVAL of the parked warp's space and one of another, a WAITV at its value and one below it. -/
theorem witness_Packets_complete :
    (∀ a ∈ [1, 2], let x : Started := ⟨3, 2, false, [BitVec.ofNat 64 a, 0, 0x200000], 0, 0, 0, false, List.range 8⟩; let s := started [x]
      (AMap.find? s.queues 0).map (fun q => q.started.find? fun x => x.type == 2) = some (some x) ∧
      (s.warpAt 0 0).park = some (.xlate 0x1FFFFF) ∧ (s.launch? (s.warpAt 0 0).launch).map (fun l => decide (l.asid = x.val 0)) = some (decide (a = 1)) ∧
      x.val 1 ≤ 0x1FFFFF ∧ 0x1FFFFF < x.val 1 + x.val 2) ∧
    ∀ n ∈ [(0, true), (1, false)], let x : Started := ⟨3, 4, false, [0x5000000, BitVec.ofNat 64 n.1], 0, 0, 0, false, []⟩; let s := started [x]
      (AMap.find? s.queues 0).map (fun q => q.started.filter fun x => x.type == 4) = some [x] ∧ regionOf (x.val 0) = 0 ∧ s.onLostDie (x.val 0) = false ∧
      decide (x.val 1 ≤ s.mem.readN (x.val 0) 8) = n.2 := by decide

/-- Packets: an INVAL that dies have still to confirm, and one that the last die confirms. -/
theorem witness_Packets_confirmed : ∀ x ∈ [([7], [0, 1, 2, 3, 4, 5, 6]), (List.range 8, ([] : List Nat))],
    (List.range 8).filter (fun d => !x.1.contains d && w0.dieLive d) = x.2 := by decide

/-- TransfersAndFirmware: an XFER of a page's last bytes, a FIRMWARE stage, and activations of kinds 1 and 3. -/
theorem witness_TransfersAndFirmware_packets :
    let staged := { w0 with flash := [(1, ⟨[1], some [2]⟩), (3, ⟨[1], some [2]⟩)] }
    Starts (published w0 (pktWords 7 0 [(1, [3, 0, 2, 0, 0xFF00, 0, 0, 0, 0x100, 0])])) (fun q p => p.type = 7 ∧ p.val 2 % 65536 + p.val 4 ≤ 65536 ∧
      q.asid = 1 ∧ p.val 2 = 0xFF00 ∧ w0.spacePa 1 0xFF00 false = some 0x400FF00 ∧ (w0.die (paDie 0x400FF00)).isolated = false ∧ paExists 0x400FF00 = true ∧
      w0.memPoison = [] ∧ w0.livePorts ≠ []) ∧
    Starts (published w0 (pktWords 10 0 [(1, [0x301, 0, 0x5000000, 0, 64, 0])])) (fun _ p => p.type = 10 ∧ p.val 0 % 16 = 1) ∧
    Starts (published staged (pktWords 10 0 [(1, [0x102, 0, 0, 0, 64, 0])])) (fun _ p => p.type = 10 ∧ p.val 0 % 16 = 2 ∧ bits (p.val 0) 11 8 = 1 ∧
      (staged.bank 1).staged = some [2]) ∧
    Starts (published staged (pktWords 10 0 [(1, [0x302, 0, 0, 0, 64, 0])])) (fun _ p => p.type = 10 ∧ p.val 0 % 16 = 2 ∧ bits (p.val 0) 11 8 ≠ 1) :=
  ⟨⟨_, _, _, _, _, rfl, rfl, rfl, by decide, by decide⟩, ⟨_, _, _, _, _, rfl, rfl, rfl, by decide, by decide⟩, ⟨_, _, _, _, _, rfl, rfl, rfl, by decide, by decide⟩,
   _, _, _, _, _, rfl, rfl, rfl, by decide, by decide⟩

/-- TransfersAndFirmware: what completes them, bytes from another module to a page that takes them and to none, and the exchange. -/
theorem witness_TransfersAndFirmware_complete :
    (let x : Started := ⟨3, 7, false, [], 0, 0, 0, true, []⟩
     (AMap.find? (started [x]).queues 0).map (fun q => q.started.find? fun x => x.type == 7 && x.sent) = some (some x) ∧
       (∀ p ∈ [3, 4], let u : Outbound := ⟨3, 2, 0, [], p, 0, 3⟩; let t := { started [x] with eslynOut := [u], eslynLost := [3] }
         t.eslynOut.any (fun u => u.queue == 0 && u.num == x.num && t.eslynLost.contains u.port) = decide (p = 3))) ∧
    (let x : Started := ⟨3, 10, false, [0x301, 0x5000000, 64], 0, 0, 0, false, []⟩
     (AMap.find? (started [x]).queues 0).map (fun q => q.started.find? fun x => x.type == 10 && x.val 0 % 16 == 1) = some (some x) ∧ regionOf (x.val 1) = 0) ∧
    w0.spacePa 1 0x1FFFFF true = some 0x41FFFFF ∧ w0.onLostDie 0x41FFFFF = false ∧ w0.spacePa 1 0x200000 true = none ∧ w0.mem.wf = true ∧
    let s := { w0 with standbyReady := true, standbyLive := true }
    s.standbyReady = true ∧ s.standbyLive = true ∧ s.dieLive s.standbyDie = true ∧ (s.launches.all fun x => x.2.phase != .reserved) = true := by decide

/-- A header of kind 1 with one warp of 32 registers and tag 5, at va 0x1000. -/
def headed (s : State) : State := { s with mem := s.mem.writeBytes 0x4001000 (leBytes 8 0x500004011) }
def launchWords : List Nat := pktWords 1 0 [(1, [0x1000, 0]), (2, [0, 0])]

/-- LaunchStages: a LAUNCH whose rectangle fits, and one whose header is all 0. -/
theorem witness_LaunchStages_launch :
    (let s := published (headed noLaunch) launchWords
     ∃ q p u h b v os t, s.nextPacket 0 = (some (q, p), u) ∧ p.type = 1 ∧ (p.field 2).map (Field.val · 0) = some 0 ∧
       u.launchValues q p = (.ok (h, b), v) ∧ v.spaceHeld q.asid = false ∧
       (v.launchOf 0 q p h b).originsFor 0 = .ok os ∧ v.reserveAny s.nextLaunch (v.launchOf 0 q p h b) 0 os = .ok t) ∧
    let s := published noLaunch launchWords
    ∃ q p u b v, s.nextPacket 0 = (some (q, p), u) ∧ p.type = 1 ∧ u.launchValues q p = (.error b, v) :=
  ⟨⟨_, _, _, _, _, _, _, _, rfl, by decide, by decide, rfl, rfl, rfl, rfl⟩, _, _, _, _, _, rfl, by decide, rfl⟩

/-- A core 0 without warps and blocks. -/
def cleared (s : State) : State := s.setCore 0 { s.core 0 with warps := [], blocks := [] }

/-- LaunchStages: commit, and one that a queue in error holds back. -/
theorem witness_LaunchStages_commit : ∀ x ∈ [0, 3],
    let s := withL (fun l => { l with phase := .reserved }) (withQ 0 fun q => { q with state := x })
    (s.launch? 1).map (fun l => decide (l.phase = .reserved)) = some true ∧ (AMap.find? s.queues 0).map (fun q => q.state) = some x := by decide

/-- The placed launch committed, with a record of its kind. -/
def committed (k : Nat) : State :=
  withL (fun l => { l with phase := .committed, started := [], hdr := { l.hdr with kind := k, fixup := 0x3000, splitT := 9 } }) w0

/-- LaunchStages: the start of kind 0. -/
theorem witness_LaunchStages_start :
    ∃ l, (committed 0).launch? 1 = some l ∧ (committed 0).mayStart 0 l = true ∧ l.resumed = false ∧ l.hdr.kind = 0 :=
  ⟨_, rfl, by decide, by decide, by decide⟩

/-- LaunchStages: the start of a resumed launch. -/
theorem witness_LaunchStages_again :
    let s := withL (fun l => { l with phase := .committed, started := [], resumed := true }) w0
    (s.launch? 1).map (fun l => (s.mayStart 0 l, l.resumed)) = some (true, true) := by decide

/-- LaunchStages: the start of kind 2, whose record is written. -/
theorem witness_LaunchStages_record :
    ∃ l t, (committed 2).launch? 1 = some l ∧ (committed 2).mayStart 0 l = true ∧ l.resumed = false ∧ l.started = [] ∧ l.hdr.kind = 2 ∧
      (committed 2).writeFixup 0 1 l = .ok t :=
  ⟨_, _, rfl, by decide, by decide, by decide, by decide, rfl⟩

/-- LaunchStages: completion. -/
theorem witness_LaunchStages_complete :
    let s := withL (fun l => { l with started := [0] }) (cleared w0)
    ∃ l, s.launch? 1 = some l ∧ l.phase = .running ∧ s.launchIdle 1 l = true ∧ l.hdr.resume = 0 ∧
      (AMap.find? s.queues l.queue).isSome = true :=
  ⟨_, rfl, by decide, by decide, by decide, by decide⟩

/-- The placed launch in Reserve for 1 ms, after a number of timeouts. -/
def waited (r : Nat) : State := { withL (fun l => { l with phase := .reserved, reservedAt := 0, retries := r }) w0 with time := 1000000 }

/-- LaunchStages: the second timeout, and the third. -/
theorem witness_LaunchStages_timeout :
    (∃ l, (waited 1).launch? 1 = some l ∧ 0 ∈ l.dies ∧ l.phase = .reserved ∧ l.reservedAt + 1000000 ≤ (waited 1).time ∧ l.retries < 2) ∧
    ∃ l, (waited 2).launch? 1 = some l ∧ 0 ∈ l.dies ∧ l.phase = .reserved ∧ l.reservedAt + 1000000 ≤ (waited 2).time ∧ 2 ≤ l.retries ∧
      (AMap.find? (waited 2).queues l.queue).isSome = true :=
  ⟨⟨_, rfl, by decide, by decide, by decide, by decide⟩, _, rfl, by decide, by decide, by decide, by decide, by decide⟩

/-- LaunchStages: a launch to stop, while it runs; while a child of it is on its way; once its dies have acknowledged, for a trap and
for an ABORT that is the last on its queue. -/
theorem witness_LaunchStages_stop :
    let q := { Queue.admin with status := 2 ^ 44, started := [⟨0, 1, false, [], 1, 0, 0, false, []⟩] }
    let s := fun ph => withL (fun l => { l with phase := ph }) (({ w0 with queues := [(0, q)] } : State).takeTrap (trapOf true gALIGN 1 0 0))
    ((s .running).launch? 1).map (fun l => (l.trap.isSome, decide (l.phase = .running))) = some (true, true) ∧
    (let t := { s .stopping with travel := [⟨0, ⟨1, 0x40, 0, [], 0, 32, 0, 0, 0, 0⟩, [], 0, 0⟩] }
     (t.launch? 1).map (fun l => t.halted 1 l false) = some false) ∧
    ((s .stopping).launch? 1).map (fun l => ((s .stopping).halted 1 l false, decide (l.hdr.kind ≠ 0))) = some (true, true) ∧
    ((s .saved).launch? 1).map (fun l => l.waiting) = some none ∧
    let t := withL (fun l => { l with phase := .stopping, aborted := true }) { w0 with queues := [(0, { q with abort := some ⟨0, 0, 0, false⟩ })] }
    (t.launch? 1).map (fun l => (l.aborted, t.halted 1 l false, l.num)) = some (true, true, 0) ∧
      (AMap.find? t.queues 0).map (fun q => (q.abort.map fun a => a.remove, q.started.map fun y => y.num)) = some (some false, [0]) := by decide

/-- LaunchStages: the stop a trap orders. -/
theorem witness_LaunchStages_trap :
    let s := { w0 with queues := [(0, { Queue.admin with status := 2 ^ 44 })] }.takeTrap (trapOf true gALIGN 1 0 0)
    ∃ l x q, s.launch? 1 = some l ∧ l.trap = some x ∧ l.phase ≠ .reserved ∧ l.waiting.isNone = true ∧ l.hdr.kind ≠ 0 ∧
      AMap.find? s.queues l.queue = some q ∧ q.state ≠ 3 ∧ regionOf (q.status + 32) ≠ 0 ∧ s.portAnswers (q.status + 32) = true :=
  ⟨_, _, _, rfl, rfl, by decide, by decide, by decide, rfl, by decide, by decide, by decide⟩

/-- The placed launch once it is saved: its one core, and no warp or block of it in the module. -/
def savedOne : State := withL (fun l => { l with phase := .saved, savedCores := [⟨0, (w0.core 0).only 1⟩] }) (cleared w0)

/-- LaunchStages: a stopping launch that is quiet, and a saved one whose core has room. -/
theorem witness_LaunchStages_preempt :
    (let s := withL (fun l => { l with phase := .stopping }) w0
     (s.launch? 1).map (fun l => (l.phase, l.trap, l.aborted, s.halted 1 l true, (s.core 0).has 1)) = some (.stopping, none, false, true, true)) ∧
    ∃ l x, savedOne.launch? 1 = some l ∧ l.phase = .saved ∧ l.trap = none ∧ l.aborted = false ∧ l.asid ∉ savedOne.genDue ∧
      savedOne.unitsFit l = true ∧ savedOne.diesHold 1 { l with chim := [] } = true ∧ l.savedChimney = [] ∧
      l.savedCores.all (savedOne.coreFits 1 l) = true ∧ l.savedCores = [x] ∧ keysRise x.content.warps = true ∧
      ∃ w, AMap.find? x.content.warps 0 = some w ∧ w.park = none :=
  ⟨by decide, _, _, rfl, rfl, rfl, rfl, by decide, by decide, by decide, rfl, by decide, rfl, by decide, _, rfl, rfl⟩

/-- ClocksAndLinks: a tick due with a warp parked in a module channel whose phase is over and one whose phase is not, and one not due;
a frame due; the 16th error of a lane; calibration. -/
theorem witness_ClocksAndLinks_times :
    (∀ ph ∈ [0, 1], let s := { withChannel ⟨1, 2, true, 0, 1⟩ with time := 128 }.setWarpAt 0 0 { placedWarp with park := some (.chim 15 true ph) }
     128 * (s.ticks + 1) ≤ s.time ∧ (s.warpAt 0 0).park = some (.chim 15 true ph) ∧
       AMap.find? (s.die (dieOf 0)).chimney 15 = some ⟨1, 2, true, 0, 1⟩) ∧
    State.reset.time < 128 * (State.reset.ticks + 1) ∧ State.reset.time < 512 * (State.reset.frames + 1) ∧
    (let s := { w0 with time := 512 }; 512 * (s.frames + 1) ≤ s.time ∧ keysRise s.dies = true) := by decide

/-- ClocksAndLinks: no launch of the placed module waits for a die to start. -/
theorem witness_ClocksAndLinks_started (n d : Nat) (l : Launch) (h : w0.launch? n = some l) : w0.mayStart d l = false := by
  have a : w0.launches = [(1, placedLaunch w0.mem)] := by rfl
  simp only [State.launch?, a, AMap.find?] at h
  split at h
  · simp only [Option.some.injEq] at h
    subst h
    by_cases e : d = 0
    · subst e; rfl
    · simp [State.mayStart, placedLaunch, e]
  · simp at h

/-- ClocksAndLinks: a die that is four ticks late; flits that wait at links that work and at one that is lost, and one child alone. -/
theorem witness_ClocksAndLinks_moves :
    (let s := { committed 0 with ticks := 3, time := 512 }
     128 * (s.ticks + 1) ≤ s.time ∧ s.launches.length = 1 ∧
       (s.launch? 1).map (fun l => (l.hdr.kind, l.resumed, decide (l.tick + 4 ≤ s.ticks + 1), s.mayStart 0 l)) = some (0, false, true, true)) ∧
    (let s := (w0.setDie 7 { w0.die 7 with incoming := [⟨1, 2, [], [18], 0, none⟩] }).setDir 19 { w0.dir 19 with lost := true }
     (s.die 7).incoming[0]? = some ⟨1, 2, [], [18], 0, none⟩ ∧ s.linkUp (18 / 2) = false ∧ keysRise s.dies = true) ∧
    let c : Child := ⟨192, ⟨1, 0x40, 0, [], 0, 32, 0, 0, 0, 0⟩, [0], 0, 0⟩
    let s := { w0 with travel := [c] }
    s.linkUp 0 = true ∧ (s.dies.all fun x => x.2.incoming.isEmpty) = true ∧ s.travel = [c] ∧ c.hops = [0] := by decide

/-- ClocksAndLinks: the 16th CRC failure of a lane that carries flits, and failures of a lane that carries none; a calibration within
10 ms of the last, and one behind them. -/
theorem witness_ClocksAndLinks_lanes :
    (let s := w0.setDir 19 { w0.dir 19 with errors := [(31, 15)] }
     (s.dir 19).lost = false ∧ 31 ∈ (s.dir 19).carrying ∧ AMap.get 0 (s.dir 19).errors 31 = 15 ∧ 31 ∉ (s.dir 19).due ∧ 33 ∉ (s.dir 19).carrying) ∧
    ∀ t ∈ [1, 10000000], let s := { w0.setDir 0 { w0.dir 0 with calibrated := some 0 } with time := t }
      (s.dir 0).calibrated = some 0 ∧ (decide (s.time < 0 + 10000000) = decide (t = 1)) := by decide

/-- A module in which direction 19 has failed lanes and replays. -/
def linked (failed replays : Nat) : State := { w0 with flue := [(19, { w0.dir 19 with failed := List.range failed, replays := replays })] }

/-- ClocksAndLinks: a link that holds and links that do not, under a launch that drives another and under one in Reserve and one running
that drive it; sampling; the clock at both ends of its range, due and not due. -/
theorem witness_ClocksAndLinks_links :
    ((linked 2 7).dir 19).lost = false ∧ ((linked 2 7).dir 19).failed.length + ((linked 2 7).dir 19).due.length < 3 ∧ ((linked 2 7).dir 19).replays < 8 ∧
    3 ≤ ((linked 3 0).dir 19).failed.length + ((linked 3 0).dir 19).due.length ∧ 8 ≤ ((linked 0 8).dir 19).replays ∧ keysRise (linked 3 0).launches = true ∧
    ((linked 3 0).launch? 1).map (fun l => l.links.all fun x => x / 2 != 9) = some true ∧
    (∀ p ∈ [Phase.reserved, .running], let s := withL (fun l => { l with phase := p, flue := some (0, 2 ^ 19) }) (linked 3 0)
      (s.launch? 1).map (fun l => (l.phase, l.trap, l.links.any fun x => x / 2 == 9)) = some (p, none, true)) ∧
    (let s := { w0 with time := 1000000, power := 3600001 }
     (s.die 0).telemetry.time.toNat + 1000000 ≤ s.time ∧ s.limit < s.power ∧ s.stepAt + 1000000 ≤ s.time ∧ 400 ≤ s.mhzNext.getD s.mhz) ∧
    w0.power ≤ w0.limit ∧
    (let s := { w0 with mhzNext := some 399 }; s.mhzNext.getD s.mhz < 400 ∧ s.time < s.stepAt + 1000000) ∧
    (let s := { w0 with mhzNext := some 650, time := 10000000 }; s.lowSince = some 0 ∧ s.upAt + 10000000 ≤ s.time ∧ s.mhzNext.getD s.mhz ≤ 650) ∧
    650 < w0.mhzNext.getD w0.mhz ∧ w0.time < w0.upAt + 10000000 := by decide

/-- MemoryAndPorts: places of every kind that hold something; requests under the space's generation, and under another, and inside
the 1 ms behind a rejection; windows and ports of both dies, one of them lost. -/
theorem witness_MemoryAndPorts :
    (let pa := 2 ^ 40 - 1; pa < 2 ^ 44 ∧ paExists pa = true ∧ regionOf pa = 0) ∧ w0.mem.wf = true ∧
    (AMap.find? w0.aspaces 1).map (fun x => x.gen) = some 0 ∧
    (let s := { w0 with dies := w0.dies.set 7 { w0.die 7 with rejectAt := [(1, 0)] } }
     s.dies.any (fun d => (AMap.find? d.2.rejectAt 1).isSome && d.1 != paDie 0 && decide (s.time < 0 + 1000000)) = true) ∧
    (w0.warpAt 0 0).status ≠ .free ∧
    (2 ^ 40 - 1) / 64 ∈ ({ w0 with dirtyPoison := [(2 ^ 40 - 1) / 64] } : State).dirtyPoison ∧
    (w0.setDie 7 { w0.die 7 with isolated := true }).onLostDie (2 ^ 40 - 1) = true ∧ w0.onLostDie (2 ^ 40 - 1) = false ∧
    (AMap.find? w0.queues 0).map (fun q => (decide ((q.evw - q.evr).toNat ≠ q.evsize), regionOf (inMemory q).eventPa, decide ((inMemory q).status + 32 ≤ (inMemory q).eventPa))) =
      some (true, 0, true) ∧ w0.dirtyPoison.length < 2 ^ 20 ∧ (AMap.find? w0.queues 0).map (fun q => w0.onLostDie (inMemory q).eventPa) = some false ∧
    (∀ p < 2, w0.dieLost (portDie p) = false ∧ (w0.setDie (portDie p) { w0.die (portDie p) with isolated := true }).dieLost (portDie p) = true) ∧
    (∀ p < 2, (w0.die (if p = 0 then 0 else 7)).isolated = false ∧ regionOf ((if p = 0 then w0.window0 else w0.window1) + 2 ^ 36 - 1) = 0 ∧
      (w0.die (paDie ((if p = 0 then w0.window0 else w0.window1) + 2 ^ 36 - 1))).isolated = false) ∧
    (let u : Outbound := ⟨3, 2, 0, [], 19, 0, 3⟩
     let s := { started [⟨3, 7, false, [], 0, 0, 0, true, []⟩] with eslynOut := [u] }
     s.eslynOut[0]? = some u ∧ s.inFlight u = true ∧ 18 ∉ s.eslynLost) ∧
    19 ∉ w0.eslynLost ∧ 19 ∈ ({ w0 with eslynLost := [19] } : State).eslynLost := by decide

/-- MemoryAndPorts: what the errors meet: latches, launches on a core and in a mailbox. -/
theorem witness_MemoryAndPorts_errors :
    (let s := stC (fun c => { c with latchA := some ⟨10, false, 0, [], false⟩, latchS := some ⟨10, false, 0, [], false⟩ }) id
     (s.core 0).latchA.isSome = true ∧ (s.core 0).latchS.isSome = true) ∧
    (let s := mailed [⟨1, 0, [], [], 0, none⟩] []
     keysRise s.launches = true ∧ (s.launch? 1).map (fun l => (decide (l.phase ≠ .reserved), l.trap, (w0.core 0).has 1)) = some (true, none, true) ∧
       ((s.die 0).mailbox ++ (s.die 0).incoming ++ (s.die 0).pending.map (·.mail)).any (fun x => x.launch == 1) = true) := by decide

/-- FailuresAndResets: core 0 with broken tables, another with three poisoned reads, and the placed launch on it; dies to isolate; a
standby that takes over, in both roles; dies that a split cuts off, the active Stoker's among them. -/
theorem witness_FailuresAndResets :
    (let s := stC (fun c => { c with tablesBad := true }) id
     keysRise s.launches = true ∧ (s.core 0).removed = false ∧ (s.core 0).tablesBad = true ∧
       (s.launch? 1).map (fun l => (decide (l.phase ≠ .reserved), l.trap, (s.core 0).has 1)) = some (true, none, true)) ∧
    (let s := w0.setCore 1535 { w0.core 1535 with hwerr2 := [0, 0, 0] }
     (s.core 1535).removed = false ∧ threeWithin (s.core 1535).hwerr2 = true ∧ (s.core 1535).has 1 = false) ∧
    (let s := w0.setDie 7 { w0.die 7 with mailboxBad := true }; inDie 1344 = 0 ∧ (s.die (dieOf 1344)).mailboxBad = true) ∧
    (∀ d ∈ [0, 7], (w0.die d).isolated = false) ∧ (w0.launch? 1).map (fun l => (decide (0 ∈ l.dies), decide (7 ∈ l.dies))) = some (true, false) ∧
    (AMap.find? w0.aspaces 1).isSome = true ∧ 1 ∉ w0.genDue ∧
    (∀ b ∈ [true, false], let s := { w0 with stokerB := b }; s.standbyLive = true ∧ s.dieLive s.standbyDie = true) ∧
    w0.stokerDie ∈ w0.continuing := by decide

/-- FailuresAndResets: dies 1 and 4 isolated leave die 0, with the active Stoker, apart from the five dies that go on. -/
theorem witness_FailuresAndResets_split :
    let s := (w0.setDie 1 { w0.die 1 with isolated := true }).setDie 4 { w0.die 4 with isolated := true }
    s.stokerDie ∉ s.continuing ∧ s.standbyLive = true ∧ s.dieLive s.standbyDie = true ∧ s.standbyDie ∈ s.continuing ∧
      (s.dieLive 0 = true ∧ 0 ∉ s.continuing) := by decide

/-- FailuresAndResets: a die to isolate under the only launch of a space, running and saved, and in Reserve; a die to reset with a launch on
it, and with none; and a module reset with an image that is due. -/
theorem witness_FailuresAndResets_launches :
    (∀ p ∈ [Phase.running, .saved, .reserved], let s := withL (fun l => { l with phase := p }) w0
      s.launches.map (fun x => (x.2.phase, x.2.asid, decide (0 ∈ x.2.dies))) = [(p, 1, true)]) ∧
    (w0.launch? 1).map (fun l => (w0.onDie 0 1 l, w0.onDie 7 1 l)) = some (true, false) ∧
    (let s := withL (fun l => { l with phase := .reserved, started := [] }) (cleared w0)
     (s.launch? 1).map (fun l => (s.onDie 0 1 l, decide (l.phase = .reserved), decide (0 ∈ l.dies))) = some (false, true, true)) ∧
    (let s := withL (fun l => { l with sets := [(0, 1, 0)], started := [] }) w0
     (s.launch? 1).map (fun l => (decide (dieOf 1 ∉ l.started), l.sets.any fun x => x.2.1 == 1, (s.core 1).has 1)) = some (true, true, false)) ∧
    (AMap.find? ({ w0 with activateDue := [(3, [1])] } : State).activateDue 3 = some [1]) ∧
    (({ w0 with standbyLive := false } : State).standbyLive = false) := by decide

/-- A record of the layout of R341: KIND 4, a version, no payload, and a signature. -/
def record (v : Nat) : List Byte := leBytes 4 0x4B434652 ++ leBytes 2 4 ++ leBytes 2 v ++ leBytes 4 0 ++ List.replicate 4627 0

/-- FailuresAndResets: a record that is valid where its signature verifies (a free value, log 15), beside a newer one of its KIND
that is due at the reset. -/
theorem witness_FailuresAndResets_records :
    let s : State := { w0 with records := [(4, record 1)], recordsDue := [record 2] }
    (∀ v ∈ [1, 2], (Config.verifies (record v) = true → recordValid (record v) = true) ∧ fieldN (record v) 4 2 = 4 ∧ fieldN (record v) 6 2 = v) ∧
      keysRise s.records = true ∧ record 2 ∈ s.recordsDue ∧ AMap.find? s.records 4 = some (record 1) := by
  refine ⟨fun v h => ?_, rfl, .head _, rfl⟩
  have len : (record v).length = 4639 := by simp only [record, List.length_append, List.length_replicate, leBytes]; rfl
  have fields : fieldN (record v) 0 4 = 0x4B434652 ∧ fieldN (record v) 4 2 = 4 ∧ fieldN (record v) 8 4 = 0 ∧ fieldN (record v) 6 2 = v := by
    simp only [List.mem_cons, List.not_mem_nil, or_false] at h
    rcases h with rfl | rfl <;> exact ⟨rfl, rfl, rfl, rfl⟩
  exact ⟨fun ok => by simp only [recordValid, fields, len, ok]; decide, fields.2.1, fields.2.2.2⟩

end Sys2Proof.Tests
end

section
/-! Where the uniform branches go on (R165, R166). -/
namespace Sys2Proof.Machine

/-- A cleared control transfer away from a loop's end answers what its body completes to (R168, R368). -/
theorem issue_control_ok (i : Instr) (ks : List Nat) (body : State → Except Stop State) (s t : State) (clear : Clear i s = true)
    (noEnd : NoLoopEnd s.w = true) (readable : ReadableK s.w ks = true) (completes : body s = .ok t) :
    issue i s (control i ks body) = .next t :=
  issue_ok i s t _ clear (by rw [control_ok i ks body s readable noEnd, completes])

/-- A conditional branch goes to its target when its register reads 0 just as it asks, and else to the next word (R166). -/
theorem issue_branchOn (i : Instr) (w : BrkW) (zero : Bool) (s : State) (clear : Clear i s = true) (noEnd : NoLoopEnd s.w = true)
    (readable : ReadableK s.w [w.r.toNat] = true) :
    issue i s (branchOn i w zero) =
      .next (s.finish (if (s.w.k w.r.toNat == 0) = zero then wordsFrom s.w.pc w.off else s.w.pc + 4)) := by
  refine issue_control_ok i _ _ s _ clear noEnd readable ?_
  rw [kPoisonCheck_ok _ _ readable, offsetPc_eq]
  simp only [beq_iff_eq]

/-- Settles O14, an instruction at a time: the transfers pass the frame of R168, and the target is the one of R166. -/
theorem branchTargets : Obligations.BranchTargets := by
  refine ⟨fun s u clear => issue_ok _ s _ (fun s => .ok (s.finish (s.nextPc (.nop u)))) clear rfl,
    fun s w clear noEnd => issue_control_ok _ _ _ s _ clear noEnd (Readable_nil _ _) (by rw [offsetPc_eq]),
    fun s w clear noEnd readable => ?brz, fun s w clear noEnd readable => ?brnz,
    fun s u clear noEnd readable aligned low => issue_control_ok _ _ _ s _ clear noEnd readable ?jmpr⟩
  case brz =>
    have answer := issue_branchOn (.brz w) w true s clear noEnd readable
    simp only [beq_iff_eq] at answer
    exact answer
  case brnz =>
    have answer := issue_branchOn (.brnz w) w false s clear noEnd readable
    simp only [beq_eq_false_iff_ne, ne_eq, ite_not] at answer
    exact answer
  case jmpr => simp only [targetCheck_ok _ aligned low, kPoisonCheck_ok _ _ readable]

end Sys2Proof.Machine
end

section
/-! What XLINV removes from the translation caches (R186). -/
namespace Sys2Proof.Machine

/-- A change of the values under some numbers, which leaves the default as it is, shows at those numbers alone. -/
theorem AMap.get_map_if {α : Type} (d : α) (t : AMap α) (p : Nat → Bool) (f : α → α) (keepsDefault : f d = d) (i : Nat) :
    AMap.get d (t.map fun x => if p x.1 then (x.1, f x.2) else x) i = if p i then f (AMap.get d t i) else AMap.get d t i := by
  induction t with
  | nil => simp [AMap.get, AMap.find?, keepsDefault]
  | cons e t ih =>
    obtain ⟨k, v⟩ := e
    by_cases here : k = i
    · subst here
      cases hp : p k <;> simp [AMap.get, AMap.find?, hp]
    · cases hp : p k <;> simpa [AMap.get, AMap.find?, hp, here] using ih

/-- Dropping entries changes a selected core in its translation cache alone, and no other core. -/
theorem State.core_dropTlb (s : State) (core die : Nat → Bool) (f : TlbEntry → Bool) (c : Nat) :
    (s.dropTlb core die f).core c =
      if core c then { s.core c with tlb := (s.core c).tlb.filter fun e => !f e } else s.core c :=
  AMap.get_map_if Core.reset s.cores core (fun x => { x with tlb := x.tlb.filter fun e => !f e }) rfl c

/-- Dropping entries changes a selected die in its translation cache alone, and no other die. -/
theorem State.die_dropTlb (s : State) (core die : Nat → Bool) (f : TlbEntry → Bool) (d : Nat) :
    (s.dropTlb core die f).die d =
      if die d then { s.die d with tlb := (s.die d).tlb.filter fun e => !f e } else s.die d :=
  AMap.get_map_if Die.reset s.dies die (fun x => { x with tlb := x.tlb.filter fun e => !f e }) rfl d

theorem State.tlb_core_dropTlb (s : State) (core die : Nat → Bool) (f : TlbEntry → Bool) (c : Nat) :
    ((s.dropTlb core die f).core c).tlb = if core c then (s.core c).tlb.filter fun e => !f e else (s.core c).tlb := by
  rw [State.core_dropTlb]; split <;> rfl

theorem State.tlb_die_dropTlb (s : State) (core die : Nat → Bool) (f : TlbEntry → Bool) (d : Nat) :
    ((s.dropTlb core die f).die d).tlb = if die d then (s.die d).tlb.filter fun e => !f e else (s.die d).tlb := by
  rw [State.die_dropTlb]; split <;> rfl

@[simp] theorem State.w_dropTlb (s : State) (core die : Nat → Bool) (f : TlbEntry → Bool) : (s.dropTlb core die f).w = s.w := by
  change AMap.get Warp.free ((s.dropTlb core die f).core s.curCore).warps s.curSlot = AMap.get Warp.free (s.core s.curCore).warps s.curSlot
  rw [State.core_dropTlb]
  split <;> rfl

/-- Writing the issuing warp leaves every core's translation cache. -/
@[simp] theorem State.tlb_core_setW (s : State) (w : Warp) (c : Nat) : ((s.setW w).core c).tlb = (s.core c).tlb := by
  simp only [State.setW, State.setWarpAt, State.core_setCore]
  split
  · next h => rw [h]
  · rfl

@[simp] theorem State.die_setW (s : State) (w : Warp) (d : Nat) : (s.setW w).die d = s.die d := rfl

/-- The entries that XLINV removes: those whose pages overlap n bytes from an address (R186). -/
def overlaps (a n : Nat) (e : TlbEntry) : Bool := n ≠ 0 && a < e.va + e.size && e.va < a + n

/-- The caches in XLINV's scope: of the cores, and of the dies (R186). -/
def xlinvCores (s : State) (scope c : Nat) : Bool := scope == 2 || (scope == 1 && dieOf c == dieOf s.curCore) || c == s.curCore
def xlinvDies (s : State) (scope d : Nat) : Bool := scope == 2 || d == dieOf s.curCore

theorem xlinvCores_iff (s : State) (scope c : Nat) :
    xlinvCores s scope c = true ↔ c = s.curCore ∨ scope = 2 ∨ scope = 1 ∧ dieOf c = dieOf s.curCore := by
  simp only [xlinvCores, Bool.or_eq_true, Bool.and_eq_true, beq_iff_eq, or_comm]

theorem xlinvDies_iff (s : State) (scope d : Nat) : xlinvDies s scope d = true ↔ d = dieOf s.curCore ∨ scope = 2 := by
  simp only [xlinvDies, Bool.or_eq_true, beq_iff_eq, or_comm]

/-- XLINV with readable sources below 2^52 drops the overlapping entries in its scope and completes (R186). -/
theorem xlinv_ok (u : UniW) (s : State) (readable : ReadableK s.w (uSrcs u true true) = true)
    (low : (s.w.k u.ka.toNat).toNat < 2 ^ 52) :
    xlinv u s = .ok ((s.dropTlb (xlinvCores s (u.f5.toNat % 4)) (xlinvDies s (u.f5.toNat % 4))
      (overlaps (s.w.k u.ka.toNat).toNat (uB s.w u).toNat)).setW (s.w.complete (s.nextPc (.xlinv u)))) := by
  have checked : kCheck s.w (.xlinv u) (uSrcs u true true) none = .ok () := kCheck_ok _ _ _ _ readable (by simp)
  simp only [xlinv, checked, kPoisonCheck_ok _ _ readable, if_neg (Nat.not_le.2 low), State.finish, State.nextPc, State.w_dropTlb]
  rfl

/-- Settles O39: XLINV is one `dropTlb`, read off at each core and each die. -/
theorem cachedTranslationsGo : Obligations.CachedTranslationsGo := by
  intro s u clear readable low
  refine ⟨_, issue_ok _ s _ _ clear (xlinv_ok u s readable low), rfl, State.w_setW _ _, fun c => ?core, fun d => ?die⟩
  case core =>
    rw [State.tlb_core_setW, State.tlb_core_dropTlb]
    exact if_congr (xlinvCores_iff s _ c) rfl rfl
  case die =>
    rw [State.die_setW, State.tlb_die_dropTlb]
    exact if_congr (xlinvDies_iff s _ d) rfl rfl

end Sys2Proof.Machine
end

section
/-! The results of the uniform integer instructions, as their tables have them (R159 to R162). -/
namespace Sys2Proof.Machine

/-! ### Order and arithmetic -/

/-- Two words as numbers, signed or not, compare as the words do (R158, R159). -/
theorem sgVal_lt (sg : Bool) (a b : Word) : sgVal sg a < sgVal sg b ↔ (if sg then a.slt b else a.ult b) = true := by
  cases sg <;> simp [sgVal, BitVec.slt, BitVec.ult]

theorem sgVal_le (sg : Bool) (a b : Word) : sgVal sg a ≤ sgVal sg b ↔ (!(if sg then b.slt a else b.ult a)) = true := by
  rw [← not_lt, sgVal_lt, Bool.not_eq_true']; simp

theorem sgVal_inj (sg : Bool) (a b : Word) : sgVal sg a = sgVal sg b ↔ a = b := by
  cases sg
  · simp [sgVal, BitVec.toNat_inj]
  · simp [sgVal, BitVec.toInt_inj]

/-- UADD, as the sum of the numbers (R159). -/
theorem add_eq_ofNat (a b : Word) : a + b = BitVec.ofNat 64 (a.toNat + b.toNat) := by
  rw [BitVec.ofNat_add, BitVec.ofNat_toNat, BitVec.ofNat_toNat, BitVec.setWidth_eq, BitVec.setWidth_eq]

/-- UMUL, as the product of the numbers (R159). -/
theorem mul_eq_ofNat (a b : Word) : a * b = BitVec.ofNat 64 (a.toNat * b.toNat) := by
  rw [BitVec.ofNat_mul, BitVec.ofNat_toNat, BitVec.ofNat_toNat, BitVec.setWidth_eq, BitVec.setWidth_eq]

/-- USUB, as the difference of the numbers (R159). -/
theorem sub_eq_ofInt (a b : Word) : a - b = BitVec.ofInt 64 ((a.toNat : Int) - b.toNat) := by
  rw [Int.sub_eq_add_neg, BitVec.ofInt_add, BitVec.ofInt_neg, BitVec.ofInt_natCast, BitVec.ofInt_natCast, BitVec.ofNat_toNat,
    BitVec.ofNat_toNat, BitVec.setWidth_eq, BitVec.setWidth_eq, BitVec.sub_eq_add_neg]

/-- The high half of a number of 128 bits. -/
theorem ofInt_div_two_pow_64 (p : Int) : BitVec.ofInt 64 (p / (2 : Int) ^ 64) = (BitVec.ofInt 128 p).extractLsb' 64 64 := by
  apply BitVec.eq_of_toNat_eq
  simp only [BitVec.extractLsb'_toNat, BitVec.toNat_ofInt, Nat.shiftRight_eq_div_pow]
  omega

/-- UMULH is the high half of the product of 128 bits (R159). -/
theorem mulHigh_eq (sg : Bool) (a b : Word) :
    BitVec.ofInt 64 (sgVal sg a * sgVal sg b / (2 : Int) ^ 64) =
      if sg then (a.signExtend 128 * b.signExtend 128).extractLsb' 64 64 else (a.setWidth 128 * b.setWidth 128).extractLsb' 64 64 := by
  rw [ofInt_div_two_pow_64, BitVec.ofInt_mul]
  cases sg
  · simp only [sgVal, Bool.false_eq_true, if_false, BitVec.ofInt_natCast, BitVec.ofNat_toNat]
  · rfl

/-- UDIV and UREM by a divisor other than 0 (R160). -/
theorem divRem_of_ne_zero (sg : Bool) (a b : Word) (nonzero : b ≠ 0) :
    divRem sg a b = if sg then (a.sdiv b, a.srem b) else (a / b, a % b) := by
  simp only [divRem, if_neg nonzero, Int.mul_comm _ (sgVal sg b), ← Int.tmod_def]
  cases sg
  · have quotient : BitVec.ofInt 64 ((a.toNat : Int).tdiv b.toNat) = a / b := by
      rw [← Int.ofNat_tdiv, BitVec.ofInt_natCast, ← BitVec.toNat_udiv, BitVec.ofNat_toNat, BitVec.setWidth_eq]
    have rest : BitVec.ofInt 64 ((a.toNat : Int).tmod b.toNat) = a % b := by
      rw [← Int.ofNat_tmod, BitVec.ofInt_natCast, ← BitVec.toNat_umod, BitVec.ofNat_toNat, BitVec.setWidth_eq]
    simp only [sgVal, Bool.false_eq_true, if_false, quotient, rest]
  · have quotient : BitVec.ofInt 64 (a.toInt.tdiv b.toInt) = a.sdiv b :=
      BitVec.eq_of_toInt_eq (by rw [BitVec.toInt_ofInt, BitVec.toInt_sdiv])
    have rest : BitVec.ofInt 64 (a.toInt.tmod b.toInt) = a.srem b := by rw [← BitVec.toInt_srem, BitVec.ofInt_toInt]
    simp only [sgVal, if_true, quotient, rest]

theorem divRem_fst (sg : Bool) (a b : Word) :
    (divRem sg a b).1 = if b = 0 then BitVec.allOnes 64 else if sg then a.sdiv b else a / b := by
  by_cases zero : b = 0
  · rw [if_pos zero, divRem, if_pos zero]; rfl
  · rw [if_neg zero, divRem_of_ne_zero sg a b zero, apply_ite Prod.fst]

theorem divRem_snd (sg : Bool) (a b : Word) :
    (divRem sg a b).2 = if b = 0 then a else if sg then a.srem b else a % b := by
  by_cases zero : b = 0
  · rw [if_pos zero, divRem, if_pos zero]
  · rw [if_neg zero, divRem_of_ne_zero sg a b zero, apply_ite Prod.snd]

/-- A condition of UCMP on words (R158). -/
theorem cmpI_sgVal (cc : Nat) (sg : Bool) (a b : Word) :
    cmpI cc (sgVal sg a) (sgVal sg b) =
      let lt := fun (x y : Word) => if sg then x.slt y else x.ult y
      match cc with
      | 0 => a == b | 1 => a != b | 2 => lt a b | 3 => !lt b a | 4 => lt b a | _ => !lt a b := by
  have eq : (sgVal sg a == sgVal sg b) = (a == b) := by rw [Bool.eq_iff_iff, beq_iff_eq, beq_iff_eq, sgVal_inj]
  have less (x y : Word) : decide (sgVal sg x < sgVal sg y) = if sg then x.slt y else x.ult y := by
    simp only [sgVal_lt, Bool.decide_eq_true]
  have notMore (x y : Word) : decide (sgVal sg x ≤ sgVal sg y) = !if sg then y.slt x else y.ult x := by
    simp only [sgVal_le, Bool.decide_eq_true]
  match cc with
  | 0 => exact eq
  | 1 => exact congrArg (!·) eq
  | 2 => exact less a b
  | 3 => exact notMore a b
  | 4 => exact less b a
  | n + 5 => exact notMore b a

/-! ### Shifts and counts -/

theorem ofNat_shlN (a : Word) (n : Nat) : BitVec.ofNat 64 (shlN 64 a.toNat n) = if 64 ≤ n then 0 else a <<< n := by
  unfold shlN
  split
  · rfl
  · rw [← BitVec.toNat_shiftLeft, BitVec.ofNat_toNat, BitVec.setWidth_eq]

theorem ofNat_shrN (a : Word) (n : Nat) : BitVec.ofNat 64 (shrN 64 a.toNat n) = if 64 ≤ n then 0 else a >>> n := by
  unfold shrN
  split
  · rfl
  · rw [← BitVec.toNat_ushiftRight, BitVec.ofNat_toNat, BitVec.setWidth_eq]

theorem ofNat_modN (n : Nat) (x : Int) : BitVec.ofNat n (modN n x) = BitVec.ofInt n x := by
  rw [modN, ← BitVec.ofInt_natCast, Int.toNat_of_nonneg (Int.emod_nonneg _ (by positivity))]
  exact BitVec.eq_of_toInt_eq (by simp only [BitVec.toInt_ofInt]; exact_mod_cast Int.emod_bmod x (2 ^ n))

theorem ofNat_sarN (a : Word) (n : Nat) : BitVec.ofNat 64 (sarN 64 a.toNat n) = a.sshiftRight (min n 63) := by
  rw [sarN, ofNat_modN, toSigned_eq, BitVec.sshiftRight_eq, Int.shiftRight_eq_div_pow]
  norm_cast

theorem ofNat_clzN (a : Word) : BitVec.ofNat 64 (clzN 64 a.toNat) = a.clz := by
  by_cases zero : a = 0
  · subst zero; decide
  · have nonzero : a.toNat ≠ 0 := fun e => zero (BitVec.eq_of_toNat_eq e)
    have lt : a.clz.toNat < 64 := by simpa using BitVec.lt_def.1 (BitVec.clz_lt_iff_ne_zero.2 zero)
    have log : a.toNat.log2 = 63 - a.clz.toNat := by
      refine (Nat.log2_eq_iff nonzero).2 ⟨BitVec.two_pow_sub_clz_le_toNat_of_ne_zero (by decide) zero, ?_⟩
      rw [show 63 - a.clz.toNat + 1 = 64 - a.clz.toNat by omega]
      exact BitVec.toNat_lt_two_pow_sub_clz
    rw [clzN, if_neg nonzero, log, show 64 - 1 - (63 - a.clz.toNat) = a.clz.toNat by omega, BitVec.ofNat_toNat, BitVec.setWidth_eq]

/-- The bits below n that are set, counted from below as from above. -/
theorem cpopNatRec_eq_foldl (a : Word) (n : Nat) :
    a.cpopNatRec n 0 = (List.range n).foldl (fun c i => if a.toNat.testBit i then c + 1 else c) 0 := by
  induction n with
  | zero => rfl
  | succ n ih =>
    rw [BitVec.cpopNatRec_succ, BitVec.cpopNatRec_eq, ih, List.range_succ, List.foldl_append, ← BitVec.testBit_toNat]
    cases h : a.toNat.testBit n <;> simp [h]

theorem ofNat_popcN (a : Word) : BitVec.ofNat 64 (popcN 64 a.toNat) = a.cpop := by
  rw [popcN, ← cpopNatRec_eq_foldl]; rfl

/-! ### Fields -/

/-- The field that a control value names, as the operations compute it (R122). -/
theorem fieldMask_eq (w ctl : Nat) :
    fieldMask w ctl = (bits ctl 5 0, fieldLen w ctl, (2 ^ fieldLen w ctl - 1) <<< bits ctl 5 0) := by
  simp [fieldMask, fieldLen, bits, Nat.shiftRight_eq_div_pow]

theorem and_mask_shiftRight (x len pos : Nat) : (x &&& (2 ^ len - 1) <<< pos) >>> pos = (x >>> pos) % 2 ^ len := by
  rw [Nat.shiftRight_and_distrib, Nat.shiftLeft_shiftRight, Nat.and_two_pow_sub_one_eq_mod]

/-- UBFX takes the field out under its mask (R161). -/
theorem bfxN_eq (sg : Bool) (a ctl : Nat) :
    let f := fieldMask 64 ctl
    let x := (a &&& f.2.2) >>> f.1
    bfxN 64 sg a ctl = if sg && f.2.1 != 0 then modN 64 (toSigned f.2.1 x) else x := by
  simp only [fieldMask_eq, and_mask_shiftRight]; rfl

theorem ofNat_andnN (x m : Nat) : BitVec.ofNat 64 (andnN 64 x m) = BitVec.ofNat 64 x &&& ~~~BitVec.ofNat 64 m := by
  rw [andnN, BitVec.ofNat_and]
  congr 1
  apply BitVec.eq_of_toNat_eq
  rw [BitVec.toNat_not, BitVec.toNat_ofNat, BitVec.toNat_ofNat]
  omega

/-- UBFI replaces the field of its base under the mask (R161). -/
theorem ofNat_bfiN (d a : Word) (ctl : Nat) :
    let f := fieldMask 64 ctl
    BitVec.ofNat 64 (bfiN 64 d.toNat a.toNat ctl) = (d &&& ~~~BitVec.ofNat 64 f.2.2) ||| ((a <<< f.1) &&& BitVec.ofNat 64 f.2.2) := by
  have shifted : BitVec.ofNat 64 (a.toNat <<< bits ctl 5 0) = a <<< bits ctl 5 0 :=
    BitVec.eq_of_toNat_eq (by rw [BitVec.toNat_ofNat, BitVec.toNat_shiftLeft])
  simp only [fieldMask_eq, bfiN, BitVec.ofNat_or, BitVec.ofNat_and, ofNat_andnN, shifted, BitVec.ofNat_toNat, BitVec.setWidth_eq]

/-! ### Halves and WID -/

theorem lowHalf_bit : ∀ i : Fin 64, (0xFFFFFFFF : Word).getLsbD i.val = decide (i.val < 32) := by decide
theorem highHalf_bit : ∀ i : Fin 64, (0xFFFFFFFF00000000 : Word).getLsbD i.val = decide (32 ≤ i.val) := by decide

/-- UMOVLO, by the half that a bit lies in (R159). -/
theorem movLow_eq (a b : Word) :
    (a &&& (0xFFFFFFFF00000000 : Word)) ||| (b &&& 0xFFFFFFFF) = a.extractLsb' 32 32 ++ b.extractLsb' 0 32 := by
  apply BitVec.eq_of_getLsbD_eq
  intro i hi
  simp only [BitVec.getLsbD_or, BitVec.getLsbD_and, highHalf_bit ⟨i, hi⟩, lowHalf_bit ⟨i, hi⟩,
    BitVec.getLsbD_append, BitVec.getLsbD_extractLsb']
  by_cases low : i < 32
  · simp [low]
  · simp [low, show 32 ≤ i by omega, show i - 32 < 32 by omega]

/-- UMOVHI, by the half that a bit lies in (R159). -/
theorem movHigh_eq (a b : Word) : (a &&& (0xFFFFFFFF : Word)) ||| (b <<< 32) = b.extractLsb' 0 32 ++ a.extractLsb' 0 32 := by
  apply BitVec.eq_of_getLsbD_eq
  intro i hi
  simp only [BitVec.getLsbD_or, BitVec.getLsbD_and, lowHalf_bit ⟨i, hi⟩, BitVec.getLsbD_shiftLeft,
    BitVec.getLsbD_append, BitVec.getLsbD_extractLsb']
  by_cases low : i < 32
  · simp [low]
  · simp [low, hi, show i - 32 < 32 by omega]

/-- WIDF takes a field of WID behind those of the lower numbers (R22, R162). -/
theorem ofNat_widField (w : Warp) (i : Nat) :
    BitVec.ofNat 64 (w.widField i) =
      if w.kind = .child ∨ bits w.widfmt.toNat 38 36 ≤ i then 0
      else BitVec.ofNat 64 (w.wid.toNat / 2 ^ ((List.range i).map (widWidth w.widfmt.toNat)).sum % 2 ^ widWidth w.widfmt.toNat i) := by
  simp only [Warp.widField, List.sum_eq_foldl, List.foldl_map, Nat.shiftRight_eq_div_pow, Bool.or_eq_true, decide_eq_true_eq]
  split <;> rfl

/-! ### The instructions -/

/-- A cleared uniform instruction that does not read kd writes its value (R157). -/
theorem issue_uniWrite (i : Instr) (u : UniW) (a b : Bool) (f : Warp → Word) (x : Word) (s : State) (value : f s.w = x)
    (clear : Clear i s = true) (readable : ReadableK s.w (uSrcs u a b) = true) (full : s.w.kIsEmpty u.kd.toNat = false) :
    issue i s (uniWrite i u a b false f) = .next (s.wroteK i u.kd.toNat x) :=
  issue_ok i s _ _ clear (by rw [uniWrite_ok i u a b false f s (by simpa using readable) full, value])

/-- The same for an instruction of two operands. -/
theorem issue_uni2 (i : Instr) (u : UniW) (f : Word → Word → Word) (x : Word) (s : State) (value : f (s.w.k u.ka.toNat) (uB s.w u) = x)
    (clear : Clear i s = true) (readable : ReadableK s.w (uSrcs u true true) = true) (full : s.w.kIsEmpty u.kd.toNat = false) :
    issue i s (uni2 i u f) = .next (s.wroteK i u.kd.toNat x) :=
  issue_uniWrite i u true true _ x s value clear readable full

/-- Settles O7, a row of the table at a time: each instruction is the frame of R157 around its result. -/
theorem uniformResults : Obligations.UniformResults := by
  intro s u
  simp only [uniResults, List.forall_mem_append, List.forall_mem_cons, List.not_mem_nil, false_imp_iff, implies_true, and_true]
  exact ⟨⟨issue_uni2 (.uadd u) u _ _ s (add_eq_ofNat _ _), issue_uni2 (.usub u) u _ _ s (sub_eq_ofInt _ _),
      issue_uni2 (.umul u) u _ _ s (mul_eq_ofNat _ _), issue_uni2 (.umulh u) u _ _ s (mulHigh_eq _ _ _),
      issue_uni2 (.umin u) u _ _ s (if_congr (sgVal_lt _ _ _) rfl rfl), issue_uni2 (.umax u) u _ _ s (if_congr (sgVal_lt _ _ _) rfl rfl),
      issue_uni2 (.uand u) u _ _ s rfl, issue_uni2 (.uor u) u _ _ s rfl, issue_uni2 (.uxor u) u _ _ s rfl⟩,
    issue_uni2 (.ushl u) u _ _ s (ofNat_shlN _ _), issue_uni2 (.ushr u) u _ _ s (ofNat_shrN _ _),
    issue_uni2 (.usar u) u _ _ s (ofNat_sarN _ _), issue_uniWrite (.uclz u) u true false _ _ s (ofNat_clzN _),
    issue_uniWrite (.upopc u) u true false _ _ s (ofNat_popcN _),
    issue_uni2 (.ubfx u) u _ _ s (congrArg (BitVec.ofNat 64) (bfxN_eq _ _ _)),
    fun clear readable full => issue_ok (.ubfi u) s _ _ clear
      ((uniWrite_ok _ u true true true _ s readable full).trans (by rw [ofNat_bfiN])),
    issue_uniWrite (.umov u) u false true _ _ s rfl, issue_uni2 (.umovlo u) u _ _ s (movLow_eq _ _),
    issue_uni2 (.umovhi u) u _ _ s (movHigh_eq _ _),
    issue_uni2 (.ucmp u) u _ _ s (congrArg (fun c : Bool => if c then (1 : Word) else 0) (cmpI_sgVal _ _ _ _)),
    issue_uni2 (.udiv u) u _ _ s (divRem_fst _ _ _), issue_uni2 (.urem u) u _ _ s (divRem_snd _ _ _),
    issue_uniWrite (.widf u) u false false _ _ s (ofNat_widField _ _)⟩

end Sys2Proof.Machine
end
